-- ==== Sys2Proof/Word.lean ====
section
/-! DEFINITION. The word types of the device (R9, R13). -/

namespace Sys2Proof

/-- Eight bits of memory. -/
abbrev Byte := BitVec 8

/-- A 32-bit register (R13). -/
abbrev Word := BitVec 32

/-- A 64-bit value: a register pair, a mask register or a counter (R14). -/
abbrev Dword := BitVec 64

end Sys2Proof
end

