-- ==== Sys2Proof/Config.lean ====
section
/-! DEFINITION. What the spec leaves to an implementation or to the world outside the package: values that nothing in the
model constrains.  Each is named in the assumption log. -/

namespace Sys2Proof.Config

/-- What PTIME gains in a wall cycle beyond the least that the model gives it (R5): the IEEE 1588 clock is disciplined from outside. -/
opaque ptime : Nat → Nat

/-- A value that the spec leaves open, by a counter of the state. -/
opaque freeValue : Nat → BitVec 64

/-- What a word of a core's register file that no gang owns reads as, by its address (R229). -/
opaque registerResidue : Nat → BitVec 8

/-- The SHA-384 digest of a string of bytes, as a number (R462, R472). -/
opaque sha384 : List (BitVec 8) → Nat

/-- Whether an ECDSA P-384 signature over a digest verifies under a public key (R462, R463). -/
opaque ecdsaVerifies : List (BitVec 8) → Nat → List (BitVec 8) → Bool

/-- The Reten public key in the boot ROM's fuses (R463). -/
opaque retenKey : List (BitVec 8)

/-- The SHA-384 digest of the boot ROM, which attestation reports (R472). -/
opaque bootRomDigest : Nat

/-- The package's power in watts averaged over the last 2^16 wall cycles, and its hottest die's temperature in tenths of a degree
Celsius, at a wall cycle (R475). -/
opaque power : Nat → Nat
opaque temperature : Nat → Nat

/-- The bytes of an SPDM answer that the attestation key and the certificates fix, by the request (R472). -/
opaque spdmAnswer : List (BitVec 8) → List (BitVec 8)

/-- The bank of a DRAM layer and its row that hold a device physical address, and the words of a row (R456): the spec gives no
geometry of the layers. -/
opaque dramBank : Nat → Nat
opaque dramRow : Nat → Nat
opaque rowWords : Nat

/-- The bytes of a notification whose layout the spec does not give (R470): its kind and two numbers that it names. -/
opaque notice : Nat → Nat → Nat → List (BitVec 8)

end Sys2Proof.Config
end

