-- ==== Sys2Proof/Machine/Float.lean ====
section
/-! DEFINITION. The floating-point formats, Round and the exact arithmetic that every unit shares (R13 to R38).

A finite value is a sign, a magnitude `m` and an exponent `e`, and stands for m × 2^e; nothing is rounded before
`roundNum` or `roundInt`. -/

namespace Sys2Proof.Machine

/-- The floating-point formats of R15. -/
inductive FloatFmt | f32 | f16 | bf16 | e4m3 | e5m2 | e2m1
deriving DecidableEq, Repr

namespace FloatFmt

/-- Exponent bits (R15). -/
def expBits : FloatFmt → Nat
  | f32 => 8 | f16 => 5 | bf16 => 8 | e4m3 => 4 | e5m2 => 5 | e2m1 => 2

/-- Fraction bits (R15). -/
def fracBits : FloatFmt → Nat
  | f32 => 23 | f16 => 10 | bf16 => 7 | e4m3 => 3 | e5m2 => 2 | e2m1 => 1

/-- Exponent bias (R15). -/
def bias : FloatFmt → Nat
  | f32 => 127 | f16 => 15 | bf16 => 127 | e4m3 => 7 | e5m2 => 15 | e2m1 => 1

/-- The least exponent of a normal value (R15). -/
def emin (f : FloatFmt) : Int := 1 - (f.bias : Int)

/-- Width in bits (R15). -/
def width (f : FloatFmt) : Nat := 1 + f.expBits + f.fracBits

/-- The code of the sign bit. -/
def signCode (f : FloatFmt) : Nat := 2 ^ (f.expBits + f.fracBits)

/-- Whether the format has infinities (R16). -/
def hasInf : FloatFmt → Bool
  | f32 | f16 | bf16 | e5m2 => true
  | e4m3 | e2m1 => false

/-- The code of +∞, where there is one (R16). -/
def infCode (f : FloatFmt) : Nat := (2 ^ f.expBits - 1) * 2 ^ f.fracBits

/-- The canonical NaN, where there is one (R16); e2m1 has none, and a NaN converts to +0 there (R32). -/
def nanCode : FloatFmt → Nat
  | f32 => 0x7FC00000 | f16 => 0x7E00 | bf16 => 0x7FC0 | e4m3 => 0x7F | e5m2 => 0x7E | e2m1 => 0

/-- The code of the largest finite value MAXF (R15). -/
def maxCode : FloatFmt → Nat
  | f32 => 0x7F7FFFFF | f16 => 0x7BFF | bf16 => 0x7F7F | e4m3 => 0x7E | e5m2 => 0x7B | e2m1 => 0x7

/-- MAXF as maxMant × 2^maxExp (R15). -/
def maxMant : FloatFmt → Nat
  | f32 => 2 ^ 24 - 1 | f16 => 2 ^ 11 - 1 | bf16 => 2 ^ 8 - 1 | e4m3 => 14 | e5m2 => 7 | e2m1 => 3

/-- The exponent of MAXF's last place. -/
def maxExp : FloatFmt → Int
  | f32 => 104 | f16 => 5 | bf16 => 120 | e4m3 => 5 | e5m2 => 13 | e2m1 => 1

end FloatFmt

/-- The value of a code: a NaN, an infinity, or ±m × 2^e. -/
inductive FloatVal
  | nan (signalling : Bool)
  | inf (neg : Bool)
  | num (neg : Bool) (m : Nat) (e : Int)
deriving DecidableEq, Repr

namespace FloatVal

def isNan : FloatVal → Bool
  | nan _ => true | _ => false

def isSignalling : FloatVal → Bool
  | nan b => b | _ => false

def isZero : FloatVal → Bool
  | num _ m _ => m == 0 | _ => false

def isNeg : FloatVal → Bool
  | nan _ => false | inf n => n | num n _ _ => n

def negate : FloatVal → FloatVal
  | nan b => nan b | inf n => inf (!n) | num n m e => num (!n) m e

end FloatVal

/-- The value that a code denotes (R15, R16, R19). -/
def FloatFmt.decode (f : FloatFmt) (code : Nat) : FloatVal :=
  let neg := code / f.signCode % 2 == 1
  let ef := code / 2 ^ f.fracBits % 2 ^ f.expBits
  let fr := code % 2 ^ f.fracBits
  let top := ef == 2 ^ f.expBits - 1
  if top && f.hasInf then
    if fr = 0 then .inf neg else .nan (fr < 2 ^ (f.fracBits - 1))
  else if f = .e4m3 && top && fr == 7 then .nan false
  else if ef = 0 then .num neg fr (f.emin - f.fracBits)
  else .num neg (2 ^ f.fracBits + fr) ((ef : Int) - f.bias - f.fracBits)

/-- A code with its sign (the codes of magnitudes never hold the sign bit). -/
def FloatFmt.withSign (f : FloatFmt) (neg : Bool) (mag : Nat) : Nat :=
  if neg then f.signCode + mag else mag

/-- The sticky flags of a lane: [0] NX, [1] UF, [2] OF, [3] DZ, [4] NV, [5] DEP (R56, R101). -/
abbrev Fx := BitVec 6

namespace Fx
def none : Fx := 0
def nx : Fx := 1
def uf : Fx := 2
def of : Fx := 4
def dz : Fx := 8
def nv : Fx := 16
def dep : Fx := 32
end Fx

/-- A delivered code and the flags it raised. -/
structure FloatRes where
  code : Nat
  flags : Fx
deriving DecidableEq, Repr

/-- The rounding rules of R24. -/
inductive RoundMode | rne | rz | rd | ru | sd | rneSat | sdSat | rna
deriving DecidableEq, Repr

/-- A rounding rule with the position and the phase that ordered dither uses (R27). -/
structure Rounding where
  mode : RoundMode
  j : Nat
  phi : Nat
deriving DecidableEq, Repr

/-- A rounding that dithers nothing. -/
def Rounding.plain (m : RoundMode) : Rounding := ⟨m, 0, 0⟩

/-- FPM.RM as a rounding (R25); codes 5 to 7 cannot be written. -/
def roundOfRm (rm : Nat) : RoundMode :=
  match rm with
  | 1 => .rz | 2 => .rd | 3 => .ru | 4 => .rna | _ => .rne

/-- DSEQ (R27). -/
def dseq (i : Nat) : Nat :=
  match i % 8 with
  | 0 => 0 | 1 => 4 | 2 => 2 | 3 => 6 | 4 => 1 | 5 => 5 | 6 => 3 | _ => 7

/-- The dither value of a position and a phase (R27). -/
def Rounding.dither (r : Rounding) : Nat := dseq (r.j + 3 * r.phi)

def RoundMode.isSat : RoundMode → Bool
  | .rneSat | .sdSat => true
  | _ => false

/-- The integer that R26 chooses for t = m / 2^k. -/
def roundQuot (r : Rounding) (neg : Bool) (m k : Nat) : Nat :=
  let n := m / 2 ^ k
  let rem := m % 2 ^ k
  let up := if rem = 0 then n else n + 1
  match r.mode with
  | .rne | .rneSat => if 2 * rem > 2 ^ k ∨ (2 * rem = 2 ^ k ∧ n % 2 = 1) then n + 1 else n
  | .rna => if 2 * rem ≥ 2 ^ k ∧ rem ≠ 0 then n + 1 else n
  | .rz => n
  | .ru => if neg then n else up
  | .rd => if neg then up else n
  | .sd | .sdSat => (m * 8 + r.dither * 2 ^ k) / (8 * 2 ^ k)

/-- What a finite result beyond MAXF becomes (R28). -/
def FloatFmt.overflow (f : FloatFmt) (mode : RoundMode) (neg : Bool) : Nat :=
  let big := if f.hasInf then f.withSign neg f.infCode
    else if f = .e4m3 then f.nanCode else f.withSign neg f.maxCode
  let cap := f.withSign neg f.maxCode
  match mode with
  | .rne | .rna | .sd => big
  | .rz | .rneSat | .sdSat => cap
  | .ru => if neg then cap else big
  | .rd => if neg then big else cap

/-- Round(±m × 2^e) to a floating format (R26, R28). -/
def roundNum (f : FloatFmt) (r : Rounding) (neg : Bool) (m : Nat) (e : Int) : FloatRes :=
  if m = 0 then ⟨f.withSign neg 0, Fx.none⟩
  else
    let lg : Int := (Nat.log2 m : Int) + e
    let qe := max lg f.emin - f.fracBits
    let k := (qe - e).toNat
    let n := if qe ≤ e then m * 2 ^ (e - qe).toNat else roundQuot r neg m k
    let inexact := !(decide (qe ≤ e)) && m % 2 ^ k != 0
    let nx := if inexact then Fx.nx else Fx.none
    let uf := if inexact && decide (lg < f.emin) then Fx.uf else Fx.none
    let tooBig := n * 2 ^ (qe - f.maxExp).toNat > f.maxMant * 2 ^ (f.maxExp - qe).toNat
    if tooBig then ⟨f.overflow r.mode neg, Fx.of ||| Fx.nx⟩
    else
      let mag := if n < 2 ^ f.fracBits then n
        else
          let big := n == 2 ^ (f.fracBits + 1)
          let n' := if big then 2 ^ f.fracBits else n
          let q' := if big then qe + 1 else qe
          (q' + f.fracBits + f.bias).toNat * 2 ^ f.fracBits + (n' - 2 ^ f.fracBits)
      ⟨f.withSign neg mag, nx ||| uf⟩

/-- The range of a 32-bit integer destination (R13). -/
def intRange (signed : Bool) : Int × Int :=
  if signed then (-2 ^ 31, 2 ^ 31 - 1) else (0, 2 ^ 32 - 1)

/-- The 32-bit image of an integer. -/
def intCode (v : Int) : Nat := (v % 2 ^ 32).toNat

/-- Round(±m × 2^e) to s32 or n32 (R26, R31). -/
def roundInt (signed : Bool) (r : Rounding) (neg : Bool) (m : Nat) (e : Int) : FloatRes :=
  let k := (-e).toNat
  let n := if 0 ≤ e then m * 2 ^ e.toNat else roundQuot r neg m k
  let inexact := !(decide (0 ≤ e)) && m % 2 ^ k != 0
  let v : Int := if neg then -(n : Int) else n
  let (lo, hi) := intRange signed
  if v < lo then ⟨intCode lo, Fx.nv⟩
  else if v > hi then ⟨intCode hi, Fx.nv⟩
  else ⟨intCode v, if inexact then Fx.nx else Fx.none⟩

/-- The canonical NaN of a format (R17). -/
def FloatFmt.nanRes (f : FloatFmt) (invalid : Bool) : FloatRes :=
  ⟨f.nanCode, if invalid then Fx.nv else Fx.none⟩

/-- An exact dyadic number: m × 2^e. -/
structure Dyadic where
  m : Int
  e : Int
deriving DecidableEq, Repr

/-- The exact sum. -/
def Dyadic.add (a b : Dyadic) : Dyadic :=
  let e := min a.e b.e
  ⟨a.m * 2 ^ (a.e - e).toNat + b.m * 2 ^ (b.e - e).toNat, e⟩

/-- The exact product. -/
def Dyadic.mul (a b : Dyadic) : Dyadic := ⟨a.m * b.m, a.e + b.e⟩

/-- The exact value of a finite number. -/
def FloatVal.dyadic : FloatVal → Dyadic
  | .num n m e => ⟨if n then -(m : Int) else m, e⟩
  | _ => ⟨0, 0⟩

/-- The exact product of two values; the Bool says that it is 0 × ∞ (R123). -/
def FloatVal.mul (a b : FloatVal) : FloatVal × Bool :=
  match a, b with
  | .nan x, .nan y => (.nan (x || y), false)
  | .nan x, _ => (.nan x, false)
  | _, .nan y => (.nan y, false)
  | .inf n, .inf n' => (.inf (n != n'), false)
  | .inf n, .num n' m _ => if m = 0 then (.nan false, true) else (.inf (n != n'), false)
  | .num n m _, .inf n' => if m = 0 then (.nan false, true) else (.inf (n != n'), false)
  | .num n m e, .num n' m' e' => (.num (n != n') (m * m') (e + e'), false)

/-- The sign of an exactly zero sum (R123): −0 if every term is −0, or if the terms differ in sign and the rounding
is rd. -/
def zeroSumNeg (mode : RoundMode) (terms : List FloatVal) : Bool :=
  terms.all (fun t => t.isNeg && t.isZero) ||
    (mode == .rd && terms.any FloatVal.isNeg && terms.any (fun t => !t.isNeg))

/-- The sum of terms, rounded once (R36, R123); `invalid` says that an operand signalled or a product was 0 × ∞.  The rows of R123 apply
together: infinities of both signs raise NV beside a NaN term too (R33). -/
def sumRound (f : FloatFmt) (r : Rounding) (invalid : Bool) (terms : List FloatVal) : FloatRes :=
  let pos := terms.any (· == .inf false)
  let neg := terms.any (· == .inf true)
  if terms.any FloatVal.isNan then f.nanRes (invalid || (pos && neg))
  else
    if pos && neg then f.nanRes true
    else if pos || neg then ⟨f.withSign neg f.infCode, Fx.none⟩
    else
      let d := terms.foldl (fun acc t => acc.add t.dyadic) (⟨0, 0⟩ : Dyadic)
      if d.m = 0 then ⟨f.withSign (zeroSumNeg r.mode terms) 0, Fx.none⟩
      else roundNum f r (d.m < 0) d.m.natAbs d.e

/-- acc + Σ a_k × b_k with one rounding (R36, R123). -/
def dotRound (f : FloatFmt) (r : Rounding) (acc : List FloatVal) (pairs : List (FloatVal × FloatVal)) : FloatRes :=
  let prods := pairs.map (fun p => p.1.mul p.2)
  let sig := acc.any FloatVal.isSignalling ||
    pairs.any (fun p => p.1.isSignalling || p.2.isSignalling)
  sumRound f r (sig || prods.any (·.2)) (acc ++ prods.map (·.1))

/-- a + b (R123). -/
def fAdd (f : FloatFmt) (r : Rounding) (a b : Nat) : FloatRes :=
  dotRound f r [f.decode a, f.decode b] []

/-- a − b (R123). -/
def fSub (f : FloatFmt) (r : Rounding) (a b : Nat) : FloatRes :=
  dotRound f r [f.decode a, (f.decode b).negate] []

/-- a × b (R123). -/
def fMul (f : FloatFmt) (r : Rounding) (a b : Nat) : FloatRes :=
  dotRound f r [] [(f.decode a, f.decode b)]

/-- d + a × b with one rounding (R123, R124). -/
def fFma (f : FloatFmt) (r : Rounding) (d a b : Nat) : FloatRes :=
  dotRound f r [f.decode d] [(f.decode a, f.decode b)]

/-- The order key of a code that is not a NaN, with −0 below +0 (R125). -/
def FloatFmt.orderKey (f : FloatFmt) (code : Nat) : Int :=
  if code / f.signCode % 2 = 1 then -((code % f.signCode : Nat) : Int) - 1 else ((code % f.signCode : Nat) : Int)

/-- fmin and fmax (R125). -/
def fMinMax (f : FloatFmt) (isMax : Bool) (a b : Nat) : FloatRes :=
  let va := f.decode a
  let vb := f.decode b
  let fl := if va.isSignalling || vb.isSignalling then Fx.nv else Fx.none
  if va.isNan && vb.isNan then ⟨f.nanCode, fl⟩
  else if va.isNan then ⟨b, fl⟩
  else if vb.isNan then ⟨a, fl⟩
  else
    let aLess := decide (f.orderKey a ≤ f.orderKey b)
    ⟨if aLess == isMax then b else a, fl⟩

/-- The comparison of two values that are not NaN, with −0 equal to +0: less, equal, greater. -/
def FloatFmt.compare (f : FloatFmt) (a b : Nat) : Ordering :=
  let key (c : Nat) : Int :=
    if c / f.signCode % 2 = 1 then -((c % f.signCode : Nat) : Int) else ((c % f.signCode : Nat) : Int)
  if key a < key b then .lt else if key a = key b then .eq else .gt

/-! ## Conversion (R29 to R32) -/

/-- The format codes 0 to 7 of FCVT (R29). -/
inductive CvtFmt | float (f : FloatFmt) | int (signed : Bool)
deriving DecidableEq, Repr

def cvtFmt (c : Nat) : CvtFmt :=
  match c with
  | 0 => .float .f32 | 1 => .float .f16 | 2 => .float .bf16 | 3 => .float .e4m3
  | 4 => .float .e5m2 | 5 => .float .e2m1 | 6 => .int true | _ => .int false

/-- The value of an integer source. -/
def intVal (signed : Bool) (code : Nat) : FloatVal :=
  if signed && decide (code ≥ 2 ^ 31) then .num true (2 ^ 32 - code) 0 else .num false code 0

/-- The value of an FCVT source, read from its standing-alone bits (R14, R130). -/
def CvtFmt.decode (c : CvtFmt) (reg : Nat) : FloatVal :=
  match c with
  | .float f => f.decode (reg % 2 ^ f.width)
  | .int s => intVal s reg

/-- Conversion of an infinity (R32). -/
def cvtInf (dst : CvtFmt) (mode : RoundMode) (neg : Bool) : FloatRes :=
  match dst with
  | .float f =>
    if mode.isSat then ⟨f.withSign neg f.maxCode, Fx.nx⟩
    else if f.hasInf then ⟨f.withSign neg f.infCode, Fx.none⟩
    else if f = .e4m3 then ⟨f.nanCode, Fx.nv⟩
    else ⟨f.withSign neg f.maxCode, Fx.nv⟩
  | .int s => ⟨intCode (if neg then (intRange s).1 else (intRange s).2), Fx.nv⟩

/-- Conversion of a NaN (R32). -/
def cvtNan (dst : CvtFmt) (sig : Bool) : FloatRes :=
  match dst with
  | .float .e2m1 => ⟨0, Fx.nv⟩
  | .float f => f.nanRes sig
  | .int _ => ⟨0, Fx.nv⟩

/-- The conversion of a value to a format under a rounding (R29 to R32). -/
def cvtVal (dst : CvtFmt) (r : Rounding) (v : FloatVal) : FloatRes :=
  match v with
  | .nan sig => cvtNan dst sig
  | .inf neg => cvtInf dst r.mode neg
  | .num neg m e =>
    match dst with
    | .float f => roundNum f r neg m e
    | .int s => roundInt s r neg m e

/-- FCVT of a source register (R29, R130).  A pair of equal formats returns the source, a NaN excepted.  DEDUCED (log entry 46): this holds of an
infinity under a .sat rounding too, where R32's row would clamp it. -/
def fcvt (dst src : CvtFmt) (r : Rounding) (reg : Nat) : FloatRes :=
  let v := src.decode reg
  if dst = src then
    match src, v with
    | .float f, .nan sig => f.nanRes sig
    | .float f, _ => ⟨reg % 2 ^ f.width, Fx.none⟩
    | .int _, _ => ⟨reg, Fx.none⟩
  else cvtVal dst r v

/-! ## E3M5 scales (R22) -/

/-- The value of an E3M5 code as m × 2^e. -/
def e3m5 (c : Nat) : Nat × Int :=
  let e := c / 32 % 8
  let m := c % 32
  if e = 0 then (m, -7) else (32 + m, (e : Int) - 8)

/-- Whether 6 × E3M5(c) ≥ a for the magnitude a = m × 2^e. -/
def e3m5Covers (c : Nat) (m : Nat) (e : Int) : Bool :=
  let (sm, se) := e3m5 c
  let lo := min e se
  decide (m * 2 ^ (e - lo).toNat ≤ 6 * sm * 2 ^ (se - lo).toNat)

/-- The least E3M5 code c with 6 × E3M5(c) ≥ a, searched upward from `c` for `n` codes; 0xFF if there is none. -/
def e3m5Least (m : Nat) (e : Int) : Nat → Nat → Nat
  | 0, _ => 0xFF
  | n + 1, c => if e3m5Covers c m e then c else e3m5Least m e n (c + 1)

/-- A rational p / q × 2^e as a magnitude and an exponent that Round treats alike: the quotient to 64 more bits, with
one bit below it that says whether anything remains. -/
def ratNum (p q : Nat) (e : Int) : Nat × Int :=
  let n := p * 2 ^ 64 / q
  (2 * n + (if p * 2 ^ 64 % q = 0 then 0 else 1), e - 65)

/-! ## Classification and scaling (R136 to R138) -/

/-- The class bit of an f32 value (R137). -/
def fclass (a : Nat) : Nat :=
  match FloatFmt.f32.decode a with
  | .nan true => 256
  | .nan false => 512
  | .inf true => 1
  | .inf false => 128
  | .num neg m _ =>
    if m = 0 then (if neg then 8 else 16)
    else if m < 2 ^ 23 then (if neg then 4 else 32)
    else (if neg then 2 else 64)

/-- frnd: an integral f32 under a rounding (R136). -/
def frnd (r : Rounding) (a : Nat) : FloatRes :=
  match FloatFmt.f32.decode a with
  | .nan sig => FloatFmt.f32.nanRes sig
  | .inf _ => ⟨a, Fx.none⟩
  | .num neg m e =>
    if 0 ≤ e ∨ m = 0 then ⟨a, Fx.none⟩
    else
      let k := (-e).toNat
      let n := roundQuot r neg m k
      ⟨(roundNum .f32 (.plain .rne) neg n 0).code, if m % 2 ^ k = 0 then Fx.none else Fx.nx⟩

/-- fgetexp (R136, R138). -/
def fgetexp (a : Nat) : FloatRes :=
  match FloatFmt.f32.decode a with
  | .nan _ => ⟨0x7FFFFFFF, Fx.nv⟩
  | .inf _ => ⟨0x7FFFFFFF, Fx.nv⟩
  | .num _ m e => if m = 0 then ⟨0x80000000, Fx.nv⟩ else ⟨intCode ((Nat.log2 m : Int) + e), Fx.none⟩

/-- fscale: Round(a × 2^n) (R136).  Beyond ±1,000 every n gives the same rounding of a nonzero f32 value. -/
def fscale (r : Rounding) (a : Nat) (n : Int) : FloatRes :=
  match FloatFmt.f32.decode a with
  | .nan sig => FloatFmt.f32.nanRes sig
  | .inf _ => ⟨a, Fx.none⟩
  | .num neg m e => roundNum .f32 r neg m (e + max (-1000) (min 1000 n))

/-- fsat: a clamped to [+0, 1.0] (R136). -/
def fsat (a : Nat) : FloatRes :=
  match FloatFmt.f32.decode a with
  | .nan sig => ⟨0, if sig then Fx.nv else Fx.none⟩
  | .inf neg => ⟨if neg then 0 else 0x3F800000, Fx.none⟩
  | .num neg m _ => ⟨if neg || m == 0 then 0 else if a > 0x3F800000 then 0x3F800000 else a, Fx.none⟩

end Sys2Proof.Machine
end

