-- ==== Sys2Proof/Syntax.lean ====
section
/-! DEFINITION. The instruction set: one constructor of `Instr` for each row of spec/opcode_table.json.

The encoded rows carry their guard (R42, R43) and their fields, each as wide as the table gives it.  The rows
without an encoding are the device's own steps, the inputs that reach it and the host's commands; they carry what
the outside party supplies, and nothing where the step reads the state. -/

namespace Sys2Proof

/-- The guard of a 32-bit instruction: GN in bit 10 and GP in bits 9 to 7 (R42). -/
structure Guard where
  neg : Bool
  p : Fin 8
deriving DecidableEq, Repr

/-- The guard that executes in every lane: p0, which reads true. -/
def Guard.always : Guard := ⟨false, 0⟩

/-- A 32-byte ownership message (R411). -/
structure OwnMsg where
  type : Nat
  status : Nat
  tag : Nat
  srcPkg : Nat
  srcDie : Nat
  dstPkg : Nat
  dstDie : Nat
  obj : Nat
  version : Nat
  lease : Nat
  key : Nat
deriving DecidableEq, Repr

/-- A packet of Abaot Link (R418): its sender, an identifier that the answer carries back, the address, the operation
and the bytes that the kind of packet needs; `port` is the port on which it arrives or leaves. -/
structure Packet where
  port : Nat
  src : Nat
  dst : Nat
  id : Nat
  addr : Nat
  len : Nat
  op : Nat
  key : Nat
  obj : Nat
  count : Nat
  reason : Nat
  poison : Bool
  data : List (Option Byte)
deriving DecidableEq, Repr

/-- The kind of an access that arrives from another package (R425). -/
inductive InboundKind | read | write | far | signal
deriving DecidableEq, Repr

/-- An access from another machine (R410, R425). -/
structure Inbound where
  kind : InboundKind
  pkt : Packet
deriving DecidableEq, Repr

/-- The answer of the host's translation agent (R403): the host physical address of the page and the permissions. -/
structure AtsAnswer where
  hpa : Nat
  read : Bool
  write : Bool
deriving DecidableEq, Repr

/-- A link of the package: one of two CXL links or one of sixteen Abaot Link ports (R417, R426). -/
inductive LinkId | cxl (n : Nat) | port (n : Nat)
deriving DecidableEq, Repr

/-- Where a host write goes: device memory (R405), BAR 0 (R467) or the recovery window in BAR 2 (R464). -/
inductive HostTarget | device | bar0 | bar2
deriving DecidableEq, Repr

/-- The instructions, the device's own steps and the host's commands: the rows of spec/opcode_table.json. -/
inductive Instr where
  /-- ADD16 (R40). -/
  | add16 (s : Fin 32) (d : Fin 32)
  /-- SUB16 (R40). -/
  | sub16 (s : Fin 32) (d : Fin 32)
  /-- AND16 (R40). -/
  | and16 (s : Fin 32) (d : Fin 32)
  /-- OR16 (R40). -/
  | or16 (s : Fin 32) (d : Fin 32)
  /-- XOR16 (R40). -/
  | xor16 (s : Fin 32) (d : Fin 32)
  /-- SHL16 (R40). -/
  | shl16 (s : Fin 32) (d : Fin 32)
  /-- SHR16 (R40). -/
  | shr16 (s : Fin 32) (d : Fin 32)
  /-- SAR16 (R40). -/
  | sar16 (s : Fin 32) (d : Fin 32)
  /-- MOV16 (R40). -/
  | mov16 (s : Fin 32) (d : Fin 32)
  /-- MOVI5 (R40). -/
  | movi5 (i : Fin 32) (d : Fin 32)
  /-- FADD16 (R40). -/
  | fadd16 (s : Fin 32) (d : Fin 32)
  /-- FSUB16 (R40). -/
  | fsub16 (s : Fin 32) (d : Fin 32)
  /-- FMUL16 (R40). -/
  | fmul16 (s : Fin 32) (d : Fin 32)
  /-- FMIN16 (R40). -/
  | fmin16 (s : Fin 32) (d : Fin 32)
  /-- FMAX16 (R40). -/
  | fmax16 (s : Fin 32) (d : Fin 32)
  /-- ADDI5 (R40). -/
  | addi5 (i : Fin 32) (d : Fin 32)
  /-- GUARD_NOP (R44). -/
  | guardNop (z : Fin 2097152) (m : Fin 64)
  /-- ADD (R88). -/
  | add (g : Guard) (b : Fin 64) (a : Fin 64) (d : Fin 64)
  /-- SUB (R88). -/
  | sub (g : Guard) (b : Fin 64) (a : Fin 64) (d : Fin 64)
  /-- ADDC (R88). -/
  | addc (g : Guard) (b : Fin 64) (a : Fin 64) (d : Fin 64)
  /-- SUBB (R88). -/
  | subb (g : Guard) (b : Fin 64) (a : Fin 64) (d : Fin 64)
  /-- MIN_S32 (R88). -/
  | minS32 (g : Guard) (b : Fin 64) (a : Fin 64) (d : Fin 64)
  /-- MAX_S32 (R88). -/
  | maxS32 (g : Guard) (b : Fin 64) (a : Fin 64) (d : Fin 64)
  /-- MIN_N32 (R88). -/
  | minN32 (g : Guard) (b : Fin 64) (a : Fin 64) (d : Fin 64)
  /-- MAX_N32 (R88). -/
  | maxN32 (g : Guard) (b : Fin 64) (a : Fin 64) (d : Fin 64)
  /-- MUL (R89). -/
  | mul (g : Guard) (b : Fin 64) (a : Fin 64) (d : Fin 64)
  /-- MULHI_S32 (R89). -/
  | mulhiS32 (g : Guard) (b : Fin 64) (a : Fin 64) (d : Fin 64)
  /-- MULHI_N32 (R89). -/
  | mulhiN32 (g : Guard) (b : Fin 64) (a : Fin 64) (d : Fin 64)
  /-- MAD (R89). -/
  | mad (g : Guard) (b : Fin 64) (a : Fin 64) (d : Fin 64)
  /-- DIV_S32 (R90). -/
  | divS32 (g : Guard) (b : Fin 64) (a : Fin 64) (d : Fin 64)
  /-- DIV_N32 (R90). -/
  | divN32 (g : Guard) (b : Fin 64) (a : Fin 64) (d : Fin 64)
  /-- REM_S32 (R90). -/
  | remS32 (g : Guard) (b : Fin 64) (a : Fin 64) (d : Fin 64)
  /-- REM_N32 (R90). -/
  | remN32 (g : Guard) (b : Fin 64) (a : Fin 64) (d : Fin 64)
  /-- AND (R92). -/
  | and (g : Guard) (b : Fin 64) (a : Fin 64) (d : Fin 64)
  /-- OR (R92). -/
  | or (g : Guard) (b : Fin 64) (a : Fin 64) (d : Fin 64)
  /-- XOR (R92). -/
  | xor (g : Guard) (b : Fin 64) (a : Fin 64) (d : Fin 64)
  /-- ANDN (R92). -/
  | andn (g : Guard) (b : Fin 64) (a : Fin 64) (d : Fin 64)
  /-- ORN (R92). -/
  | orn (g : Guard) (b : Fin 64) (a : Fin 64) (d : Fin 64)
  /-- XNOR (R92). -/
  | xnor (g : Guard) (b : Fin 64) (a : Fin 64) (d : Fin 64)
  /-- NOT (R92). -/
  | not (g : Guard) (a : Fin 64) (d : Fin 64)
  /-- MOV (R92). -/
  | mov (g : Guard) (a : Fin 64) (d : Fin 64)
  /-- SHL (R93). -/
  | shl (g : Guard) (b : Fin 64) (a : Fin 64) (d : Fin 64)
  /-- SHR (R93). -/
  | shr (g : Guard) (b : Fin 64) (a : Fin 64) (d : Fin 64)
  /-- SAR (R93). -/
  | sar (g : Guard) (b : Fin 64) (a : Fin 64) (d : Fin 64)
  /-- ROTL (R93). -/
  | rotl (g : Guard) (b : Fin 64) (a : Fin 64) (d : Fin 64)
  /-- ROTR (R93). -/
  | rotr (g : Guard) (b : Fin 64) (a : Fin 64) (d : Fin 64)
  /-- BFE_N32 (R93). -/
  | bfeN32 (g : Guard) (b : Fin 64) (a : Fin 64) (d : Fin 64)
  /-- BFE_S32 (R93). -/
  | bfeS32 (g : Guard) (b : Fin 64) (a : Fin 64) (d : Fin 64)
  /-- BFI (R93). -/
  | bfi (g : Guard) (b : Fin 64) (a : Fin 64) (d : Fin 64)
  /-- POPC (R95). -/
  | popc (g : Guard) (a : Fin 64) (d : Fin 64)
  /-- CLZ (R95). -/
  | clz (g : Guard) (a : Fin 64) (d : Fin 64)
  /-- CTZ (R95). -/
  | ctz (g : Guard) (a : Fin 64) (d : Fin 64)
  /-- BREV (R95). -/
  | brev (g : Guard) (a : Fin 64) (d : Fin 64)
  /-- BPERM (R95). -/
  | bperm (g : Guard) (b : Fin 64) (a : Fin 64) (d : Fin 64)
  /-- ABS (R95). -/
  | abs (g : Guard) (a : Fin 64) (d : Fin 64)
  /-- NEG (R95). -/
  | neg (g : Guard) (a : Fin 64) (d : Fin 64)
  /-- SEXT (R95). -/
  | sext (g : Guard) (b : Fin 64) (a : Fin 64) (d : Fin 64)
  /-- ADDI (R91). -/
  | addi (g : Guard) (i : Fin 512) (a : Fin 64) (d : Fin 64)
  /-- SHL_IMM (R94). -/
  | shlImm (g : Guard) (i : Fin 32) (a : Fin 64) (d : Fin 64)
  /-- SHR_IMM (R94). -/
  | shrImm (g : Guard) (i : Fin 32) (a : Fin 64) (d : Fin 64)
  /-- SAR_IMM (R94). -/
  | sarImm (g : Guard) (i : Fin 32) (a : Fin 64) (d : Fin 64)
  /-- ROTL_IMM (R94). -/
  | rotlImm (g : Guard) (i : Fin 32) (a : Fin 64) (d : Fin 64)
  /-- MOVL (R96). -/
  | movl (g : Guard) (i : Fin 65536) (d : Fin 32)
  /-- MOVH (R96). -/
  | movh (g : Guard) (i : Fin 65536) (d : Fin 32)
  /-- ADD64 (R97). -/
  | add64 (g : Guard) (b : Fin 64) (a : Fin 64) (d : Fin 64)
  /-- SUB64 (R97). -/
  | sub64 (g : Guard) (b : Fin 64) (a : Fin 64) (d : Fin 64)
  /-- MUL64LO (R97). -/
  | mul64lo (g : Guard) (b : Fin 64) (a : Fin 64) (d : Fin 64)
  /-- MULW_S32 (R97). -/
  | mulwS32 (g : Guard) (b : Fin 64) (a : Fin 64) (d : Fin 64)
  /-- MULW_N32 (R97). -/
  | mulwN32 (g : Guard) (b : Fin 64) (a : Fin 64) (d : Fin 64)
  /-- SHL64 (R97). -/
  | shl64 (g : Guard) (b : Fin 64) (a : Fin 64) (d : Fin 64)
  /-- SHR64 (R97). -/
  | shr64 (g : Guard) (b : Fin 64) (a : Fin 64) (d : Fin 64)
  /-- SAR64 (R97). -/
  | sar64 (g : Guard) (b : Fin 64) (a : Fin 64) (d : Fin 64)
  /-- ICMP_EQ (R98). -/
  | icmpEq (g : Guard) (c : Fin 4) (b : Fin 64) (a : Fin 64) (d : Fin 8)
  /-- ICMP_NE (R98). -/
  | icmpNe (g : Guard) (c : Fin 4) (b : Fin 64) (a : Fin 64) (d : Fin 8)
  /-- ICMP_LT (R98). -/
  | icmpLt (g : Guard) (c : Fin 4) (s : Fin 2) (b : Fin 64) (a : Fin 64) (d : Fin 8)
  /-- ICMP_LE (R98). -/
  | icmpLe (g : Guard) (c : Fin 4) (s : Fin 2) (b : Fin 64) (a : Fin 64) (d : Fin 8)
  /-- ICMP_GT (R98). -/
  | icmpGt (g : Guard) (c : Fin 4) (s : Fin 2) (b : Fin 64) (a : Fin 64) (d : Fin 8)
  /-- ICMP_GE (R98). -/
  | icmpGe (g : Guard) (c : Fin 4) (s : Fin 2) (b : Fin 64) (a : Fin 64) (d : Fin 8)
  /-- FCMP_EQ (R99). -/
  | fcmpEq (g : Guard) (c : Fin 4) (u : Fin 2) (b : Fin 64) (a : Fin 64) (d : Fin 8)
  /-- FCMP_NE (R99). -/
  | fcmpNe (g : Guard) (c : Fin 4) (b : Fin 64) (a : Fin 64) (d : Fin 8)
  /-- FCMP_LT (R99). -/
  | fcmpLt (g : Guard) (c : Fin 4) (u : Fin 2) (b : Fin 64) (a : Fin 64) (d : Fin 8)
  /-- FCMP_LE (R99). -/
  | fcmpLe (g : Guard) (c : Fin 4) (u : Fin 2) (b : Fin 64) (a : Fin 64) (d : Fin 8)
  /-- FCMP_GT (R99). -/
  | fcmpGt (g : Guard) (c : Fin 4) (u : Fin 2) (b : Fin 64) (a : Fin 64) (d : Fin 8)
  /-- FCMP_GE (R99). -/
  | fcmpGe (g : Guard) (c : Fin 4) (u : Fin 2) (b : Fin 64) (a : Fin 64) (d : Fin 8)
  /-- PAND (R100). -/
  | pand (g : Guard) (b : Fin 64) (a : Fin 64) (d : Fin 64)
  /-- POR (R100). -/
  | por (g : Guard) (b : Fin 64) (a : Fin 64) (d : Fin 64)
  /-- PXOR (R100). -/
  | pxor (g : Guard) (b : Fin 64) (a : Fin 64) (d : Fin 64)
  /-- PANDN (R100). -/
  | pandn (g : Guard) (b : Fin 64) (a : Fin 64) (d : Fin 64)
  /-- PNOT (R100). -/
  | pnot (g : Guard) (a : Fin 64) (d : Fin 64)
  /-- P2G (R100). -/
  | p2g (g : Guard) (d : Fin 64)
  /-- G2P (R100). -/
  | g2p (g : Guard) (a : Fin 64)
  /-- PSET (R100). -/
  | pset (g : Guard) (a : Fin 64) (d : Fin 64)
  /-- VOTE_ANY_P (R110). -/
  | voteAnyP (g : Guard) (b : Fin 64) (a : Fin 64) (d : Fin 64)
  /-- VOTE_ALL_P (R110). -/
  | voteAllP (g : Guard) (b : Fin 64) (a : Fin 64) (d : Fin 64)
  /-- VOTE_COUNT_P (R110). -/
  | voteCountP (g : Guard) (b : Fin 64) (a : Fin 64) (d : Fin 64)
  /-- VOTE_BALLOT_P (R110). -/
  | voteBallotP (g : Guard) (b : Fin 64) (a : Fin 64) (d : Fin 64)
  /-- VOTE_ANY_FX (R110). -/
  | voteAnyFx (g : Guard) (b : Fin 64) (a : Fin 64) (d : Fin 64)
  /-- VOTE_ALL_FX (R110). -/
  | voteAllFx (g : Guard) (b : Fin 64) (a : Fin 64) (d : Fin 64)
  /-- VOTE_COUNT_FX (R110). -/
  | voteCountFx (g : Guard) (b : Fin 64) (a : Fin 64) (d : Fin 64)
  /-- VOTE_BALLOT_FX (R110). -/
  | voteBallotFx (g : Guard) (b : Fin 64) (a : Fin 64) (d : Fin 64)
  /-- FXRD (R101). -/
  | fxrd (g : Guard) (d : Fin 64)
  /-- FXCLR (R101). -/
  | fxclr (g : Guard) (b : Fin 64)
  /-- FXOR (R101). -/
  | fxor (g : Guard) (a : Fin 64)
  /-- FXTEST (R101). -/
  | fxtest (g : Guard) (b : Fin 64) (d : Fin 64)
  /-- SHFL_IDX (R111). -/
  | shflIdx (g : Guard) (m : Fin 4) (b : Fin 32) (a : Fin 64) (d : Fin 64)
  /-- SHFL_UP (R111). -/
  | shflUp (g : Guard) (m : Fin 4) (b : Fin 32) (a : Fin 64) (d : Fin 64)
  /-- SHFL_DOWN (R111). -/
  | shflDown (g : Guard) (m : Fin 4) (b : Fin 32) (a : Fin 64) (d : Fin 64)
  /-- SHFL_XOR (R111). -/
  | shflXor (g : Guard) (m : Fin 4) (b : Fin 32) (a : Fin 64) (d : Fin 64)
  /-- XRED_ADD (R112). -/
  | xredAdd (g : Guard) (m : Fin 4) (b : Fin 32) (a : Fin 64) (d : Fin 64)
  /-- XRED_MIN (R112). -/
  | xredMin (g : Guard) (m : Fin 4) (b : Fin 32) (a : Fin 64) (d : Fin 64)
  /-- XRED_MAX (R112). -/
  | xredMax (g : Guard) (m : Fin 4) (b : Fin 32) (a : Fin 64) (d : Fin 64)
  /-- XRED_LOGIC (R112). -/
  | xredLogic (g : Guard) (m : Fin 4) (b : Fin 32) (a : Fin 64) (d : Fin 64)
  /-- XSCAN_ADD_INC (R113). -/
  | xscanAddInc (g : Guard) (m : Fin 4) (b : Fin 32) (a : Fin 64) (d : Fin 64)
  /-- XSCAN_ADD_EXC (R113). -/
  | xscanAddExc (g : Guard) (m : Fin 4) (b : Fin 32) (a : Fin 64) (d : Fin 64)
  /-- XSCAN_MAX_INC (R113). -/
  | xscanMaxInc (g : Guard) (m : Fin 4) (b : Fin 32) (a : Fin 64) (d : Fin 64)
  /-- XSCAN_MAX_EXC (R113). -/
  | xscanMaxExc (g : Guard) (m : Fin 4) (b : Fin 32) (a : Fin 64) (d : Fin 64)
  /-- SADD (R104). -/
  | sadd (g : Guard) (b : Fin 64) (a : Fin 64) (d : Fin 64)
  /-- SSUB (R104). -/
  | ssub (g : Guard) (b : Fin 64) (a : Fin 64) (d : Fin 64)
  /-- SAND (R104). -/
  | sand (g : Guard) (b : Fin 64) (a : Fin 64) (d : Fin 64)
  /-- SOR (R104). -/
  | sor (g : Guard) (b : Fin 64) (a : Fin 64) (d : Fin 64)
  /-- SSHL (R104). -/
  | sshl (g : Guard) (b : Fin 64) (a : Fin 64) (d : Fin 64)
  /-- SSHR (R104). -/
  | sshr (g : Guard) (b : Fin 64) (a : Fin 64) (d : Fin 64)
  /-- S2G (R104). -/
  | s2g (g : Guard) (a : Fin 64) (d : Fin 64)
  /-- G2S (R104). -/
  | g2s (g : Guard) (a : Fin 64) (d : Fin 64)
  /-- SV (R105). -/
  | sv (g : Guard) (a : Fin 64) (d : Fin 64)
  /-- MSET (R102). -/
  | mset (g : Guard) (a : Fin 64) (d : Fin 64)
  /-- MGET (R102). -/
  | mget (g : Guard) (a : Fin 64) (d : Fin 64)
  /-- MAND (R102). -/
  | mand (g : Guard) (b : Fin 64) (a : Fin 64) (d : Fin 64)
  /-- MOR (R102). -/
  | mor (g : Guard) (b : Fin 64) (a : Fin 64) (d : Fin 64)
  /-- MFROMP (R102). -/
  | mfromp (g : Guard) (a : Fin 64) (d : Fin 64)
  /-- FADD (R124). -/
  | fadd (g : Guard) (b : Fin 64) (a : Fin 64) (d : Fin 64)
  /-- FSUB (R124). -/
  | fsub (g : Guard) (b : Fin 64) (a : Fin 64) (d : Fin 64)
  /-- FMUL (R124). -/
  | fmul (g : Guard) (b : Fin 64) (a : Fin 64) (d : Fin 64)
  /-- FFMA (R124). -/
  | ffma (g : Guard) (b : Fin 64) (a : Fin 64) (d : Fin 64)
  /-- FMIN (R125). -/
  | fmin (g : Guard) (b : Fin 64) (a : Fin 64) (d : Fin 64)
  /-- FMAX (R125). -/
  | fmax (g : Guard) (b : Fin 64) (a : Fin 64) (d : Fin 64)
  /-- FABS (R124). -/
  | fabs (g : Guard) (a : Fin 64) (d : Fin 64)
  /-- FNEG (R124). -/
  | fneg (g : Guard) (a : Fin 64) (d : Fin 64)
  /-- FADD_BF16X2 (R126). -/
  | faddBf16x2 (g : Guard) (b : Fin 64) (a : Fin 64) (d : Fin 64)
  /-- FMUL_BF16X2 (R126). -/
  | fmulBf16x2 (g : Guard) (b : Fin 64) (a : Fin 64) (d : Fin 64)
  /-- FFMA_BF16X2 (R126). -/
  | ffmaBf16x2 (g : Guard) (b : Fin 64) (a : Fin 64) (d : Fin 64)
  /-- FADD_F16X2 (R126). -/
  | faddF16x2 (g : Guard) (b : Fin 64) (a : Fin 64) (d : Fin 64)
  /-- FMUL_F16X2 (R126). -/
  | fmulF16x2 (g : Guard) (b : Fin 64) (a : Fin 64) (d : Fin 64)
  /-- FFMA_F16X2 (R126). -/
  | ffmaF16x2 (g : Guard) (b : Fin 64) (a : Fin 64) (d : Fin 64)
  /-- FMAX_BF16X2 (R126). -/
  | fmaxBf16x2 (g : Guard) (b : Fin 64) (a : Fin 64) (d : Fin 64)
  /-- FMIN_BF16X2 (R126). -/
  | fminBf16x2 (g : Guard) (b : Fin 64) (a : Fin 64) (d : Fin 64)
  /-- DOT2_BF16 (R127). -/
  | dot2Bf16 (g : Guard) (b : Fin 64) (a : Fin 64) (d : Fin 64)
  /-- DOT2_F16 (R127). -/
  | dot2F16 (g : Guard) (b : Fin 64) (a : Fin 64) (d : Fin 64)
  /-- DOT4_E4M3 (R127). -/
  | dot4E4m3 (g : Guard) (b : Fin 64) (a : Fin 64) (d : Fin 64)
  /-- DOT4_E5M2 (R127). -/
  | dot4E5m2 (g : Guard) (b : Fin 64) (a : Fin 64) (d : Fin 64)
  /-- DOT8_E2M1 (R127). -/
  | dot8E2m1 (g : Guard) (b : Fin 64) (a : Fin 64) (d : Fin 64)
  /-- IDOT4_S8 (R127). -/
  | idot4S8 (g : Guard) (b : Fin 64) (a : Fin 64) (d : Fin 64)
  /-- IDOT4_N8 (R127). -/
  | idot4N8 (g : Guard) (b : Fin 64) (a : Fin 64) (d : Fin 64)
  /-- RCP (R128). -/
  | rcp (g : Guard) (a : Fin 64) (d : Fin 64)
  /-- RSQ (R128). -/
  | rsq (g : Guard) (a : Fin 64) (d : Fin 64)
  /-- SQRT (R128). -/
  | sqrt (g : Guard) (a : Fin 64) (d : Fin 64)
  /-- EXP2 (R128). -/
  | exp2 (g : Guard) (a : Fin 64) (d : Fin 64)
  /-- LOG2 (R128). -/
  | log2 (g : Guard) (a : Fin 64) (d : Fin 64)
  /-- SIN (R128). -/
  | sin (g : Guard) (a : Fin 64) (d : Fin 64)
  /-- COS (R128). -/
  | cos (g : Guard) (a : Fin 64) (d : Fin 64)
  /-- TANH (R128). -/
  | tanh (g : Guard) (a : Fin 64) (d : Fin 64)
  /-- FCVT (R130). -/
  | fcvt (g : Guard) (r : Fin 8) (e : Fin 8) (s : Fin 8) (a : Fin 64) (d : Fin 64)
  /-- QENC_E2M1 (R133). -/
  | qencE2m1 (g : Guard) (a : Fin 64) (d : Fin 64)
  /-- QDEC_E2M1 (R134). -/
  | qdecE2m1 (g : Guard) (b : Fin 64) (a : Fin 64) (d : Fin 64)
  /-- PK2_BF16 (R135). -/
  | pk2Bf16 (g : Guard) (a : Fin 64) (d : Fin 64)
  /-- PK2_F16 (R135). -/
  | pk2F16 (g : Guard) (a : Fin 64) (d : Fin 64)
  /-- PK4_E4M3 (R135). -/
  | pk4E4m3 (g : Guard) (a : Fin 64) (d : Fin 64)
  /-- PK4_E5M2 (R135). -/
  | pk4E5m2 (g : Guard) (a : Fin 64) (d : Fin 64)
  /-- UNPK_E4M3 (R135). -/
  | unpkE4m3 (g : Guard) (a : Fin 64) (d : Fin 64)
  /-- UNPK_E5M2 (R135). -/
  | unpkE5m2 (g : Guard) (a : Fin 64) (d : Fin 64)
  /-- FCLASS (R137). -/
  | fclass (g : Guard) (a : Fin 64) (d : Fin 64)
  /-- FRND (R136). -/
  | frnd (g : Guard) (a : Fin 64) (d : Fin 64)
  /-- FGETEXP (R138). -/
  | fgetexp (g : Guard) (a : Fin 64) (d : Fin 64)
  /-- FSCALE (R136). -/
  | fscale (g : Guard) (b : Fin 64) (a : Fin 64) (d : Fin 64)
  /-- FCOPYSIGN (R136). -/
  | fcopysign (g : Guard) (b : Fin 64) (a : Fin 64) (d : Fin 64)
  /-- FSAT (R136). -/
  | fsat (g : Guard) (a : Fin 64) (d : Fin 64)
  /-- LD (R145). -/
  | ld (g : Guard) (z : Fin 8) (s : Fin 2) (q : Fin 2) (x : Fin 64) (h : Fin 16) (d : Fin 64)
  /-- LDI (R145). -/
  | ldi (g : Guard) (z : Fin 8) (i : Fin 256) (h : Fin 16) (d : Fin 64)
  /-- LDV (R147). -/
  | ldv (g : Guard) (z : Fin 8) (v : Fin 2) (x : Fin 64) (h : Fin 16) (d : Fin 64)
  /-- ST (R145). -/
  | st (g : Guard) (z : Fin 8) (r : Fin 2) (x : Fin 64) (h : Fin 16) (d : Fin 64)
  /-- STI (R145). -/
  | sti (g : Guard) (z : Fin 8) (i : Fin 256) (h : Fin 16) (d : Fin 64)
  /-- PREF (R148). -/
  | pref (g : Guard) (x : Fin 64) (h : Fin 16)
  /-- TOUCH (R148). -/
  | touch (g : Guard) (x : Fin 64) (h : Fin 16)
  /-- PROBE (R148). -/
  | probe (g : Guard) (x : Fin 64) (h : Fin 16) (d : Fin 64)
  /-- FAR_ADD_S32 (R149). -/
  | farAddS32 (g : Guard) (t : Fin 2) (x : Fin 64) (h : Fin 16) (d : Fin 64)
  /-- FAR_ADD_F32 (R149). -/
  | farAddF32 (g : Guard) (t : Fin 2) (x : Fin 64) (h : Fin 16) (d : Fin 64)
  /-- FAR_ADD_BF16X2 (R149). -/
  | farAddBf16x2 (g : Guard) (t : Fin 2) (x : Fin 64) (h : Fin 16) (d : Fin 64)
  /-- FAR_MIN_S32 (R149). -/
  | farMinS32 (g : Guard) (t : Fin 2) (x : Fin 64) (h : Fin 16) (d : Fin 64)
  /-- FAR_MAX_S32 (R149). -/
  | farMaxS32 (g : Guard) (t : Fin 2) (x : Fin 64) (h : Fin 16) (d : Fin 64)
  /-- FAR_MIN_N32 (R149). -/
  | farMinN32 (g : Guard) (t : Fin 2) (x : Fin 64) (h : Fin 16) (d : Fin 64)
  /-- FAR_MAX_N32 (R149). -/
  | farMaxN32 (g : Guard) (t : Fin 2) (x : Fin 64) (h : Fin 16) (d : Fin 64)
  /-- FAR_MIN_F32 (R149). -/
  | farMinF32 (g : Guard) (t : Fin 2) (x : Fin 64) (h : Fin 16) (d : Fin 64)
  /-- FAR_MAX_F32 (R149). -/
  | farMaxF32 (g : Guard) (t : Fin 2) (x : Fin 64) (h : Fin 16) (d : Fin 64)
  /-- FAR_AND (R149). -/
  | farAnd (g : Guard) (t : Fin 2) (x : Fin 64) (h : Fin 16) (d : Fin 64)
  /-- FAR_OR (R149). -/
  | farOr (g : Guard) (t : Fin 2) (x : Fin 64) (h : Fin 16) (d : Fin 64)
  /-- FAR_XOR (R149). -/
  | farXor (g : Guard) (t : Fin 2) (x : Fin 64) (h : Fin 16) (d : Fin 64)
  /-- FAR_EXCH (R149). -/
  | farExch (g : Guard) (t : Fin 2) (x : Fin 64) (h : Fin 16) (d : Fin 64)
  /-- FAR_CAS (R149). -/
  | farCas (g : Guard) (t : Fin 2) (x : Fin 64) (h : Fin 16) (d : Fin 64)
  /-- FAR_INC_WRAP (R149). -/
  | farIncWrap (g : Guard) (t : Fin 2) (x : Fin 64) (h : Fin 16) (d : Fin 64)
  /-- FAR_DEC_WRAP (R149). -/
  | farDecWrap (g : Guard) (t : Fin 2) (x : Fin 64) (h : Fin 16) (d : Fin 64)
  /-- FARO_ADD_S32 (R151). -/
  | faroAddS32 (g : Guard) (w : Fin 4) (x : Fin 64) (h : Fin 16) (d : Fin 64)
  /-- FARO_EXCH_B32 (R151). -/
  | faroExchB32 (g : Guard) (w : Fin 4) (x : Fin 64) (h : Fin 16) (d : Fin 64)
  /-- FARO_CAS_B32 (R151). -/
  | faroCasB32 (g : Guard) (w : Fin 4) (x : Fin 64) (h : Fin 16) (d : Fin 64)
  /-- FARO_ADD_N64 (R151). -/
  | faroAddN64 (g : Guard) (w : Fin 4) (x : Fin 64) (h : Fin 16) (d : Fin 64)
  /-- FARO_EXCH_B64 (R151). -/
  | faroExchB64 (g : Guard) (w : Fin 4) (x : Fin 64) (h : Fin 16) (d : Fin 64)
  /-- FARO_CAS_B64 (R151). -/
  | faroCasB64 (g : Guard) (w : Fin 4) (x : Fin 64) (h : Fin 16) (d : Fin 64)
  /-- FARO_MIN_N64 (R151). -/
  | faroMinN64 (g : Guard) (w : Fin 4) (x : Fin 64) (h : Fin 16) (d : Fin 64)
  /-- FARO_MAX_N64 (R151). -/
  | faroMaxN64 (g : Guard) (w : Fin 4) (x : Fin 64) (h : Fin 16) (d : Fin 64)
  /-- SIG_ADD (R153). -/
  | sigAdd (g : Guard) (x : Fin 64) (h : Fin 16) (d : Fin 64)
  /-- SIG_MAX (R153). -/
  | sigMax (g : Guard) (x : Fin 64) (h : Fin 16) (d : Fin 64)
  /-- SIG_WAIT_GE (R153). -/
  | sigWaitGe (g : Guard) (x : Fin 64) (h : Fin 16) (d : Fin 64)
  /-- SIG_WAIT_EQ (R153). -/
  | sigWaitEq (g : Guard) (x : Fin 64) (h : Fin 16) (d : Fin 64)
  /-- SIG_TEST (R153). -/
  | sigTest (g : Guard) (x : Fin 64) (h : Fin 16) (d : Fin 64)
  /-- BORROW_X (R156). -/
  | borrowX (g : Guard) (x : Fin 64) (s : Fin 16) (h : Fin 16)
  /-- BORROW_S (R156). -/
  | borrowS (g : Guard) (x : Fin 64) (s : Fin 16) (h : Fin 16)
  /-- BORROW_X_TRY (R156). -/
  | borrowXTry (g : Guard) (k : Fin 8) (x : Fin 64) (s : Fin 16) (h : Fin 16)
  /-- BORROW_S_TRY (R156). -/
  | borrowSTry (g : Guard) (k : Fin 8) (x : Fin 64) (s : Fin 16) (h : Fin 16)
  /-- REBORROW_X (R157). -/
  | reborrowX (g : Guard) (x : Fin 64) (s : Fin 16) (h : Fin 16)
  /-- REBORROW_S (R157). -/
  | reborrowS (g : Guard) (x : Fin 64) (s : Fin 16) (h : Fin 16)
  /-- SPLIT2 (R158). -/
  | split2 (g : Guard) (x : Fin 64) (s : Fin 16) (h : Fin 16)
  /-- SPLIT4 (R158). -/
  | split4 (g : Guard) (x : Fin 64) (s : Fin 16) (h : Fin 16)
  /-- SPLIT8 (R158). -/
  | split8 (g : Guard) (x : Fin 64) (s : Fin 16) (h : Fin 16)
  /-- JOIN (R158). -/
  | join (g : Guard) (s : Fin 16)
  /-- GIVE (R159). -/
  | give (g : Guard) (x : Fin 64) (s : Fin 16)
  /-- FREEZE (R158). -/
  | freeze (g : Guard) (s : Fin 16)
  /-- THAW (R158). -/
  | thaw (g : Guard) (s : Fin 16)
  /-- RETURN_BLK (R160). -/
  | returnBlk (g : Guard) (s : Fin 16)
  /-- RETURN_CORE (R160). -/
  | returnCore (g : Guard) (s : Fin 16)
  /-- RETURN_DIE (R160). -/
  | returnDie (g : Guard) (s : Fin 16)
  /-- RETURN_DEV (R160). -/
  | returnDev (g : Guard) (s : Fin 16)
  /-- RETURN_SYS (R160). -/
  | returnSys (g : Guard) (s : Fin 16)
  /-- BSTAT (R160). -/
  | bstat (g : Guard) (x : Fin 64) (s : Fin 16)
  /-- BDROP (R160). -/
  | bdrop (g : Guard) (s : Fin 16)
  /-- FENCE_ACQ (R161). -/
  | fenceAcq (g : Guard) (b : Fin 64) (a : Fin 64)
  /-- FENCE_REL (R161). -/
  | fenceRel (g : Guard) (b : Fin 64) (a : Fin 64)
  /-- FENCE_ACQREL (R161). -/
  | fenceAcqrel (g : Guard) (b : Fin 64) (a : Fin 64)
  /-- DFLUSH (R162). -/
  | dflush (g : Guard)
  /-- RCV (R163). -/
  | rcv (g : Guard) (a : Fin 64)
  /-- BAR_SYNC (R163). -/
  | barSync (g : Guard) (b : Fin 64) (a : Fin 64)
  /-- BAR_ARRIVE (R163). -/
  | barArrive (g : Guard) (b : Fin 64) (a : Fin 64)
  /-- BAR_WAIT (R163). -/
  | barWait (g : Guard) (b : Fin 64) (a : Fin 64)
  /-- COPY (R164). -/
  | copy (g : Guard) (k : Fin 8) (x : Fin 64) (s : Fin 16) (h : Fin 16)
  /-- COPY_SHADOW (R166). -/
  | copyShadow (g : Guard) (k : Fin 8) (x : Fin 64) (s : Fin 16) (h : Fin 16)
  /-- PUBLISH (R166). -/
  | publish (g : Guard) (h : Fin 16)
  /-- CPWAIT (R167). -/
  | cpwait (g : Guard) (x : Fin 64)
  /-- CPSTAT (R167). -/
  | cpstat (g : Guard) (x : Fin 64) (h : Fin 16)
  /-- CPCANCEL (R167). -/
  | cpcancel (g : Guard) (h : Fin 16)
  /-- MBPOST (R168). -/
  | mbpost (g : Guard) (b : Fin 64) (a : Fin 64)
  /-- SPAWN (R339). -/
  | spawn (g : Guard) (a : Fin 64) (d : Fin 64)
  /-- HQPOST (R168). -/
  | hqpost (g : Guard) (b : Fin 64) (a : Fin 64)
  /-- HQTAKE (R168). -/
  | hqtake (g : Guard) (a : Fin 64) (d : Fin 64)
  /-- HQPEEK (R168). -/
  | hqpeek (g : Guard) (a : Fin 64) (d : Fin 64)
  /-- SLEEP_UNTIL (R169). -/
  | sleepUntil (g : Guard) (a : Fin 64)
  /-- YIELD (R169). -/
  | yield (g : Guard)
  /-- DADD (R179). -/
  | dadd (g : Guard) (b : Fin 8) (a : Fin 8) (d : Fin 8)
  /-- DSUB (R179). -/
  | dsub (g : Guard) (b : Fin 8) (a : Fin 8) (d : Fin 8)
  /-- DMUL (R179). -/
  | dmul (g : Guard) (b : Fin 8) (a : Fin 8) (d : Fin 8)
  /-- DDIV (R179). -/
  | ddiv (g : Guard) (b : Fin 8) (a : Fin 8) (d : Fin 8)
  /-- DMIN (R179). -/
  | dmin (g : Guard) (b : Fin 8) (a : Fin 8) (d : Fin 8)
  /-- DMAX (R179). -/
  | dmax (g : Guard) (b : Fin 8) (a : Fin 8) (d : Fin 8)
  /-- DMIX (R180). -/
  | dmix (g : Guard) (x : Fin 64) (b : Fin 8) (a : Fin 8) (d : Fin 8)
  /-- DSCALE (R181). -/
  | dscale (g : Guard) (x : Fin 64) (a : Fin 8) (d : Fin 8)
  /-- DSHIFT (R181). -/
  | dshift (g : Guard) (x : Fin 64) (a : Fin 8) (d : Fin 8)
  /-- DMAP (R181). -/
  | dmap (g : Guard) (f : Fin 8) (a : Fin 8) (d : Fin 8)
  /-- DNEG (R181). -/
  | dneg (g : Guard) (a : Fin 8) (d : Fin 8)
  /-- DMOV (R181). -/
  | dmov (g : Guard) (a : Fin 8) (d : Fin 8)
  /-- DCOND (R182). -/
  | dcond (g : Guard) (f : Fin 8) (x : Fin 64) (a : Fin 8) (d : Fin 8)
  /-- DTAG (R183). -/
  | dtag (g : Guard) (f : Fin 2) (x : Fin 64) (a : Fin 8) (d : Fin 8)
  /-- DNORM (R184). -/
  | dnorm (g : Guard) (a : Fin 8) (d : Fin 8)
  /-- DSRC (R185). -/
  | dsrc (g : Guard) (x : Fin 64) (d : Fin 8)
  /-- DPUSH (R185). -/
  | dpush (g : Guard) (x : Fin 64) (d : Fin 8)
  /-- DPUSHW (R185). -/
  | dpushw (g : Guard) (x : Fin 64) (d : Fin 8)
  /-- DLD (R186). -/
  | dld (g : Guard) (k : Fin 2) (x : Fin 64) (h : Fin 8) (d : Fin 8)
  /-- DST (R186). -/
  | dst (g : Guard) (k : Fin 2) (x : Fin 64) (h : Fin 8) (d : Fin 8)
  /-- DSEL_V (R187). -/
  | dselV (g : Guard) (k : Fin 8) (x : Fin 64) (a : Fin 8)
  /-- DSEL_W (R187). -/
  | dselW (g : Guard) (k : Fin 8) (x : Fin 64) (a : Fin 8)
  /-- DMASS (R187). -/
  | dmass (g : Guard) (x : Fin 64) (a : Fin 8)
  /-- DMOM1 (R188). -/
  | dmom1 (g : Guard) (x : Fin 64) (a : Fin 8)
  /-- DMOM2C (R188). -/
  | dmom2c (g : Guard) (x : Fin 64) (a : Fin 8)
  /-- DMOM3C (R188). -/
  | dmom3c (g : Guard) (x : Fin 64) (a : Fin 8)
  /-- DMOM4C (R188). -/
  | dmom4c (g : Guard) (x : Fin 64) (a : Fin 8)
  /-- DQNT (R189). -/
  | dqnt (g : Guard) (x : Fin 64) (a : Fin 8)
  /-- DCDF (R189). -/
  | dcdf (g : Guard) (x : Fin 64) (a : Fin 8)
  /-- DLO (R189). -/
  | dlo (g : Guard) (x : Fin 64) (a : Fin 8)
  /-- DHI (R189). -/
  | dhi (g : Guard) (x : Fin 64) (a : Fin 8)
  /-- BRA (R115). -/
  | bra (g : Guard) (o : Fin 2097152)
  /-- CALL (R116). -/
  | call (g : Guard) (o : Fin 2097152)
  /-- JMP (R117). -/
  | jmp (g : Guard) (a : Fin 64)
  /-- RET (R117). -/
  | ret (g : Guard) (a : Fin 64)
  /-- EXIT (R118). -/
  | exit (g : Guard)
  /-- RGN (R311). -/
  | rgn (g : Guard)
  /-- BRK (R119). -/
  | brk (g : Guard) (b : Fin 64)
  /-- TRAP (R119). -/
  | trap (g : Guard) (b : Fin 64)
  /-- NOP (R117). -/
  | nop (g : Guard)
  /-- HALT (R433). -/
  | halt (g : Guard)
  /-- PARK (R120). -/
  | park (g : Guard) (o : Fin 2097152)
  /-- TSET (R209). -/
  | tset (g : Guard) (b : Fin 64) (a : Fin 64)
  /-- TGET (R209). -/
  | tget (g : Guard) (a : Fin 64) (d : Fin 64)
  /-- TBIND (R209). -/
  | tbind (g : Guard) (b : Fin 64) (a : Fin 64)
  /-- TDROP (R209). -/
  | tdrop (g : Guard) (a : Fin 64)
  /-- TCHK (R211). -/
  | tchk (g : Guard) (a : Fin 64) (d : Fin 64)
  /-- LBRW (R213). -/
  | lbrw (g : Guard) (a : Fin 64) (d : Fin 64)
  /-- LPREF (R216). -/
  | lpref (g : Guard) (a : Fin 64)
  /-- LSTAT (R216). -/
  | lstat (g : Guard) (a : Fin 64) (d : Fin 64)
  /-- LRET (R216). -/
  | lret (g : Guard) (b : Fin 64) (a : Fin 64)
  /-- LRETRY (R215). -/
  | lretry (g : Guard) (a : Fin 64) (d : Fin 64)
  /-- LPIN (R216). -/
  | lpin (g : Guard) (a : Fin 64)
  /-- LUNPIN (R216). -/
  | lunpin (g : Guard) (a : Fin 64)
  /-- MCFG (R199). -/
  | mcfg (g : Guard) (b : Fin 64) (a : Fin 64)
  /-- MCOMMIT (R199). -/
  | mcommit (g : Guard)
  /-- MMA (R200). -/
  | mma (g : Guard) (b : Fin 64) (a : Fin 64)
  /-- MZERO (R202). -/
  | mzero (g : Guard) (a : Fin 64)
  /-- MFEED (R202). -/
  | mfeed (g : Guard) (a : Fin 64)
  /-- MDRAIN (R203). -/
  | mdrain (g : Guard) (a : Fin 64)
  /-- MWAIT (R204). -/
  | mwait (g : Guard) (a : Fin 64)
  /-- MCHAIN (R204). -/
  | mchain (g : Guard) (a : Fin 64)
  /-- MFSR (R220). -/
  | mfsr (g : Guard) (r : Fin 4096) (d : Fin 64)
  /-- MTSR (R220). -/
  | mtsr (g : Guard) (r : Fin 4096) (d : Fin 64)
  /-- TRET (R221). -/
  | tret (g : Guard)
  /-- TRET_SKIP (R221). -/
  | tretSkip (g : Guard)
  /-- HALT_CTX (R222). -/
  | haltCtx (g : Guard)
  /-- ECALL (R222). -/
  | ecall (g : Guard) (s : Fin 4096) (d : Fin 64)
  /-- DBGMARK (R222). -/
  | dbgmark (g : Guard) (s : Fin 4096) (d : Fin 64)
  /-- TLBI (R223). -/
  | tlbi (g : Guard) (b : Fin 64) (a : Fin 64)
  /-- L2WB (R223). -/
  | l2wb (g : Guard) (b : Fin 64) (a : Fin 64) (d : Fin 64)
  /-- L2CFG (R460). -/
  | l2cfg (g : Guard) (b : Fin 64) (a : Fin 64)
  /-- OWALK (R223). -/
  | owalk (g : Guard) (b : Fin 64) (a : Fin 64) (d : Fin 64)
  /-- BIAS (R406). -/
  | bias (g : Guard) (b : Fin 64) (a : Fin 64)
  /-- MIGR (R407). -/
  | migr (g : Guard) (b : Fin 64) (a : Fin 64)
  /-- INVL1 (R223). -/
  | invl1 (g : Guard) (b : Fin 64) (a : Fin 64)
  /-- PCNT (R439). -/
  | pcnt (g : Guard) (b : Fin 64) (a : Fin 64) (d : Fin 64)
  /-- COLD_RESET (R5). -/
  | coldReset
  /-- WATCHDOG_TIMEOUT (R466). -/
  | watchdogTimeout
  /-- WATCHDOG_KICK (R466). -/
  | watchdogKick
  /-- THROTTLE_EVALUATION (R475). -/
  | throttleEvaluation
  /-- THROTTLE_WINDOW_START (R474). -/
  | throttleWindowStart
  /-- LINK_RECEIVE (R6). -/
  | linkReceive
  /-- ISSUE_ARBITRATION (R69). -/
  | issueArbitration
  /-- ICACHE_LINE_ARRIVE (R71). -/
  | icacheLineArrive
  /-- REGISTER_WRITE_COMPLETE (R74). -/
  | registerWriteComplete
  /-- MESH_REQUEST_ARRIVE (R476). -/
  | meshRequestArrive
  /-- HOME_SERVE (R476). -/
  | homeServe
  /-- DRAM_SUPPLY (R476). -/
  | dramSupply
  /-- VALUE_RETURN (R476). -/
  | valueReturn
  /-- REBUILD_WORD (R454). -/
  | rebuildWord
  /-- ROW_SPARE_COPY (R456). -/
  | rowSpareCopy
  /-- STORE_BEAT_DRAIN (R308). -/
  | storeBeatDrain
  /-- CROSSLANE_DEADLOCK (R108). -/
  | crosslaneDeadlock
  /-- BORROW_REQUEST_ARRIVE (R256). -/
  | borrowRequestArrive
  /-- BORROW_GRANT (R255). -/
  | borrowGrant
  /-- BORROW_ANSWER (R154). -/
  | borrowAnswer
  /-- WRITEBACK_COMPLETE (R264). -/
  | writebackComplete
  /-- WRITEBACK_FAIL (R322). -/
  | writebackFail
  /-- SLEEP_UNTIL_WAKE (R169). -/
  | sleepUntilWake
  /-- CPWAIT_WAKE (R167). -/
  | cpwaitWake
  /-- YIELD_EXPIRE (R169). -/
  | yieldExpire
  /-- PUBLISH_PERFORM (R269). -/
  | publishPerform
  /-- COPY_COMPLETE (R165). -/
  | copyComplete
  /-- HQ_ENTRY_ENTER (R168). -/
  | hqEntryEnter
  /-- MAILBOX_RUN_START (R353). -/
  | mailboxRunStart
  /-- DFLUSH_DRAIN (R162). -/
  | dflushDrain
  /-- DET_END_DRAIN (R152). -/
  | detEndDrain
  /-- ENGINE_OP_BEGIN (R293). -/
  | engineOpBegin
  /-- ENGINE_OP_COMPLETE (R293). -/
  | engineOpComplete
  /-- MCOMMIT_CLEAR (R199). -/
  | mcommitClear
  /-- TILE_FETCH_ARRIVE (R296). -/
  | tileFetchArrive
  /-- TTAB_WRITE_COMPLETE (R210). -/
  | ttabWriteComplete
  /-- HANDLER_ENTRY (R320). -/
  | handlerEntry
  /-- SRESUME_WRITE (R194). -/
  | sresumeWrite (e : Nat) (v : Word)
  /-- REGISTER_WRITE (R11). -/
  | registerWrite (e : Nat) (r : Nat) (v : Dword)
  /-- TRANSLATION_COMPLETE (R396). -/
  | translationComplete
  /-- NQHEAD_WRITE (R470). -/
  | nqheadWrite (v : Nat)
  /-- SWEEP_COMPLETE (R401). -/
  | sweepComplete
  /-- L2WB_COMPLETE (R223). -/
  | l2wbComplete
  /-- L2CFG_SWITCH (R460). -/
  | l2cfgSwitch
  /-- L2CFG_REPLAY_RECEIVE (R460). -/
  | l2cfgReplayReceive
  /-- OWALK_COMPLETE (R223). -/
  | owalkComplete
  /-- INVL1_COMPLETE (R223). -/
  | invl1Complete
  /-- BIAS_FLIP_COMPLETE (R406). -/
  | biasFlipComplete
  /-- BISNP_RESPONSE (R406). -/
  | bisnpResponse (pa : Nat) (data : Option (List Byte))
  /-- MIGRATION_SWEEP_TICK (R408). -/
  | migrationSweepTick
  /-- MIGRATION_PULL_COMPLETE (R408). -/
  | migrationPullComplete
  /-- POOL_FLUSH_DEADLINE (R237). -/
  | poolFlushDeadline
  /-- POOL_GANG_HOST (R238). -/
  | poolGangHost
  /-- POOL_GANG_READY (R239). -/
  | poolGangReady
  /-- SLOT_TRIGGER (R335). -/
  | slotTrigger (slot : Nat)
  /-- LAUNCH_PARSE (R336). -/
  | launchParse
  /-- LAUNCH_COMPLETE (R350). -/
  | launchComplete
  /-- MAILBOX_UNBIND (R354). -/
  | mailboxUnbind (slot : Nat)
  /-- START_TIME_MET (R346). -/
  | startTimeMet
  /-- RETEN_PASS (R361). -/
  | retenPass
  /-- PASS_TIMER (R360). -/
  | passTimer
  /-- BLOCK_START (R356). -/
  | blockStart
  /-- DET_START_NOTICE (R364). -/
  | detStartNotice
  /-- SUSPEND_COMPLETE (R374). -/
  | suspendComplete
  /-- PRIORITY_SUSPEND (R377). -/
  | prioritySuspend
  /-- RECLAIM_WALK (R380). -/
  | reclaimWalk
  /-- CALICO_SWAPIN_START (R386). -/
  | calicoSwapinStart
  /-- CALICO_LINE_ARRIVE (R385). -/
  | calicoLineArrive
  /-- CALICO_OBJECT_PUBLISH (R385). -/
  | calicoObjectPublish
  /-- SWAPIN_TIMEOUT (R389). -/
  | swapinTimeout
  /-- LAYER_EVICT_COMPLETE (R384). -/
  | layerEvictComplete
  /-- ATS_COMPLETION (R403). -/
  | atsCompletion (iova : Nat) (ans : Option AtsAnswer)
  /-- ATS_INVALIDATION (R404). -/
  | atsInvalidation (iova : Nat) (len : Nat)
  /-- INBOUND_ACCESS (R425). -/
  | inboundAccess (a : Inbound)
  /-- INBOUND_FAULT_TIMEOUT (R410). -/
  | inboundFaultTimeout
  /-- NAK_RESEND (R410). -/
  | nakResend
  /-- REQX (R411). -/
  | reqx (m : OwnMsg)
  /-- REQS (R411). -/
  | reqs (m : OwnMsg)
  /-- GRANT (R413). -/
  | grant (m : OwnMsg)
  /-- DENY (R411). -/
  | deny (m : OwnMsg)
  /-- MSG_RETURN (R411). -/
  | msgReturn (m : OwnMsg)
  /-- LRETURN (R416). -/
  | lreturn (m : OwnMsg)
  /-- RENEW (R415). -/
  | renew (m : OwnMsg)
  /-- RENEWED (R415). -/
  | renewed (m : OwnMsg)
  /-- RECALL (R416). -/
  | recall (m : OwnMsg)
  /-- WBDONE (R411). -/
  | wbdone (m : OwnMsg)
  /-- RENEW_TIMER (R415). -/
  | renewTimer
  /-- LEASE_EXPIRY (R416). -/
  | leaseExpiry
  /-- LOST_HOLDER_TIMEOUT (R416). -/
  | lostHolderTimeout
  /-- READ_REQUEST (R418). -/
  | readRequest (p : Packet)
  /-- FAR_OPERATION_PACKET (R422). -/
  | farOperationPacket (p : Packet)
  /-- SIGNAL_PACKET (R422). -/
  | signalPacket (p : Packet)
  /-- MAILBOX_MESSAGE (R425). -/
  | mailboxMessage (p : Packet)
  /-- POSTED_WRITE (R422). -/
  | postedWrite (p : Packet)
  /-- READ_DATA (R418). -/
  | readData (p : Packet)
  /-- COMPLETION (R447). -/
  | completion (p : Packet)
  /-- FAR_OP_RESULT (R418). -/
  | farOpResult (p : Packet)
  /-- NAK (R410). -/
  | nak (p : Packet)
  /-- CREDIT_RETURN (R419). -/
  | creditReturn (port : Nat) (chan : Nat) (n : Nat)
  /-- FLIT_CHECK_FAIL (R417). -/
  | flitCheckFail (port : Nat)
  /-- LINK_FAILURE (R430). -/
  | linkFailure (link : LinkId)
  /-- LINK_REQUEST_TIMEOUT (R430). -/
  | linkRequestTimeout
  /-- SNPDATA (R427). -/
  | snpdata (hpa : Nat)
  /-- SNPINV (R427). -/
  | snpinv (hpa : Nat)
  /-- SNPCUR (R427). -/
  | snpcur (hpa : Nat)
  /-- HOST_MEM_READ (R405). -/
  | hostMemRead (pa : Nat) (len : Nat)
  /-- HOST_MEM_WRITE (R405). -/
  | hostMemWrite (t : HostTarget) (addr : Nat) (data : List Byte)
  /-- CXL_CACHE_DATA (R427). -/
  | cxlCacheData (hpa : Nat) (data : List Byte) (poison : Bool)
  /-- CREATE (R366). -/
  | create
  /-- SUSPEND (R374). -/
  | suspend
  /-- RESUME (R378). -/
  | resume
  /-- KILL (R381). -/
  | kill
  /-- PAGEDONE_MAPPED (R400). -/
  | pagedoneMapped
  /-- PAGEDONE_UNMAPPABLE (R400). -/
  | pagedoneUnmappable
  /-- BIAS_HOST (R406). -/
  | biasHost
  /-- BIAS_DEVICE (R406). -/
  | biasDevice
  /-- ROUTE (R420). -/
  | route
  /-- KEYCREATE (R424). -/
  | keycreate
  /-- KEYDROP (R424). -/
  | keydrop
  /-- RKEY (R424). -/
  | rkey
  /-- RANGE (R426). -/
  | range
  /-- LINKRESET (R430). -/
  | linkreset
  /-- DBGATTACH (R432). -/
  | dbgattach
  /-- DBGDETACH (R432). -/
  | dbgdetach
  /-- DBGHALT (R433). -/
  | dbghalt
  /-- DBGRESUME (R436). -/
  | dbgresume
  /-- DBGSTOPS (R435). -/
  | dbgstops
  /-- SLOTREAD (R435). -/
  | slotread
  /-- TRACE (R437). -/
  | trace
  /-- RECOVER (R464). -/
  | recover
  /-- CRASHREAD (R466). -/
  | crashread
  /-- RESET (R469). -/
  | reset
  /-- ECALL_NONE (R471). -/
  | ecallNone
  /-- ECALL_POST (R471). -/
  | ecallPost
  /-- ECALL_THROTTLE (R471). -/
  | ecallThrottle
  /-- ECALL_RESETS (R471). -/
  | ecallResets
  /-- GET_VERSION (R472). -/
  | getVersion (req : List Byte)
  /-- GET_CAPABILITIES (R472). -/
  | getCapabilities (req : List Byte)
  /-- NEGOTIATE_ALGORITHMS (R472). -/
  | negotiateAlgorithms (req : List Byte)
  /-- GET_DIGESTS (R472). -/
  | getDigests (req : List Byte)
  /-- GET_CERTIFICATE (R472). -/
  | getCertificate (req : List Byte)
  /-- CHALLENGE (R472). -/
  | challenge (req : List Byte)
  /-- GET_MEASUREMENTS (R472). -/
  | getMeasurements (req : List Byte)
  /-- KEY_EXCHANGE (R472). -/
  | keyExchange (req : List Byte)
  /-- FINISH (R472). -/
  | finish (req : List Byte)
  /-- LINK_TRAINED (R419). -/
  | linkTrained (link : LinkId)
  /-- UNLISTED_COMMAND (R467). -/
  | unlistedCommand
  /-- UNLISTED_ECALL_SERVICE (R222). -/
  | unlistedEcallService
  /-- UNKNOWN_OWNERSHIP_MESSAGE (R411). -/
  | unknownOwnershipMessage (m : OwnMsg)
  /-- RETEN_FATAL (R466). -/
  | retenFatal
deriving DecidableEq, Repr

/-- What arrives at the device from outside: one constructor for each row of the table that an outside party starts. -/
inductive Input where
  | nqheadWrite (v : Nat)
  | bisnpResponse (pa : Nat) (data : Option (List Byte))
  | atsCompletion (iova : Nat) (ans : Option AtsAnswer)
  | atsInvalidation (iova : Nat) (len : Nat)
  | inboundAccess (a : Inbound)
  | reqx (m : OwnMsg)
  | reqs (m : OwnMsg)
  | grant (m : OwnMsg)
  | deny (m : OwnMsg)
  | msgReturn (m : OwnMsg)
  | lreturn (m : OwnMsg)
  | renew (m : OwnMsg)
  | renewed (m : OwnMsg)
  | recall (m : OwnMsg)
  | wbdone (m : OwnMsg)
  | unknownOwnershipMessage (m : OwnMsg)
  | readRequest (p : Packet)
  | farOperationPacket (p : Packet)
  | signalPacket (p : Packet)
  | mailboxMessage (p : Packet)
  | postedWrite (p : Packet)
  | readData (p : Packet)
  | completion (p : Packet)
  | farOpResult (p : Packet)
  | nak (p : Packet)
  | creditReturn (port : Nat) (chan : Nat) (n : Nat)
  | flitCheckFail (port : Nat)
  | linkFailure (link : LinkId)
  | linkTrained (link : LinkId)
  | snpdata (hpa : Nat)
  | snpinv (hpa : Nat)
  | snpcur (hpa : Nat)
  | hostMemRead (pa : Nat) (len : Nat)
  | hostMemWrite (t : HostTarget) (addr : Nat) (data : List Byte)
  | cxlCacheData (hpa : Nat) (data : List Byte) (poison : Bool)
  | getVersion (req : List Byte)
  | getCapabilities (req : List Byte)
  | negotiateAlgorithms (req : List Byte)
  | getDigests (req : List Byte)
  | getCertificate (req : List Byte)
  | challenge (req : List Byte)
  | getMeasurements (req : List Byte)
  | keyExchange (req : List Byte)
  | finish (req : List Byte)
  | watchdogKick
  | retenFatal
deriving DecidableEq, Repr

/-- The step that an input starts.  (Marked noncomputable only because the compiler has no room for the run-time tags
of so many constructors; Lean's kernel evaluates it.) -/
noncomputable def Input.toInstr : Input → Instr
  | .nqheadWrite v => .nqheadWrite v
  | .bisnpResponse pa data => .bisnpResponse pa data
  | .atsCompletion iova ans => .atsCompletion iova ans
  | .atsInvalidation iova len => .atsInvalidation iova len
  | .inboundAccess a => .inboundAccess a
  | .reqx m => .reqx m
  | .reqs m => .reqs m
  | .grant m => .grant m
  | .deny m => .deny m
  | .msgReturn m => .msgReturn m
  | .lreturn m => .lreturn m
  | .renew m => .renew m
  | .renewed m => .renewed m
  | .recall m => .recall m
  | .wbdone m => .wbdone m
  | .unknownOwnershipMessage m => .unknownOwnershipMessage m
  | .readRequest p => .readRequest p
  | .farOperationPacket p => .farOperationPacket p
  | .signalPacket p => .signalPacket p
  | .mailboxMessage p => .mailboxMessage p
  | .postedWrite p => .postedWrite p
  | .readData p => .readData p
  | .completion p => .completion p
  | .farOpResult p => .farOpResult p
  | .nak p => .nak p
  | .creditReturn port chan n => .creditReturn port chan n
  | .flitCheckFail port => .flitCheckFail port
  | .linkFailure link => .linkFailure link
  | .linkTrained link => .linkTrained link
  | .snpdata hpa => .snpdata hpa
  | .snpinv hpa => .snpinv hpa
  | .snpcur hpa => .snpcur hpa
  | .hostMemRead pa len => .hostMemRead pa len
  | .hostMemWrite t addr data => .hostMemWrite t addr data
  | .cxlCacheData hpa data poison => .cxlCacheData hpa data poison
  | .getVersion req => .getVersion req
  | .getCapabilities req => .getCapabilities req
  | .negotiateAlgorithms req => .negotiateAlgorithms req
  | .getDigests req => .getDigests req
  | .getCertificate req => .getCertificate req
  | .challenge req => .challenge req
  | .getMeasurements req => .getMeasurements req
  | .keyExchange req => .keyExchange req
  | .finish req => .finish req
  | .watchdogKick => .watchdogKick 
  | .retenFatal => .retenFatal 

end Sys2Proof
end

