-- ==== Sys2Proof/Machine/Info.lean ====
section
/-! DEFINITION. What the words of an instruction require before it executes (R47, R48, R59): the registers it names,
the codes it admits, the engines that accept it, and how the issue stage treats it (R73, R76, R310). -/

namespace Sys2Proof.Machine

/-- The register classes of R47; class g names c registers on the sequencer (R62). -/
inductive RegClass | g | s | p | m | h | d
deriving DecidableEq, Repr

/-- A group of registers that an instruction names. -/
structure Ref where
  cls : RegClass
  num : Nat
  len : Nat
  align : Nat
  read : Bool
  write : Bool
deriving DecidableEq, Repr

namespace Ref
/-- A source. -/
def rd (c : RegClass) (n : Nat) : Ref := ⟨c, n, 1, 1, true, false⟩
/-- A destination. -/
def wr (c : RegClass) (n : Nat) : Ref := ⟨c, n, 1, 1, false, true⟩
/-- A source that is also the destination. -/
def rw (c : RegClass) (n : Nat) : Ref := ⟨c, n, 1, 1, true, true⟩
/-- A source that is a destination too where `w` says so. -/
def rdw (c : RegClass) (n : Nat) (w : Bool) : Ref := ⟨c, n, 1, 1, true, w⟩
/-- An aligned group of sources (R48). -/
def rdN (c : RegClass) (n k : Nat) : Ref := ⟨c, n, k, k, true, false⟩
/-- An aligned group of destinations (R48). -/
def wrN (c : RegClass) (n k : Nat) : Ref := ⟨c, n, k, k, false, true⟩
/-- An aligned group that is read and written. -/
def rwN (c : RegClass) (n k : Nat) : Ref := ⟨c, n, k, k, true, true⟩
/-- A run of sources without alignment. -/
def rdAll (c : RegClass) (n k : Nat) : Ref := ⟨c, n, k, 1, true, false⟩
/-- A run of destinations without alignment (qenc, g2p). -/
def wrAll (c : RegClass) (n k : Nat) : Ref := ⟨c, n, k, 1, false, true⟩
/-- A g register where the field is not 0, and no register where it is (R51, R56). -/
def idx (n : Nat) : Ref := if n = 0 then ⟨.g, 0, 0, 1, false, false⟩ else rd .g n
end Ref

/-- How an instruction uses the fx scoreboard entry (R73). -/
inductive FxUse | unused | raises | reads | edits
deriving DecidableEq, Repr

/-- The latency of R77, where it does not depend on a path through memory. -/
inductive Lat
  | unset
  | fixed (n : Nat)
  | sfu
  | reduce
  | perWidth (base num den : Nat)
deriving DecidableEq, Repr

/-- Work cycles of a latency for a gang of width `w` (R77, R79, R175). -/
def Lat.cycles (w : Nat) : Lat → Option Nat
  | .unset => none
  | .fixed n => some n
  | .sfu => some (w / 16 - 1 + 20)
  | .reduce => some (12 + 2 * Nat.log2 w)
  | .perWidth base num den => some (base + w * num / den)

/-- What an instruction requires and how it issues; `sysReads` and `sysWrites` are the system registers that its words name. -/
structure Info where
  guard : Guard := .always
  refs : List Ref := []
  ok : Bool := true
  lat : Lat := .unset
  fx : FxUse := .unused
  commit : Bool := false
  mem : Bool := false
  gang : Bool := false
  xlane : Bool := false
  priv : Bool := false
  laneOk : Bool := true
  seqOk : Bool := true
  sysReads : List Nat := []
  sysWrites : List Nat := []
deriving DecidableEq, Repr

/-- The number of registers of a class, where `n` is the declared register count (R47, R48). -/
def RegClass.count (n : Nat) : RegClass → Nat
  | .g => n | .s => 32 | .p => 8 | .m => 4 | .h => 16 | .d => 8

/-- Whether a group lies below its class's count and is aligned (R47, R48). -/
def Ref.fits (n : Nat) (r : Ref) : Bool :=
  r.len == 0 || (decide (r.num + r.len ≤ r.cls.count n) && r.num % r.align == 0)

/-- The registers that a data field of a memory instruction names, by its size code (R51, R52, R145). -/
def sizeRegs (z : Nat) : Nat :=
  match z with
  | 3 => 2 | 4 => 4 | 5 => 8 | _ => 1

/-- The bytes of a size code (R51). -/
def sizeBytes (z : Nat) : Nat := 2 ^ z

/-- The size code of an LDI size field: s8 and s16 have the sizes of n8 and n16 (R52). -/
def ldiSize (z : Nat) : Nat := if 6 ≤ z then z - 6 else z

/-- The registers of a reduction or scan type: two for s64 and n64 (R57). -/
def xregs (ty : Nat) : Nat := if ty = 5 ∨ ty = 6 then 2 else 1

/-- System registers that a gang may name (R217). -/
def sysOnLane (r : Nat) : Bool :=
  [0x000, 0x001, 0x002, 0x003, 0x004, 0x005, 0x010, 0x011, 0x012, 0x020].contains r

/-- System registers that the sequencer may name (R217). -/
def sysOnSeq (r : Nat) : Bool :=
  [0x000, 0x001, 0x004, 0x005, 0x010, 0x011, 0x012, 0x020, 0x030, 0x031, 0x032, 0x040, 0x041].contains r

/-- System registers that `mtsr` writes; a write to another is ignored (R11, R217, R220). -/
def sysWritable (r : Nat) : Bool := [0x000, 0x001, 0x002, 0x020, 0x030, 0x031].contains r

/-- The registers that a system register takes: an even pair for 64 bits (R217). -/
def sysRegs (r : Nat) : Nat := if [0x003, 0x010, 0x011, 0x012, 0x020, 0x032].contains r then 2 else 1

/-- Whether the words are legal for an engine with `n` declared registers (R59, steps 4 and 5). -/
def Info.legal (i : Info) (seq : Bool) (n : Nat) : Bool :=
  (if seq then i.seqOk else i.laneOk) && i.ok && i.refs.all (Ref.fits n)

/-- ADD16 (R40). -/
def infoAdd16 (s : Fin 32) (d : Fin 32) : Info :=
  { refs := [.rd .g s, .rw .g d], lat := .fixed 4 }

/-- SUB16 (R40). -/
def infoSub16 (s : Fin 32) (d : Fin 32) : Info :=
  { refs := [.rd .g s, .rw .g d], lat := .fixed 4 }

/-- AND16 (R40). -/
def infoAnd16 (s : Fin 32) (d : Fin 32) : Info :=
  { refs := [.rd .g s, .rw .g d], lat := .fixed 4 }

/-- OR16 (R40). -/
def infoOr16 (s : Fin 32) (d : Fin 32) : Info :=
  { refs := [.rd .g s, .rw .g d], lat := .fixed 4 }

/-- XOR16 (R40). -/
def infoXor16 (s : Fin 32) (d : Fin 32) : Info :=
  { refs := [.rd .g s, .rw .g d], lat := .fixed 4 }

/-- SHL16 (R40). -/
def infoShl16 (s : Fin 32) (d : Fin 32) : Info :=
  { refs := [.rd .g s, .rw .g d], lat := .fixed 4 }

/-- SHR16 (R40). -/
def infoShr16 (s : Fin 32) (d : Fin 32) : Info :=
  { refs := [.rd .g s, .rw .g d], lat := .fixed 4 }

/-- SAR16 (R40). -/
def infoSar16 (s : Fin 32) (d : Fin 32) : Info :=
  { refs := [.rd .g s, .rw .g d], lat := .fixed 4 }

/-- MOV16 (R40). -/
def infoMov16 (s : Fin 32) (d : Fin 32) : Info :=
  { refs := [.rd .g s, .wr .g d], lat := .fixed 4 }

/-- MOVI5 (R40). -/
def infoMovi5 (_i : Fin 32) (d : Fin 32) : Info :=
  { refs := [.wr .g d], lat := .fixed 4 }

/-- FADD16 (R40). -/
def infoFadd16 (s : Fin 32) (d : Fin 32) : Info :=
  { refs := [.rd .g s, .rw .g d], lat := .fixed 6, fx := .raises, seqOk := false }

/-- FSUB16 (R40). -/
def infoFsub16 (s : Fin 32) (d : Fin 32) : Info :=
  { refs := [.rd .g s, .rw .g d], lat := .fixed 6, fx := .raises, seqOk := false }

/-- FMUL16 (R40). -/
def infoFmul16 (s : Fin 32) (d : Fin 32) : Info :=
  { refs := [.rd .g s, .rw .g d], lat := .fixed 6, fx := .raises, seqOk := false }

/-- FMIN16 (R40). -/
def infoFmin16 (s : Fin 32) (d : Fin 32) : Info :=
  { refs := [.rd .g s, .rw .g d], lat := .fixed 6, fx := .raises, seqOk := false }

/-- FMAX16 (R40). -/
def infoFmax16 (s : Fin 32) (d : Fin 32) : Info :=
  { refs := [.rd .g s, .rw .g d], lat := .fixed 6, fx := .raises, seqOk := false }

/-- ADDI5 (R40). -/
def infoAddi5 (_i : Fin 32) (d : Fin 32) : Info :=
  { refs := [.rw .g d], lat := .fixed 4 }

/-- GUARD_NOP (R44). -/
def infoGuardNop (_z : Fin 2097152) (_m : Fin 64) : Info :=
  { }

/-- ADD (R88). -/
def infoAdd (g : Guard) (b : Fin 64) (a : Fin 64) (d : Fin 64) : Info :=
  { guard := g, refs := [.rd .g b, .rd .g a, .wr .g d], lat := .fixed 4 }

/-- SUB (R88). -/
def infoSub (g : Guard) (b : Fin 64) (a : Fin 64) (d : Fin 64) : Info :=
  { guard := g, refs := [.rd .g b, .rd .g a, .wr .g d], lat := .fixed 4 }

/-- ADDC (R88). -/
def infoAddc (g : Guard) (b : Fin 64) (a : Fin 64) (d : Fin 64) : Info :=
  { guard := g, refs := [.rd .g b, .rd .g a, .wr .g d, .rw .p 7], lat := .fixed 4 }

/-- SUBB (R88). -/
def infoSubb (g : Guard) (b : Fin 64) (a : Fin 64) (d : Fin 64) : Info :=
  { guard := g, refs := [.rd .g b, .rd .g a, .wr .g d, .rw .p 7], lat := .fixed 4 }

/-- MIN_S32 (R88). -/
def infoMinS32 (g : Guard) (b : Fin 64) (a : Fin 64) (d : Fin 64) : Info :=
  { guard := g, refs := [.rd .g b, .rd .g a, .wr .g d], lat := .fixed 4 }

/-- MAX_S32 (R88). -/
def infoMaxS32 (g : Guard) (b : Fin 64) (a : Fin 64) (d : Fin 64) : Info :=
  { guard := g, refs := [.rd .g b, .rd .g a, .wr .g d], lat := .fixed 4 }

/-- MIN_N32 (R88). -/
def infoMinN32 (g : Guard) (b : Fin 64) (a : Fin 64) (d : Fin 64) : Info :=
  { guard := g, refs := [.rd .g b, .rd .g a, .wr .g d], lat := .fixed 4 }

/-- MAX_N32 (R88). -/
def infoMaxN32 (g : Guard) (b : Fin 64) (a : Fin 64) (d : Fin 64) : Info :=
  { guard := g, refs := [.rd .g b, .rd .g a, .wr .g d], lat := .fixed 4 }

/-- MUL (R89). -/
def infoMul (g : Guard) (b : Fin 64) (a : Fin 64) (d : Fin 64) : Info :=
  { guard := g, refs := [.rd .g b, .rd .g a, .wr .g d], lat := .fixed 4 }

/-- MULHI_S32 (R89). -/
def infoMulhiS32 (g : Guard) (b : Fin 64) (a : Fin 64) (d : Fin 64) : Info :=
  { guard := g, refs := [.rd .g b, .rd .g a, .wr .g d], lat := .fixed 4 }

/-- MULHI_N32 (R89). -/
def infoMulhiN32 (g : Guard) (b : Fin 64) (a : Fin 64) (d : Fin 64) : Info :=
  { guard := g, refs := [.rd .g b, .rd .g a, .wr .g d], lat := .fixed 4 }

/-- MAD (R89). -/
def infoMad (g : Guard) (b : Fin 64) (a : Fin 64) (d : Fin 64) : Info :=
  { guard := g, refs := [.rd .g b, .rd .g a, .rw .g d], lat := .fixed 4 }

/-- DIV_S32 (R90). -/
def infoDivS32 (g : Guard) (b : Fin 64) (a : Fin 64) (d : Fin 64) : Info :=
  { guard := g, refs := [.rd .g b, .rd .g a, .wr .g d], lat := .fixed 4 }

/-- DIV_N32 (R90). -/
def infoDivN32 (g : Guard) (b : Fin 64) (a : Fin 64) (d : Fin 64) : Info :=
  { guard := g, refs := [.rd .g b, .rd .g a, .wr .g d], lat := .fixed 4 }

/-- REM_S32 (R90). -/
def infoRemS32 (g : Guard) (b : Fin 64) (a : Fin 64) (d : Fin 64) : Info :=
  { guard := g, refs := [.rd .g b, .rd .g a, .wr .g d], lat := .fixed 4 }

/-- REM_N32 (R90). -/
def infoRemN32 (g : Guard) (b : Fin 64) (a : Fin 64) (d : Fin 64) : Info :=
  { guard := g, refs := [.rd .g b, .rd .g a, .wr .g d], lat := .fixed 4 }

/-- AND (R92). -/
def infoAnd (g : Guard) (b : Fin 64) (a : Fin 64) (d : Fin 64) : Info :=
  { guard := g, refs := [.rd .g b, .rd .g a, .wr .g d], lat := .fixed 4 }

/-- OR (R92). -/
def infoOr (g : Guard) (b : Fin 64) (a : Fin 64) (d : Fin 64) : Info :=
  { guard := g, refs := [.rd .g b, .rd .g a, .wr .g d], lat := .fixed 4 }

/-- XOR (R92). -/
def infoXor (g : Guard) (b : Fin 64) (a : Fin 64) (d : Fin 64) : Info :=
  { guard := g, refs := [.rd .g b, .rd .g a, .wr .g d], lat := .fixed 4 }

/-- ANDN (R92). -/
def infoAndn (g : Guard) (b : Fin 64) (a : Fin 64) (d : Fin 64) : Info :=
  { guard := g, refs := [.rd .g b, .rd .g a, .wr .g d], lat := .fixed 4 }

/-- ORN (R92). -/
def infoOrn (g : Guard) (b : Fin 64) (a : Fin 64) (d : Fin 64) : Info :=
  { guard := g, refs := [.rd .g b, .rd .g a, .wr .g d], lat := .fixed 4 }

/-- XNOR (R92). -/
def infoXnor (g : Guard) (b : Fin 64) (a : Fin 64) (d : Fin 64) : Info :=
  { guard := g, refs := [.rd .g b, .rd .g a, .wr .g d], lat := .fixed 4 }

/-- NOT (R92). -/
def infoNot (g : Guard) (a : Fin 64) (d : Fin 64) : Info :=
  { guard := g, refs := [.rd .g a, .wr .g d], lat := .fixed 4 }

/-- MOV (R92). -/
def infoMov (g : Guard) (a : Fin 64) (d : Fin 64) : Info :=
  { guard := g, refs := [.rd .g a, .wr .g d], lat := .fixed 4 }

/-- SHL (R93). -/
def infoShl (g : Guard) (b : Fin 64) (a : Fin 64) (d : Fin 64) : Info :=
  { guard := g, refs := [.rd .g b, .rd .g a, .wr .g d], lat := .fixed 4 }

/-- SHR (R93). -/
def infoShr (g : Guard) (b : Fin 64) (a : Fin 64) (d : Fin 64) : Info :=
  { guard := g, refs := [.rd .g b, .rd .g a, .wr .g d], lat := .fixed 4 }

/-- SAR (R93). -/
def infoSar (g : Guard) (b : Fin 64) (a : Fin 64) (d : Fin 64) : Info :=
  { guard := g, refs := [.rd .g b, .rd .g a, .wr .g d], lat := .fixed 4 }

/-- ROTL (R93). -/
def infoRotl (g : Guard) (b : Fin 64) (a : Fin 64) (d : Fin 64) : Info :=
  { guard := g, refs := [.rd .g b, .rd .g a, .wr .g d], lat := .fixed 4 }

/-- ROTR (R93). -/
def infoRotr (g : Guard) (b : Fin 64) (a : Fin 64) (d : Fin 64) : Info :=
  { guard := g, refs := [.rd .g b, .rd .g a, .wr .g d], lat := .fixed 4 }

/-- BFE_N32 (R93). -/
def infoBfeN32 (g : Guard) (b : Fin 64) (a : Fin 64) (d : Fin 64) : Info :=
  { guard := g, refs := [.rd .g b, .rd .g a, .wr .g d], lat := .fixed 4 }

/-- BFE_S32 (R93). -/
def infoBfeS32 (g : Guard) (b : Fin 64) (a : Fin 64) (d : Fin 64) : Info :=
  { guard := g, refs := [.rd .g b, .rd .g a, .wr .g d], lat := .fixed 4 }

/-- BFI (R93). -/
def infoBfi (g : Guard) (b : Fin 64) (a : Fin 64) (d : Fin 64) : Info :=
  { guard := g, refs := [.rd .g b, .rd .g a, .rw .g d], lat := .fixed 4 }

/-- POPC (R95). -/
def infoPopc (g : Guard) (a : Fin 64) (d : Fin 64) : Info :=
  { guard := g, refs := [.rd .g a, .wr .g d], lat := .fixed 4 }

/-- CLZ (R95). -/
def infoClz (g : Guard) (a : Fin 64) (d : Fin 64) : Info :=
  { guard := g, refs := [.rd .g a, .wr .g d], lat := .fixed 4 }

/-- CTZ (R95). -/
def infoCtz (g : Guard) (a : Fin 64) (d : Fin 64) : Info :=
  { guard := g, refs := [.rd .g a, .wr .g d], lat := .fixed 4 }

/-- BREV (R95). -/
def infoBrev (g : Guard) (a : Fin 64) (d : Fin 64) : Info :=
  { guard := g, refs := [.rd .g a, .wr .g d], lat := .fixed 4 }

/-- BPERM (R95). -/
def infoBperm (g : Guard) (b : Fin 64) (a : Fin 64) (d : Fin 64) : Info :=
  { guard := g, refs := [.rd .g b, .rd .g a, .wr .g d], lat := .fixed 4 }

/-- ABS (R95). -/
def infoAbs (g : Guard) (a : Fin 64) (d : Fin 64) : Info :=
  { guard := g, refs := [.rd .g a, .wr .g d], lat := .fixed 4 }

/-- NEG (R95). -/
def infoNeg (g : Guard) (a : Fin 64) (d : Fin 64) : Info :=
  { guard := g, refs := [.rd .g a, .wr .g d], lat := .fixed 4 }

/-- SEXT (R95). -/
def infoSext (g : Guard) (b : Fin 64) (a : Fin 64) (d : Fin 64) : Info :=
  { guard := g, refs := [.rd .g b, .rd .g a, .wr .g d], lat := .fixed 4 }

/-- ADDI (R91). -/
def infoAddi (g : Guard) (_i : Fin 512) (a : Fin 64) (d : Fin 64) : Info :=
  { guard := g, refs := [.rd .g a, .wr .g d], lat := .fixed 4 }

/-- SHL_IMM (R94). -/
def infoShlImm (g : Guard) (_i : Fin 32) (a : Fin 64) (d : Fin 64) : Info :=
  { guard := g, refs := [.rd .g a, .wr .g d], lat := .fixed 4 }

/-- SHR_IMM (R94). -/
def infoShrImm (g : Guard) (_i : Fin 32) (a : Fin 64) (d : Fin 64) : Info :=
  { guard := g, refs := [.rd .g a, .wr .g d], lat := .fixed 4 }

/-- SAR_IMM (R94). -/
def infoSarImm (g : Guard) (_i : Fin 32) (a : Fin 64) (d : Fin 64) : Info :=
  { guard := g, refs := [.rd .g a, .wr .g d], lat := .fixed 4 }

/-- ROTL_IMM (R94). -/
def infoRotlImm (g : Guard) (_i : Fin 32) (a : Fin 64) (d : Fin 64) : Info :=
  { guard := g, refs := [.rd .g a, .wr .g d], lat := .fixed 4 }

/-- MOVL (R96). -/
def infoMovl (g : Guard) (_i : Fin 65536) (d : Fin 32) : Info :=
  { guard := g, refs := [.wr .g d], lat := .fixed 4 }

/-- MOVH (R96). -/
def infoMovh (g : Guard) (_i : Fin 65536) (d : Fin 32) : Info :=
  { guard := g, refs := [.rw .g d], lat := .fixed 4 }

/-- ADD64 (R97). -/
def infoAdd64 (g : Guard) (b : Fin 64) (a : Fin 64) (d : Fin 64) : Info :=
  { guard := g, refs := [.rdN .g b 2, .rdN .g a 2, .wrN .g d 2], lat := .fixed 4 }

/-- SUB64 (R97). -/
def infoSub64 (g : Guard) (b : Fin 64) (a : Fin 64) (d : Fin 64) : Info :=
  { guard := g, refs := [.rdN .g b 2, .rdN .g a 2, .wrN .g d 2], lat := .fixed 4 }

/-- MUL64LO (R97). -/
def infoMul64lo (g : Guard) (b : Fin 64) (a : Fin 64) (d : Fin 64) : Info :=
  { guard := g, refs := [.rdN .g b 2, .rdN .g a 2, .wrN .g d 2], lat := .fixed 4 }

/-- MULW_S32 (R97). -/
def infoMulwS32 (g : Guard) (b : Fin 64) (a : Fin 64) (d : Fin 64) : Info :=
  { guard := g, refs := [.rd .g b, .rd .g a, .wrN .g d 2], lat := .fixed 4 }

/-- MULW_N32 (R97). -/
def infoMulwN32 (g : Guard) (b : Fin 64) (a : Fin 64) (d : Fin 64) : Info :=
  { guard := g, refs := [.rd .g b, .rd .g a, .wrN .g d 2], lat := .fixed 4 }

/-- SHL64 (R97). -/
def infoShl64 (g : Guard) (b : Fin 64) (a : Fin 64) (d : Fin 64) : Info :=
  { guard := g, refs := [.rd .g b, .rdN .g a 2, .wrN .g d 2], lat := .fixed 4 }

/-- SHR64 (R97). -/
def infoShr64 (g : Guard) (b : Fin 64) (a : Fin 64) (d : Fin 64) : Info :=
  { guard := g, refs := [.rd .g b, .rdN .g a 2, .wrN .g d 2], lat := .fixed 4 }

/-- SAR64 (R97). -/
def infoSar64 (g : Guard) (b : Fin 64) (a : Fin 64) (d : Fin 64) : Info :=
  { guard := g, refs := [.rd .g b, .rdN .g a 2, .wrN .g d 2], lat := .fixed 4 }

/-- ICMP_EQ (R98). -/
def infoIcmpEq (g : Guard) (_c : Fin 4) (b : Fin 64) (a : Fin 64) (d : Fin 8) : Info :=
  { guard := g, refs := [.rd .g b, .rd .g a, .rw .p d], lat := .fixed 4 }

/-- ICMP_NE (R98). -/
def infoIcmpNe (g : Guard) (_c : Fin 4) (b : Fin 64) (a : Fin 64) (d : Fin 8) : Info :=
  { guard := g, refs := [.rd .g b, .rd .g a, .rw .p d], lat := .fixed 4 }

/-- ICMP_LT (R98). -/
def infoIcmpLt (g : Guard) (_c : Fin 4) (_s : Fin 2) (b : Fin 64) (a : Fin 64) (d : Fin 8) : Info :=
  { guard := g, refs := [.rd .g b, .rd .g a, .rw .p d], lat := .fixed 4 }

/-- ICMP_LE (R98). -/
def infoIcmpLe (g : Guard) (_c : Fin 4) (_s : Fin 2) (b : Fin 64) (a : Fin 64) (d : Fin 8) : Info :=
  { guard := g, refs := [.rd .g b, .rd .g a, .rw .p d], lat := .fixed 4 }

/-- ICMP_GT (R98). -/
def infoIcmpGt (g : Guard) (_c : Fin 4) (_s : Fin 2) (b : Fin 64) (a : Fin 64) (d : Fin 8) : Info :=
  { guard := g, refs := [.rd .g b, .rd .g a, .rw .p d], lat := .fixed 4 }

/-- ICMP_GE (R98). -/
def infoIcmpGe (g : Guard) (_c : Fin 4) (_s : Fin 2) (b : Fin 64) (a : Fin 64) (d : Fin 8) : Info :=
  { guard := g, refs := [.rd .g b, .rd .g a, .rw .p d], lat := .fixed 4 }

/-- FCMP_EQ (R99). -/
def infoFcmpEq (g : Guard) (_c : Fin 4) (_u : Fin 2) (b : Fin 64) (a : Fin 64) (d : Fin 8) : Info :=
  { guard := g, refs := [.rd .g b, .rd .g a, .rw .p d], lat := .fixed 4, fx := .raises }

/-- FCMP_NE (R99). -/
def infoFcmpNe (g : Guard) (_c : Fin 4) (b : Fin 64) (a : Fin 64) (d : Fin 8) : Info :=
  { guard := g, refs := [.rd .g b, .rd .g a, .rw .p d], lat := .fixed 4, fx := .raises }

/-- FCMP_LT (R99). -/
def infoFcmpLt (g : Guard) (_c : Fin 4) (_u : Fin 2) (b : Fin 64) (a : Fin 64) (d : Fin 8) : Info :=
  { guard := g, refs := [.rd .g b, .rd .g a, .rw .p d], lat := .fixed 4, fx := .raises }

/-- FCMP_LE (R99). -/
def infoFcmpLe (g : Guard) (_c : Fin 4) (_u : Fin 2) (b : Fin 64) (a : Fin 64) (d : Fin 8) : Info :=
  { guard := g, refs := [.rd .g b, .rd .g a, .rw .p d], lat := .fixed 4, fx := .raises }

/-- FCMP_GT (R99). -/
def infoFcmpGt (g : Guard) (_c : Fin 4) (_u : Fin 2) (b : Fin 64) (a : Fin 64) (d : Fin 8) : Info :=
  { guard := g, refs := [.rd .g b, .rd .g a, .rw .p d], lat := .fixed 4, fx := .raises }

/-- FCMP_GE (R99). -/
def infoFcmpGe (g : Guard) (_c : Fin 4) (_u : Fin 2) (b : Fin 64) (a : Fin 64) (d : Fin 8) : Info :=
  { guard := g, refs := [.rd .g b, .rd .g a, .rw .p d], lat := .fixed 4, fx := .raises }

/-- PAND (R100). -/
def infoPand (g : Guard) (b : Fin 64) (a : Fin 64) (d : Fin 64) : Info :=
  { guard := g, refs := [.rd .p b, .rd .p a, .wr .p d], lat := .fixed 4 }

/-- POR (R100). -/
def infoPor (g : Guard) (b : Fin 64) (a : Fin 64) (d : Fin 64) : Info :=
  { guard := g, refs := [.rd .p b, .rd .p a, .wr .p d], lat := .fixed 4 }

/-- PXOR (R100). -/
def infoPxor (g : Guard) (b : Fin 64) (a : Fin 64) (d : Fin 64) : Info :=
  { guard := g, refs := [.rd .p b, .rd .p a, .wr .p d], lat := .fixed 4 }

/-- PANDN (R100). -/
def infoPandn (g : Guard) (b : Fin 64) (a : Fin 64) (d : Fin 64) : Info :=
  { guard := g, refs := [.rd .p b, .rd .p a, .wr .p d], lat := .fixed 4 }

/-- PNOT (R100). -/
def infoPnot (g : Guard) (a : Fin 64) (d : Fin 64) : Info :=
  { guard := g, refs := [.rd .p a, .wr .p d], lat := .fixed 4 }

/-- P2G (R100). -/
def infoP2g (g : Guard) (d : Fin 64) : Info :=
  { guard := g, refs := [.rdAll .p 1 7, .wr .g d], lat := .fixed 4 }

/-- G2P (R100). -/
def infoG2p (g : Guard) (a : Fin 64) : Info :=
  { guard := g, refs := [.rd .g a, .wrAll .p 1 7], lat := .fixed 4 }

/-- PSET (R100). -/
def infoPset (g : Guard) (a : Fin 64) (d : Fin 64) : Info :=
  { guard := g, refs := [.wr .p d], ok := decide (a.val < 2), lat := .fixed 4 }

/-- VOTE_ANY_P (R110). -/
def infoVoteAnyP (g : Guard) (b : Fin 64) (a : Fin 64) (d : Fin 64) : Info :=
  { guard := g, refs := [.rd .m b, .rd .p a, .wr .p d], lat := .fixed 4, xlane := true, seqOk := false }

/-- VOTE_ALL_P (R110). -/
def infoVoteAllP (g : Guard) (b : Fin 64) (a : Fin 64) (d : Fin 64) : Info :=
  { guard := g, refs := [.rd .m b, .rd .p a, .wr .p d], lat := .fixed 4, xlane := true, seqOk := false }

/-- VOTE_COUNT_P (R110). -/
def infoVoteCountP (g : Guard) (b : Fin 64) (a : Fin 64) (d : Fin 64) : Info :=
  { guard := g, refs := [.rd .m b, .rd .p a, .wr .g d], lat := .fixed 4, xlane := true, seqOk := false }

/-- VOTE_BALLOT_P (R110). -/
def infoVoteBallotP (g : Guard) (b : Fin 64) (a : Fin 64) (d : Fin 64) : Info :=
  { guard := g, refs := [.rd .m b, .rd .p a, .wr .m d], lat := .fixed 4, xlane := true, seqOk := false }

/-- VOTE_ANY_FX (R110). -/
def infoVoteAnyFx (g : Guard) (b : Fin 64) (a : Fin 64) (d : Fin 64) : Info :=
  { guard := g, refs := [.rd .m b, .wr .p d], ok := decide (a.val < 6), lat := .fixed 4, fx := .reads, xlane := true, seqOk := false }

/-- VOTE_ALL_FX (R110). -/
def infoVoteAllFx (g : Guard) (b : Fin 64) (a : Fin 64) (d : Fin 64) : Info :=
  { guard := g, refs := [.rd .m b, .wr .p d], ok := decide (a.val < 6), lat := .fixed 4, fx := .reads, xlane := true, seqOk := false }

/-- VOTE_COUNT_FX (R110). -/
def infoVoteCountFx (g : Guard) (b : Fin 64) (a : Fin 64) (d : Fin 64) : Info :=
  { guard := g, refs := [.rd .m b, .wr .g d], ok := decide (a.val < 6), lat := .fixed 4, fx := .reads, xlane := true, seqOk := false }

/-- VOTE_BALLOT_FX (R110). -/
def infoVoteBallotFx (g : Guard) (b : Fin 64) (a : Fin 64) (d : Fin 64) : Info :=
  { guard := g, refs := [.rd .m b, .wr .m d], ok := decide (a.val < 6), lat := .fixed 4, fx := .reads, xlane := true, seqOk := false }

/-- FXRD (R101). -/
def infoFxrd (g : Guard) (d : Fin 64) : Info :=
  { guard := g, refs := [.wr .g d], lat := .fixed 4, fx := .reads, seqOk := false }

/-- FXCLR (R101). -/
def infoFxclr (g : Guard) (_b : Fin 64) : Info :=
  { guard := g, lat := .fixed 4, fx := .edits, seqOk := false }

/-- FXOR (R101). -/
def infoFxor (g : Guard) (a : Fin 64) : Info :=
  { guard := g, refs := [.rd .g a], lat := .fixed 4, fx := .edits, seqOk := false }

/-- FXTEST (R101). -/
def infoFxtest (g : Guard) (_b : Fin 64) (d : Fin 64) : Info :=
  { guard := g, refs := [.wr .p d], lat := .fixed 4, fx := .reads, seqOk := false }

/-- SHFL_IDX (R111). -/
def infoShflIdx (g : Guard) (m : Fin 4) (b : Fin 32) (a : Fin 64) (d : Fin 64) : Info :=
  { guard := g, refs := [.rd .m m, .rd .g b, .rd .g a, .wr .g d], lat := .fixed 8, xlane := true, seqOk := false }

/-- SHFL_UP (R111). -/
def infoShflUp (g : Guard) (m : Fin 4) (b : Fin 32) (a : Fin 64) (d : Fin 64) : Info :=
  { guard := g, refs := [.rd .m m, .rd .g b, .rd .g a, .wr .g d], lat := .fixed 8, xlane := true, seqOk := false }

/-- SHFL_DOWN (R111). -/
def infoShflDown (g : Guard) (m : Fin 4) (b : Fin 32) (a : Fin 64) (d : Fin 64) : Info :=
  { guard := g, refs := [.rd .m m, .rd .g b, .rd .g a, .wr .g d], lat := .fixed 8, xlane := true, seqOk := false }

/-- SHFL_XOR (R111). -/
def infoShflXor (g : Guard) (m : Fin 4) (b : Fin 32) (a : Fin 64) (d : Fin 64) : Info :=
  { guard := g, refs := [.rd .m m, .rd .g b, .rd .g a, .wr .g d], lat := .fixed 8, xlane := true, seqOk := false }

/-- XRED_ADD (R112). -/
def infoXredAdd (g : Guard) (m : Fin 4) (b : Fin 32) (a : Fin 64) (d : Fin 64) : Info :=
  { guard := g, refs := [.rd .m m, .rdN .g a (xregs b), .wrN .g d (xregs b)], ok := decide (b.val < 7), lat := .reduce, fx := .raises, xlane := true, seqOk := false }

/-- XRED_MIN (R112). -/
def infoXredMin (g : Guard) (m : Fin 4) (b : Fin 32) (a : Fin 64) (d : Fin 64) : Info :=
  { guard := g, refs := [.rd .m m, .rdN .g a (xregs b), .wrN .g d (xregs b)], ok := decide (b.val < 7), lat := .reduce, fx := .raises, xlane := true, seqOk := false }

/-- XRED_MAX (R112). -/
def infoXredMax (g : Guard) (m : Fin 4) (b : Fin 32) (a : Fin 64) (d : Fin 64) : Info :=
  { guard := g, refs := [.rd .m m, .rdN .g a (xregs b), .wrN .g d (xregs b)], ok := decide (b.val < 7), lat := .reduce, fx := .raises, xlane := true, seqOk := false }

/-- XRED_LOGIC (R112). -/
def infoXredLogic (g : Guard) (m : Fin 4) (b : Fin 32) (a : Fin 64) (d : Fin 64) : Info :=
  { guard := g, refs := [.rd .m m, .rd .g a, .wr .g d], ok := decide (b.val < 3), lat := .reduce, fx := .raises, xlane := true, seqOk := false }

/-- XSCAN_ADD_INC (R113). -/
def infoXscanAddInc (g : Guard) (m : Fin 4) (b : Fin 32) (a : Fin 64) (d : Fin 64) : Info :=
  { guard := g, refs := [.rd .m m, .rdN .g a (xregs b), .wrN .g d (xregs b)], ok := decide (b.val < 3 ∨ b.val = 5 ∨ b.val = 6), lat := .reduce, fx := .raises, xlane := true, seqOk := false }

/-- XSCAN_ADD_EXC (R113). -/
def infoXscanAddExc (g : Guard) (m : Fin 4) (b : Fin 32) (a : Fin 64) (d : Fin 64) : Info :=
  { guard := g, refs := [.rd .m m, .rdN .g a (xregs b), .wrN .g d (xregs b)], ok := decide (b.val < 3 ∨ b.val = 5 ∨ b.val = 6), lat := .reduce, fx := .raises, xlane := true, seqOk := false }

/-- XSCAN_MAX_INC (R113). -/
def infoXscanMaxInc (g : Guard) (m : Fin 4) (b : Fin 32) (a : Fin 64) (d : Fin 64) : Info :=
  { guard := g, refs := [.rd .m m, .rdN .g a (xregs b), .wrN .g d (xregs b)], ok := decide (b.val < 3 ∨ b.val = 5 ∨ b.val = 6), lat := .reduce, fx := .raises, xlane := true, seqOk := false }

/-- XSCAN_MAX_EXC (R113). -/
def infoXscanMaxExc (g : Guard) (m : Fin 4) (b : Fin 32) (a : Fin 64) (d : Fin 64) : Info :=
  { guard := g, refs := [.rd .m m, .rdN .g a (xregs b), .wrN .g d (xregs b)], ok := decide (b.val < 3 ∨ b.val = 5 ∨ b.val = 6), lat := .reduce, fx := .raises, xlane := true, seqOk := false }

/-- SADD (R104). -/
def infoSadd (g : Guard) (b : Fin 64) (a : Fin 64) (d : Fin 64) : Info :=
  { guard := g, refs := [.rd .s b, .rd .s a, .wr .s d], lat := .fixed 4, seqOk := false }

/-- SSUB (R104). -/
def infoSsub (g : Guard) (b : Fin 64) (a : Fin 64) (d : Fin 64) : Info :=
  { guard := g, refs := [.rd .s b, .rd .s a, .wr .s d], lat := .fixed 4, seqOk := false }

/-- SAND (R104). -/
def infoSand (g : Guard) (b : Fin 64) (a : Fin 64) (d : Fin 64) : Info :=
  { guard := g, refs := [.rd .s b, .rd .s a, .wr .s d], lat := .fixed 4, seqOk := false }

/-- SOR (R104). -/
def infoSor (g : Guard) (b : Fin 64) (a : Fin 64) (d : Fin 64) : Info :=
  { guard := g, refs := [.rd .s b, .rd .s a, .wr .s d], lat := .fixed 4, seqOk := false }

/-- SSHL (R104). -/
def infoSshl (g : Guard) (b : Fin 64) (a : Fin 64) (d : Fin 64) : Info :=
  { guard := g, refs := [.rd .s b, .rd .s a, .wr .s d], lat := .fixed 4, seqOk := false }

/-- SSHR (R104). -/
def infoSshr (g : Guard) (b : Fin 64) (a : Fin 64) (d : Fin 64) : Info :=
  { guard := g, refs := [.rd .s b, .rd .s a, .wr .s d], lat := .fixed 4, seqOk := false }

/-- S2G (R104). -/
def infoS2g (g : Guard) (a : Fin 64) (d : Fin 64) : Info :=
  { guard := g, refs := [.rd .s a, .wr .g d], lat := .fixed 4, seqOk := false }

/-- G2S (R104). -/
def infoG2s (g : Guard) (a : Fin 64) (d : Fin 64) : Info :=
  { guard := g, refs := [.rd .g a, .wr .s d], lat := .fixed 4, seqOk := false }

/-- SV (R105). -/
def infoSv (g : Guard) (a : Fin 64) (d : Fin 64) : Info :=
  { guard := g, refs := [.wr .g d], ok := decide (a.val < 18), lat := .fixed 4, seqOk := false }

/-- MSET (R102). -/
def infoMset (g : Guard) (a : Fin 64) (d : Fin 64) : Info :=
  { guard := g, refs := [.rdN .s a 2, .wr .m d], lat := .fixed 4, seqOk := false }

/-- MGET (R102). -/
def infoMget (g : Guard) (a : Fin 64) (d : Fin 64) : Info :=
  { guard := g, refs := [.rd .m a, .wrN .g d 2], lat := .fixed 4, seqOk := false }

/-- MAND (R102). -/
def infoMand (g : Guard) (b : Fin 64) (a : Fin 64) (d : Fin 64) : Info :=
  { guard := g, refs := [.rd .m b, .rd .m a, .wr .m d], lat := .fixed 4, seqOk := false }

/-- MOR (R102). -/
def infoMor (g : Guard) (b : Fin 64) (a : Fin 64) (d : Fin 64) : Info :=
  { guard := g, refs := [.rd .m b, .rd .m a, .wr .m d], lat := .fixed 4, seqOk := false }

/-- MFROMP (R102). -/
def infoMfromp (g : Guard) (a : Fin 64) (d : Fin 64) : Info :=
  { guard := g, refs := [.rd .p a, .wr .m d], lat := .fixed 4, seqOk := false }

/-- FADD (R124). -/
def infoFadd (g : Guard) (b : Fin 64) (a : Fin 64) (d : Fin 64) : Info :=
  { guard := g, refs := [.rd .g b, .rd .g a, .wr .g d], lat := .fixed 6, fx := .raises, seqOk := false }

/-- FSUB (R124). -/
def infoFsub (g : Guard) (b : Fin 64) (a : Fin 64) (d : Fin 64) : Info :=
  { guard := g, refs := [.rd .g b, .rd .g a, .wr .g d], lat := .fixed 6, fx := .raises, seqOk := false }

/-- FMUL (R124). -/
def infoFmul (g : Guard) (b : Fin 64) (a : Fin 64) (d : Fin 64) : Info :=
  { guard := g, refs := [.rd .g b, .rd .g a, .wr .g d], lat := .fixed 6, fx := .raises, seqOk := false }

/-- FFMA (R124). -/
def infoFfma (g : Guard) (b : Fin 64) (a : Fin 64) (d : Fin 64) : Info :=
  { guard := g, refs := [.rd .g b, .rd .g a, .rw .g d], lat := .fixed 6, fx := .raises, seqOk := false }

/-- FMIN (R125). -/
def infoFmin (g : Guard) (b : Fin 64) (a : Fin 64) (d : Fin 64) : Info :=
  { guard := g, refs := [.rd .g b, .rd .g a, .wr .g d], lat := .fixed 6, fx := .raises, seqOk := false }

/-- FMAX (R125). -/
def infoFmax (g : Guard) (b : Fin 64) (a : Fin 64) (d : Fin 64) : Info :=
  { guard := g, refs := [.rd .g b, .rd .g a, .wr .g d], lat := .fixed 6, fx := .raises, seqOk := false }

/-- FABS (R124). -/
def infoFabs (g : Guard) (a : Fin 64) (d : Fin 64) : Info :=
  { guard := g, refs := [.rd .g a, .wr .g d], lat := .fixed 6, fx := .raises, seqOk := false }

/-- FNEG (R124). -/
def infoFneg (g : Guard) (a : Fin 64) (d : Fin 64) : Info :=
  { guard := g, refs := [.rd .g a, .wr .g d], lat := .fixed 6, fx := .raises, seqOk := false }

/-- FADD_BF16X2 (R126). -/
def infoFaddBf16x2 (g : Guard) (b : Fin 64) (a : Fin 64) (d : Fin 64) : Info :=
  { guard := g, refs := [.rd .g b, .rd .g a, .wr .g d], lat := .fixed 6, fx := .raises, seqOk := false }

/-- FMUL_BF16X2 (R126). -/
def infoFmulBf16x2 (g : Guard) (b : Fin 64) (a : Fin 64) (d : Fin 64) : Info :=
  { guard := g, refs := [.rd .g b, .rd .g a, .wr .g d], lat := .fixed 6, fx := .raises, seqOk := false }

/-- FFMA_BF16X2 (R126). -/
def infoFfmaBf16x2 (g : Guard) (b : Fin 64) (a : Fin 64) (d : Fin 64) : Info :=
  { guard := g, refs := [.rd .g b, .rd .g a, .rw .g d], lat := .fixed 6, fx := .raises, seqOk := false }

/-- FADD_F16X2 (R126). -/
def infoFaddF16x2 (g : Guard) (b : Fin 64) (a : Fin 64) (d : Fin 64) : Info :=
  { guard := g, refs := [.rd .g b, .rd .g a, .wr .g d], lat := .fixed 6, fx := .raises, seqOk := false }

/-- FMUL_F16X2 (R126). -/
def infoFmulF16x2 (g : Guard) (b : Fin 64) (a : Fin 64) (d : Fin 64) : Info :=
  { guard := g, refs := [.rd .g b, .rd .g a, .wr .g d], lat := .fixed 6, fx := .raises, seqOk := false }

/-- FFMA_F16X2 (R126). -/
def infoFfmaF16x2 (g : Guard) (b : Fin 64) (a : Fin 64) (d : Fin 64) : Info :=
  { guard := g, refs := [.rd .g b, .rd .g a, .rw .g d], lat := .fixed 6, fx := .raises, seqOk := false }

/-- FMAX_BF16X2 (R126). -/
def infoFmaxBf16x2 (g : Guard) (b : Fin 64) (a : Fin 64) (d : Fin 64) : Info :=
  { guard := g, refs := [.rd .g b, .rd .g a, .wr .g d], lat := .fixed 6, fx := .raises, seqOk := false }

/-- FMIN_BF16X2 (R126). -/
def infoFminBf16x2 (g : Guard) (b : Fin 64) (a : Fin 64) (d : Fin 64) : Info :=
  { guard := g, refs := [.rd .g b, .rd .g a, .wr .g d], lat := .fixed 6, fx := .raises, seqOk := false }

/-- DOT2_BF16 (R127). -/
def infoDot2Bf16 (g : Guard) (b : Fin 64) (a : Fin 64) (d : Fin 64) : Info :=
  { guard := g, refs := [.rd .g b, .rd .g a, .rw .g d], lat := .fixed 8, fx := .raises, seqOk := false }

/-- DOT2_F16 (R127). -/
def infoDot2F16 (g : Guard) (b : Fin 64) (a : Fin 64) (d : Fin 64) : Info :=
  { guard := g, refs := [.rd .g b, .rd .g a, .rw .g d], lat := .fixed 8, fx := .raises, seqOk := false }

/-- DOT4_E4M3 (R127). -/
def infoDot4E4m3 (g : Guard) (b : Fin 64) (a : Fin 64) (d : Fin 64) : Info :=
  { guard := g, refs := [.rd .g b, .rd .g a, .rw .g d], lat := .fixed 8, fx := .raises, seqOk := false }

/-- DOT4_E5M2 (R127). -/
def infoDot4E5m2 (g : Guard) (b : Fin 64) (a : Fin 64) (d : Fin 64) : Info :=
  { guard := g, refs := [.rd .g b, .rd .g a, .rw .g d], lat := .fixed 8, fx := .raises, seqOk := false }

/-- DOT8_E2M1 (R127). -/
def infoDot8E2m1 (g : Guard) (b : Fin 64) (a : Fin 64) (d : Fin 64) : Info :=
  { guard := g, refs := [.rd .g b, .rd .g a, .rw .g d], lat := .fixed 8, fx := .raises, seqOk := false }

/-- IDOT4_S8 (R127). -/
def infoIdot4S8 (g : Guard) (b : Fin 64) (a : Fin 64) (d : Fin 64) : Info :=
  { guard := g, refs := [.rd .g b, .rd .g a, .rw .g d], lat := .fixed 8, fx := .raises, seqOk := false }

/-- IDOT4_N8 (R127). -/
def infoIdot4N8 (g : Guard) (b : Fin 64) (a : Fin 64) (d : Fin 64) : Info :=
  { guard := g, refs := [.rd .g b, .rd .g a, .rw .g d], lat := .fixed 8, fx := .raises, seqOk := false }

/-- RCP (R128). -/
def infoRcp (g : Guard) (a : Fin 64) (d : Fin 64) : Info :=
  { guard := g, refs := [.rd .g a, .wr .g d], lat := .sfu, fx := .raises, seqOk := false }

/-- RSQ (R128). -/
def infoRsq (g : Guard) (a : Fin 64) (d : Fin 64) : Info :=
  { guard := g, refs := [.rd .g a, .wr .g d], lat := .sfu, fx := .raises, seqOk := false }

/-- SQRT (R128). -/
def infoSqrt (g : Guard) (a : Fin 64) (d : Fin 64) : Info :=
  { guard := g, refs := [.rd .g a, .wr .g d], lat := .sfu, fx := .raises, seqOk := false }

/-- EXP2 (R128). -/
def infoExp2 (g : Guard) (a : Fin 64) (d : Fin 64) : Info :=
  { guard := g, refs := [.rd .g a, .wr .g d], lat := .sfu, fx := .raises, seqOk := false }

/-- LOG2 (R128). -/
def infoLog2 (g : Guard) (a : Fin 64) (d : Fin 64) : Info :=
  { guard := g, refs := [.rd .g a, .wr .g d], lat := .sfu, fx := .raises, seqOk := false }

/-- SIN (R128). -/
def infoSin (g : Guard) (a : Fin 64) (d : Fin 64) : Info :=
  { guard := g, refs := [.rd .g a, .wr .g d], lat := .sfu, fx := .raises, seqOk := false }

/-- COS (R128). -/
def infoCos (g : Guard) (a : Fin 64) (d : Fin 64) : Info :=
  { guard := g, refs := [.rd .g a, .wr .g d], lat := .sfu, fx := .raises, seqOk := false }

/-- TANH (R128). -/
def infoTanh (g : Guard) (a : Fin 64) (d : Fin 64) : Info :=
  { guard := g, refs := [.rd .g a, .wr .g d], lat := .sfu, fx := .raises, seqOk := false }

/-- FCVT (R130). -/
def infoFcvt (g : Guard) (_r : Fin 8) (_e : Fin 8) (_s : Fin 8) (a : Fin 64) (d : Fin 64) : Info :=
  { guard := g, refs := [.rd .g a, .wr .g d], lat := .fixed 6, fx := .raises, seqOk := false }

/-- QENC_E2M1 (R133). -/
def infoQencE2m1 (g : Guard) (a : Fin 64) (d : Fin 64) : Info :=
  { guard := g, refs := [.rd .g a, .wrAll .g d 2], lat := .fixed 6, fx := .raises, seqOk := false }

/-- QDEC_E2M1 (R134). -/
def infoQdecE2m1 (g : Guard) (b : Fin 64) (a : Fin 64) (d : Fin 64) : Info :=
  { guard := g, refs := [.rd .g b, .rd .g a, .wr .g d], lat := .fixed 6, fx := .raises, seqOk := false }

/-- PK2_BF16 (R135). -/
def infoPk2Bf16 (g : Guard) (a : Fin 64) (d : Fin 64) : Info :=
  { guard := g, refs := [.rd .g a, .wr .g d], lat := .fixed 6, fx := .raises, seqOk := false }

/-- PK2_F16 (R135). -/
def infoPk2F16 (g : Guard) (a : Fin 64) (d : Fin 64) : Info :=
  { guard := g, refs := [.rd .g a, .wr .g d], lat := .fixed 6, fx := .raises, seqOk := false }

/-- PK4_E4M3 (R135). -/
def infoPk4E4m3 (g : Guard) (a : Fin 64) (d : Fin 64) : Info :=
  { guard := g, refs := [.rd .g a, .wr .g d], lat := .fixed 6, fx := .raises, seqOk := false }

/-- PK4_E5M2 (R135). -/
def infoPk4E5m2 (g : Guard) (a : Fin 64) (d : Fin 64) : Info :=
  { guard := g, refs := [.rd .g a, .wr .g d], lat := .fixed 6, fx := .raises, seqOk := false }

/-- UNPK_E4M3 (R135). -/
def infoUnpkE4m3 (g : Guard) (a : Fin 64) (d : Fin 64) : Info :=
  { guard := g, refs := [.rd .g a, .wr .g d], lat := .fixed 6, fx := .raises, seqOk := false }

/-- UNPK_E5M2 (R135). -/
def infoUnpkE5m2 (g : Guard) (a : Fin 64) (d : Fin 64) : Info :=
  { guard := g, refs := [.rd .g a, .wr .g d], lat := .fixed 6, fx := .raises, seqOk := false }

/-- FCLASS (R137). -/
def infoFclass (g : Guard) (a : Fin 64) (d : Fin 64) : Info :=
  { guard := g, refs := [.rd .g a, .wr .g d], lat := .fixed 6, fx := .raises, seqOk := false }

/-- FRND (R136). -/
def infoFrnd (g : Guard) (a : Fin 64) (d : Fin 64) : Info :=
  { guard := g, refs := [.rd .g a, .wr .g d], lat := .fixed 6, fx := .raises, seqOk := false }

/-- FGETEXP (R138). -/
def infoFgetexp (g : Guard) (a : Fin 64) (d : Fin 64) : Info :=
  { guard := g, refs := [.rd .g a, .wr .g d], lat := .fixed 6, fx := .raises, seqOk := false }

/-- FSCALE (R136). -/
def infoFscale (g : Guard) (b : Fin 64) (a : Fin 64) (d : Fin 64) : Info :=
  { guard := g, refs := [.rd .g b, .rd .g a, .wr .g d], lat := .fixed 6, fx := .raises, seqOk := false }

/-- FCOPYSIGN (R136). -/
def infoFcopysign (g : Guard) (b : Fin 64) (a : Fin 64) (d : Fin 64) : Info :=
  { guard := g, refs := [.rd .g b, .rd .g a, .wr .g d], lat := .fixed 6, fx := .raises, seqOk := false }

/-- FSAT (R136). -/
def infoFsat (g : Guard) (a : Fin 64) (d : Fin 64) : Info :=
  { guard := g, refs := [.rd .g a, .wr .g d], lat := .fixed 6, fx := .raises, seqOk := false }

/-- LD (R145). -/
def infoLd (g : Guard) (z : Fin 8) (s : Fin 2) (_q : Fin 2) (x : Fin 64) (h : Fin 16) (d : Fin 64) : Info :=
  { guard := g, refs := [.idx x, .rd .h h, .wrN .g d (sizeRegs z)], ok := decide (z.val < 6) && (s.val == 0 || decide (z.val < 2)), mem := true }

/-- LDI (R145). -/
def infoLdi (g : Guard) (z : Fin 8) (_i : Fin 256) (h : Fin 16) (d : Fin 64) : Info :=
  { guard := g, refs := [.rd .h h, .wrN .g d (sizeRegs (ldiSize z))], mem := true }

/-- LDV (R147). -/
def infoLdv (g : Guard) (z : Fin 8) (_v : Fin 2) (x : Fin 64) (h : Fin 16) (d : Fin 64) : Info :=
  { guard := g, refs := [.idx x, .rd .h h, .wrN .g d (sizeRegs z)], ok := decide (z.val < 6), mem := true }

/-- ST (R145). -/
def infoSt (g : Guard) (z : Fin 8) (_r : Fin 2) (x : Fin 64) (h : Fin 16) (d : Fin 64) : Info :=
  { guard := g, refs := [.idx x, .rd .h h, .rdN .g d (sizeRegs z)], ok := decide (z.val < 6), mem := true }

/-- STI (R145). -/
def infoSti (g : Guard) (z : Fin 8) (_i : Fin 256) (h : Fin 16) (d : Fin 64) : Info :=
  { guard := g, refs := [.rd .h h, .rdN .g d (sizeRegs z)], ok := decide (z.val < 6), mem := true }

/-- PREF (R148). -/
def infoPref (g : Guard) (x : Fin 64) (h : Fin 16) : Info :=
  { guard := g, refs := [.idx x, .rd .h h] }

/-- TOUCH (R148). -/
def infoTouch (g : Guard) (x : Fin 64) (h : Fin 16) : Info :=
  { guard := g, refs := [.idx x, .rd .h h] }

/-- PROBE (R148). -/
def infoProbe (g : Guard) (x : Fin 64) (h : Fin 16) (d : Fin 64) : Info :=
  { guard := g, refs := [.idx x, .rd .h h, .wr .g d] }

/-- FAR_ADD_S32 (R149). -/
def infoFarAddS32 (g : Guard) (t : Fin 2) (x : Fin 64) (h : Fin 16) (d : Fin 64) : Info :=
  { guard := g, refs := [.idx x, .rd .h h, .rdw .g d (t.val == 1)], commit := true, mem := true }

/-- FAR_ADD_F32 (R149). -/
def infoFarAddF32 (g : Guard) (t : Fin 2) (x : Fin 64) (h : Fin 16) (d : Fin 64) : Info :=
  { guard := g, refs := [.idx x, .rd .h h, .rdw .g d (t.val == 1)], commit := true, mem := true }

/-- FAR_ADD_BF16X2 (R149). -/
def infoFarAddBf16x2 (g : Guard) (t : Fin 2) (x : Fin 64) (h : Fin 16) (d : Fin 64) : Info :=
  { guard := g, refs := [.idx x, .rd .h h, .rdw .g d (t.val == 1)], commit := true, mem := true }

/-- FAR_MIN_S32 (R149). -/
def infoFarMinS32 (g : Guard) (t : Fin 2) (x : Fin 64) (h : Fin 16) (d : Fin 64) : Info :=
  { guard := g, refs := [.idx x, .rd .h h, .rdw .g d (t.val == 1)], commit := true, mem := true }

/-- FAR_MAX_S32 (R149). -/
def infoFarMaxS32 (g : Guard) (t : Fin 2) (x : Fin 64) (h : Fin 16) (d : Fin 64) : Info :=
  { guard := g, refs := [.idx x, .rd .h h, .rdw .g d (t.val == 1)], commit := true, mem := true }

/-- FAR_MIN_N32 (R149). -/
def infoFarMinN32 (g : Guard) (t : Fin 2) (x : Fin 64) (h : Fin 16) (d : Fin 64) : Info :=
  { guard := g, refs := [.idx x, .rd .h h, .rdw .g d (t.val == 1)], commit := true, mem := true }

/-- FAR_MAX_N32 (R149). -/
def infoFarMaxN32 (g : Guard) (t : Fin 2) (x : Fin 64) (h : Fin 16) (d : Fin 64) : Info :=
  { guard := g, refs := [.idx x, .rd .h h, .rdw .g d (t.val == 1)], commit := true, mem := true }

/-- FAR_MIN_F32 (R149). -/
def infoFarMinF32 (g : Guard) (t : Fin 2) (x : Fin 64) (h : Fin 16) (d : Fin 64) : Info :=
  { guard := g, refs := [.idx x, .rd .h h, .rdw .g d (t.val == 1)], commit := true, mem := true }

/-- FAR_MAX_F32 (R149). -/
def infoFarMaxF32 (g : Guard) (t : Fin 2) (x : Fin 64) (h : Fin 16) (d : Fin 64) : Info :=
  { guard := g, refs := [.idx x, .rd .h h, .rdw .g d (t.val == 1)], commit := true, mem := true }

/-- FAR_AND (R149). -/
def infoFarAnd (g : Guard) (t : Fin 2) (x : Fin 64) (h : Fin 16) (d : Fin 64) : Info :=
  { guard := g, refs := [.idx x, .rd .h h, .rdw .g d (t.val == 1)], commit := true, mem := true }

/-- FAR_OR (R149). -/
def infoFarOr (g : Guard) (t : Fin 2) (x : Fin 64) (h : Fin 16) (d : Fin 64) : Info :=
  { guard := g, refs := [.idx x, .rd .h h, .rdw .g d (t.val == 1)], commit := true, mem := true }

/-- FAR_XOR (R149). -/
def infoFarXor (g : Guard) (t : Fin 2) (x : Fin 64) (h : Fin 16) (d : Fin 64) : Info :=
  { guard := g, refs := [.idx x, .rd .h h, .rdw .g d (t.val == 1)], commit := true, mem := true }

/-- FAR_EXCH (R149). -/
def infoFarExch (g : Guard) (t : Fin 2) (x : Fin 64) (h : Fin 16) (d : Fin 64) : Info :=
  { guard := g, refs := [.idx x, .rd .h h, .rdw .g d (t.val == 1)], commit := true, mem := true }

/-- FAR_CAS (R149). -/
def infoFarCas (g : Guard) (t : Fin 2) (x : Fin 64) (h : Fin 16) (d : Fin 64) : Info :=
  { guard := g, refs := [.idx x, .rd .h h, .rdN .g d 2, .rdw .g d (t.val == 1)], commit := true, mem := true }

/-- FAR_INC_WRAP (R149). -/
def infoFarIncWrap (g : Guard) (t : Fin 2) (x : Fin 64) (h : Fin 16) (d : Fin 64) : Info :=
  { guard := g, refs := [.idx x, .rd .h h, .rdw .g d (t.val == 1)], commit := true, mem := true }

/-- FAR_DEC_WRAP (R149). -/
def infoFarDecWrap (g : Guard) (t : Fin 2) (x : Fin 64) (h : Fin 16) (d : Fin 64) : Info :=
  { guard := g, refs := [.idx x, .rd .h h, .rdw .g d (t.val == 1)], commit := true, mem := true }

/-- FARO_ADD_S32 (R151). -/
def infoFaroAddS32 (g : Guard) (_w : Fin 4) (x : Fin 64) (h : Fin 16) (d : Fin 64) : Info :=
  { guard := g, refs := [.idx x, .rd .h h, .rw .g d], commit := true, mem := true }

/-- FARO_EXCH_B32 (R151). -/
def infoFaroExchB32 (g : Guard) (_w : Fin 4) (x : Fin 64) (h : Fin 16) (d : Fin 64) : Info :=
  { guard := g, refs := [.idx x, .rd .h h, .rw .g d], commit := true, mem := true }

/-- FARO_CAS_B32 (R151). -/
def infoFaroCasB32 (g : Guard) (_w : Fin 4) (x : Fin 64) (h : Fin 16) (d : Fin 64) : Info :=
  { guard := g, refs := [.idx x, .rd .h h, .rdN .g d 2, .wr .g d], commit := true, mem := true }

/-- FARO_ADD_N64 (R151). -/
def infoFaroAddN64 (g : Guard) (_w : Fin 4) (x : Fin 64) (h : Fin 16) (d : Fin 64) : Info :=
  { guard := g, refs := [.idx x, .rd .h h, .rwN .g d 2], commit := true, mem := true }

/-- FARO_EXCH_B64 (R151). -/
def infoFaroExchB64 (g : Guard) (_w : Fin 4) (x : Fin 64) (h : Fin 16) (d : Fin 64) : Info :=
  { guard := g, refs := [.idx x, .rd .h h, .rwN .g d 2], commit := true, mem := true }

/-- FARO_CAS_B64 (R151). -/
def infoFaroCasB64 (g : Guard) (_w : Fin 4) (x : Fin 64) (h : Fin 16) (d : Fin 64) : Info :=
  { guard := g, refs := [.idx x, .rd .h h, .rdN .g d 4, .wrN .g d 2], commit := true, mem := true }

/-- FARO_MIN_N64 (R151). -/
def infoFaroMinN64 (g : Guard) (_w : Fin 4) (x : Fin 64) (h : Fin 16) (d : Fin 64) : Info :=
  { guard := g, refs := [.idx x, .rd .h h, .rwN .g d 2], commit := true, mem := true }

/-- FARO_MAX_N64 (R151). -/
def infoFaroMaxN64 (g : Guard) (_w : Fin 4) (x : Fin 64) (h : Fin 16) (d : Fin 64) : Info :=
  { guard := g, refs := [.idx x, .rd .h h, .rwN .g d 2], commit := true, mem := true }

/-- SIG_ADD (R153). -/
def infoSigAdd (g : Guard) (x : Fin 64) (h : Fin 16) (d : Fin 64) : Info :=
  { guard := g, refs := [.idx x, .rd .h h, .rdN .g d 2], commit := true, mem := true }

/-- SIG_MAX (R153). -/
def infoSigMax (g : Guard) (x : Fin 64) (h : Fin 16) (d : Fin 64) : Info :=
  { guard := g, refs := [.idx x, .rd .h h, .rdN .g d 2], commit := true, mem := true }

/-- SIG_WAIT_GE (R153). -/
def infoSigWaitGe (g : Guard) (x : Fin 64) (h : Fin 16) (d : Fin 64) : Info :=
  { guard := g, refs := [.idx x, .rd .h h, .rwN .g d 2], commit := true, mem := true }

/-- SIG_WAIT_EQ (R153). -/
def infoSigWaitEq (g : Guard) (x : Fin 64) (h : Fin 16) (d : Fin 64) : Info :=
  { guard := g, refs := [.idx x, .rd .h h, .rwN .g d 2], commit := true, mem := true }

/-- SIG_TEST (R153). -/
def infoSigTest (g : Guard) (x : Fin 64) (h : Fin 16) (d : Fin 64) : Info :=
  { guard := g, refs := [.idx x, .rd .h h, .wrN .g d 2], commit := true, mem := true }

/-- BORROW_X (R156). -/
def infoBorrowX (g : Guard) (x : Fin 64) (s : Fin 16) (h : Fin 16) : Info :=
  { guard := g, refs := [.rd .g x, .rdw .h s (s != h), .wr .h h], commit := true, mem := true, gang := true }

/-- BORROW_S (R156). -/
def infoBorrowS (g : Guard) (x : Fin 64) (s : Fin 16) (h : Fin 16) : Info :=
  { guard := g, refs := [.rd .g x, .rdw .h s (s != h), .wr .h h], commit := true, mem := true, gang := true }

/-- BORROW_X_TRY (R156). -/
def infoBorrowXTry (g : Guard) (k : Fin 8) (x : Fin 64) (s : Fin 16) (h : Fin 16) : Info :=
  { guard := g, refs := [.rd .g x, .rdw .h s (s != h), .wr .h h, .wr .p k], commit := true, mem := true, gang := true }

/-- BORROW_S_TRY (R156). -/
def infoBorrowSTry (g : Guard) (k : Fin 8) (x : Fin 64) (s : Fin 16) (h : Fin 16) : Info :=
  { guard := g, refs := [.rd .g x, .rdw .h s (s != h), .wr .h h, .wr .p k], commit := true, mem := true, gang := true }

/-- REBORROW_X (R157). -/
def infoReborrowX (g : Guard) (x : Fin 64) (s : Fin 16) (h : Fin 16) : Info :=
  { guard := g, refs := [.rdN .g x 2, .rw .h s, .wr .h h], lat := .fixed 4, gang := true }

/-- REBORROW_S (R157). -/
def infoReborrowS (g : Guard) (x : Fin 64) (s : Fin 16) (h : Fin 16) : Info :=
  { guard := g, refs := [.rdN .g x 2, .rw .h s, .wr .h h], lat := .fixed 4, gang := true }

/-- SPLIT2 (R158). -/
def infoSplit2 (g : Guard) (x : Fin 64) (s : Fin 16) (h : Fin 16) : Info :=
  { guard := g, refs := [.rd .g x, .rw .h s], ok := decide (h.val + 1 < 16), commit := true, mem := true, gang := true }

/-- SPLIT4 (R158). -/
def infoSplit4 (g : Guard) (x : Fin 64) (s : Fin 16) (h : Fin 16) : Info :=
  { guard := g, refs := [.rd .g x, .rw .h s], ok := decide (h.val + 3 < 16), commit := true, mem := true, gang := true }

/-- SPLIT8 (R158). -/
def infoSplit8 (g : Guard) (x : Fin 64) (s : Fin 16) (h : Fin 16) : Info :=
  { guard := g, refs := [.rdN .g x 2, .rw .h s], ok := decide (h.val + 7 < 16), commit := true, mem := true, gang := true }

/-- JOIN (R158). -/
def infoJoin (g : Guard) (s : Fin 16) : Info :=
  { guard := g, refs := [.rw .h s], commit := true, mem := true, gang := true }

/-- GIVE (R159). -/
def infoGive (g : Guard) (x : Fin 64) (s : Fin 16) : Info :=
  { guard := g, refs := [.rd .g x, .rw .h s], commit := true, mem := true, gang := true }

/-- FREEZE (R158). -/
def infoFreeze (g : Guard) (s : Fin 16) : Info :=
  { guard := g, refs := [.rw .h s], commit := true, mem := true, gang := true }

/-- THAW (R158). -/
def infoThaw (g : Guard) (s : Fin 16) : Info :=
  { guard := g, refs := [.rw .h s], commit := true, mem := true, gang := true }

/-- RETURN_BLK (R160). -/
def infoReturnBlk (g : Guard) (s : Fin 16) : Info :=
  { guard := g, refs := [.rw .h s], commit := true, mem := true, gang := true }

/-- RETURN_CORE (R160). -/
def infoReturnCore (g : Guard) (s : Fin 16) : Info :=
  { guard := g, refs := [.rw .h s], commit := true, mem := true, gang := true }

/-- RETURN_DIE (R160). -/
def infoReturnDie (g : Guard) (s : Fin 16) : Info :=
  { guard := g, refs := [.rw .h s], commit := true, mem := true, gang := true }

/-- RETURN_DEV (R160). -/
def infoReturnDev (g : Guard) (s : Fin 16) : Info :=
  { guard := g, refs := [.rw .h s], commit := true, mem := true, gang := true }

/-- RETURN_SYS (R160). -/
def infoReturnSys (g : Guard) (s : Fin 16) : Info :=
  { guard := g, refs := [.rw .h s], commit := true, mem := true, gang := true }

/-- BSTAT (R160). -/
def infoBstat (g : Guard) (x : Fin 64) (s : Fin 16) : Info :=
  { guard := g, refs := [.rd .h s, .wr .g x], lat := .fixed 4, gang := true }

/-- BDROP (R160). -/
def infoBdrop (g : Guard) (s : Fin 16) : Info :=
  { guard := g, refs := [.rw .h s], commit := true, mem := true, gang := true }

/-- FENCE_ACQ (R161). -/
def infoFenceAcq (g : Guard) (b : Fin 64) (a : Fin 64) : Info :=
  { guard := g, refs := [.idx b], ok := decide (a.val < 8) && (decide (a.val = 2) == decide (b.val ≠ 0)) }

/-- FENCE_REL (R161). -/
def infoFenceRel (g : Guard) (b : Fin 64) (a : Fin 64) : Info :=
  { guard := g, refs := [.idx b], ok := decide (a.val < 8) && (decide (a.val = 2) == decide (b.val ≠ 0)) }

/-- FENCE_ACQREL (R161). -/
def infoFenceAcqrel (g : Guard) (b : Fin 64) (a : Fin 64) : Info :=
  { guard := g, refs := [.idx b], ok := decide (a.val < 8) && (decide (a.val = 2) == decide (b.val ≠ 0)) }

/-- DFLUSH (R162). -/
def infoDflush (g : Guard) : Info :=
  { guard := g, xlane := true }

/-- RCV (R163). -/
def infoRcv (g : Guard) (a : Fin 64) : Info :=
  { guard := g, refs := [.rd .m a], xlane := true, seqOk := false }

/-- BAR_SYNC (R163). -/
def infoBarSync (g : Guard) (b : Fin 64) (a : Fin 64) : Info :=
  { guard := g, refs := [.rd .m a, .idx b], commit := true, xlane := true, seqOk := false }

/-- BAR_ARRIVE (R163). -/
def infoBarArrive (g : Guard) (b : Fin 64) (a : Fin 64) : Info :=
  { guard := g, refs := [.rd .m a, .idx b], commit := true, xlane := true, seqOk := false }

/-- BAR_WAIT (R163). -/
def infoBarWait (g : Guard) (b : Fin 64) (a : Fin 64) : Info :=
  { guard := g, refs := [.rd .m a, .idx b], commit := true, xlane := true, seqOk := false }

/-- COPY (R164). -/
def infoCopy (g : Guard) (k : Fin 8) (x : Fin 64) (s : Fin 16) (h : Fin 16) : Info :=
  { guard := g, refs := [.rwN .g x 2, .rd .h s, .rd .h h], ok := decide (k.val < 2), lat := .fixed 4, commit := true, mem := true, gang := true, seqOk := false }

/-- COPY_SHADOW (R166). -/
def infoCopyShadow (g : Guard) (k : Fin 8) (x : Fin 64) (s : Fin 16) (h : Fin 16) : Info :=
  { guard := g, refs := [.rwN .g x 2, .rd .h s, .rd .h h], ok := decide (k.val < 2), lat := .fixed 4, commit := true, mem := true, gang := true, seqOk := false }

/-- PUBLISH (R166). -/
def infoPublish (g : Guard) (h : Fin 16) : Info :=
  { guard := g, refs := [.rw .h h], commit := true, mem := true, gang := true, seqOk := false }

/-- CPWAIT (R167). -/
def infoCpwait (g : Guard) (x : Fin 64) : Info :=
  { guard := g, refs := [.rdN .g x 2], gang := true, seqOk := false }

/-- CPSTAT (R167). -/
def infoCpstat (g : Guard) (x : Fin 64) (h : Fin 16) : Info :=
  { guard := g, refs := [.wr .g x, .rd .h h], lat := .fixed 4, gang := true, seqOk := false }

/-- CPCANCEL (R167). -/
def infoCpcancel (g : Guard) (h : Fin 16) : Info :=
  { guard := g, refs := [.rd .h h], gang := true, seqOk := false }

/-- MBPOST (R168). -/
def infoMbpost (g : Guard) (b : Fin 64) (a : Fin 64) : Info :=
  { guard := g, refs := [.rd .g a, .rdN .g b 4] }

/-- SPAWN (R339). -/
def infoSpawn (g : Guard) (a : Fin 64) (d : Fin 64) : Info :=
  { guard := g, refs := [.rd .g a, .wr .g d], lat := .fixed 4, commit := true, gang := true }

/-- HQPOST (R168). -/
def infoHqpost (g : Guard) (b : Fin 64) (a : Fin 64) : Info :=
  { guard := g, refs := [.rd .g a, .rdN .g b 2], commit := true, gang := true }

/-- HQTAKE (R168). -/
def infoHqtake (g : Guard) (a : Fin 64) (d : Fin 64) : Info :=
  { guard := g, refs := [.rd .g a, .wrN .g d 2], gang := true }

/-- HQPEEK (R168). -/
def infoHqpeek (g : Guard) (a : Fin 64) (d : Fin 64) : Info :=
  { guard := g, refs := [.rd .g a, .wr .g d], lat := .fixed 4, gang := true }

/-- SLEEP_UNTIL (R169). -/
def infoSleepUntil (g : Guard) (a : Fin 64) : Info :=
  { guard := g, refs := [.rdN .g a 2] }

/-- YIELD (R169). -/
def infoYield (g : Guard) : Info :=
  { guard := g, gang := true }

/-- DADD (R179). -/
def infoDadd (g : Guard) (b : Fin 8) (a : Fin 8) (d : Fin 8) : Info :=
  { guard := g, refs := [.rd .d b, .rd .d a, .wr .d d], lat := .perWidth 12 3 1, fx := .raises, seqOk := false }

/-- DSUB (R179). -/
def infoDsub (g : Guard) (b : Fin 8) (a : Fin 8) (d : Fin 8) : Info :=
  { guard := g, refs := [.rd .d b, .rd .d a, .wr .d d], lat := .perWidth 12 3 1, fx := .raises, seqOk := false }

/-- DMUL (R179). -/
def infoDmul (g : Guard) (b : Fin 8) (a : Fin 8) (d : Fin 8) : Info :=
  { guard := g, refs := [.rd .d b, .rd .d a, .wr .d d], lat := .perWidth 12 3 1, fx := .raises, seqOk := false }

/-- DDIV (R179). -/
def infoDdiv (g : Guard) (b : Fin 8) (a : Fin 8) (d : Fin 8) : Info :=
  { guard := g, refs := [.rd .d b, .rd .d a, .wr .d d], lat := .perWidth 12 3 1, fx := .raises, seqOk := false }

/-- DMIN (R179). -/
def infoDmin (g : Guard) (b : Fin 8) (a : Fin 8) (d : Fin 8) : Info :=
  { guard := g, refs := [.rd .d b, .rd .d a, .wr .d d], lat := .perWidth 12 3 1, fx := .raises, seqOk := false }

/-- DMAX (R179). -/
def infoDmax (g : Guard) (b : Fin 8) (a : Fin 8) (d : Fin 8) : Info :=
  { guard := g, refs := [.rd .d b, .rd .d a, .wr .d d], lat := .perWidth 12 3 1, fx := .raises, seqOk := false }

/-- DMIX (R180). -/
def infoDmix (g : Guard) (x : Fin 64) (b : Fin 8) (a : Fin 8) (d : Fin 8) : Info :=
  { guard := g, refs := [.idx x, .rd .d b, .rd .d a, .wr .d d], lat := .perWidth 12 3 1, fx := .raises, seqOk := false }

/-- DSCALE (R181). -/
def infoDscale (g : Guard) (x : Fin 64) (a : Fin 8) (d : Fin 8) : Info :=
  { guard := g, refs := [.rd .g x, .rd .d a, .wr .d d], lat := .perWidth 8 1 8, fx := .raises, seqOk := false }

/-- DSHIFT (R181). -/
def infoDshift (g : Guard) (x : Fin 64) (a : Fin 8) (d : Fin 8) : Info :=
  { guard := g, refs := [.rd .g x, .rd .d a, .wr .d d], lat := .perWidth 8 1 8, fx := .raises, seqOk := false }

/-- DMAP (R181). -/
def infoDmap (g : Guard) (_f : Fin 8) (a : Fin 8) (d : Fin 8) : Info :=
  { guard := g, refs := [.rd .d a, .wr .d d], lat := .perWidth 8 1 8, fx := .raises, seqOk := false }

/-- DNEG (R181). -/
def infoDneg (g : Guard) (a : Fin 8) (d : Fin 8) : Info :=
  { guard := g, refs := [.rd .d a, .wr .d d], lat := .perWidth 8 1 8, fx := .raises, seqOk := false }

/-- DMOV (R181). -/
def infoDmov (g : Guard) (a : Fin 8) (d : Fin 8) : Info :=
  { guard := g, refs := [.rd .d a, .wr .d d], lat := .perWidth 8 1 8, fx := .raises, seqOk := false }

/-- DCOND (R182). -/
def infoDcond (g : Guard) (f : Fin 8) (x : Fin 64) (a : Fin 8) (d : Fin 8) : Info :=
  { guard := g, refs := [.rd .g x, .rd .d a, .wr .d d], ok := decide (f.val < 6), lat := .perWidth 8 1 8, fx := .raises, seqOk := false }

/-- DTAG (R183). -/
def infoDtag (g : Guard) (_f : Fin 2) (x : Fin 64) (a : Fin 8) (d : Fin 8) : Info :=
  { guard := g, refs := [.rd .g x, .rd .d a, .wr .d d], lat := .perWidth 8 1 8, fx := .raises, seqOk := false }

/-- DNORM (R184). -/
def infoDnorm (g : Guard) (a : Fin 8) (d : Fin 8) : Info :=
  { guard := g, refs := [.rd .d a, .wr .d d], lat := .perWidth 8 1 8, fx := .raises, seqOk := false }

/-- DSRC (R185). -/
def infoDsrc (g : Guard) (x : Fin 64) (d : Fin 8) : Info :=
  { guard := g, refs := [.rd .g x, .wr .d d], lat := .perWidth 8 1 8, fx := .raises, seqOk := false }

/-- DPUSH (R185). -/
def infoDpush (g : Guard) (x : Fin 64) (d : Fin 8) : Info :=
  { guard := g, refs := [.rd .g x, .rw .d d], lat := .perWidth 12 2 1, fx := .raises, seqOk := false }

/-- DPUSHW (R185). -/
def infoDpushw (g : Guard) (x : Fin 64) (d : Fin 8) : Info :=
  { guard := g, refs := [.rdN .g x 2, .rw .d d], lat := .perWidth 12 2 1, fx := .raises, seqOk := false }

/-- DLD (R186). -/
def infoDld (g : Guard) (k : Fin 2) (x : Fin 64) (h : Fin 8) (d : Fin 8) : Info :=
  { guard := g, refs := [.idx x, .rd .h (8 * k.val + h.val), .wr .d d], fx := .raises, mem := true, seqOk := false }

/-- DST (R186). -/
def infoDst (g : Guard) (k : Fin 2) (x : Fin 64) (h : Fin 8) (d : Fin 8) : Info :=
  { guard := g, refs := [.idx x, .rd .h (8 * k.val + h.val), .rd .d d], fx := .raises, mem := true, seqOk := false }

/-- DSEL_V (R187). -/
def infoDselV (g : Guard) (_k : Fin 8) (x : Fin 64) (a : Fin 8) : Info :=
  { guard := g, refs := [.rd .d a, .wr .g x], lat := .fixed 8, fx := .raises, seqOk := false }

/-- DSEL_W (R187). -/
def infoDselW (g : Guard) (_k : Fin 8) (x : Fin 64) (a : Fin 8) : Info :=
  { guard := g, refs := [.rd .d a, .wr .g x], lat := .fixed 8, fx := .raises, seqOk := false }

/-- DMASS (R187). -/
def infoDmass (g : Guard) (x : Fin 64) (a : Fin 8) : Info :=
  { guard := g, refs := [.rd .d a, .wr .g x], lat := .perWidth 10 1 4, fx := .raises, seqOk := false }

/-- DMOM1 (R188). -/
def infoDmom1 (g : Guard) (x : Fin 64) (a : Fin 8) : Info :=
  { guard := g, refs := [.rd .d a, .wr .g x], lat := .perWidth 10 1 4, fx := .raises, seqOk := false }

/-- DMOM2C (R188). -/
def infoDmom2c (g : Guard) (x : Fin 64) (a : Fin 8) : Info :=
  { guard := g, refs := [.rd .d a, .wr .g x], lat := .perWidth 10 1 4, fx := .raises, seqOk := false }

/-- DMOM3C (R188). -/
def infoDmom3c (g : Guard) (x : Fin 64) (a : Fin 8) : Info :=
  { guard := g, refs := [.rd .d a, .wr .g x], lat := .perWidth 10 1 4, fx := .raises, seqOk := false }

/-- DMOM4C (R188). -/
def infoDmom4c (g : Guard) (x : Fin 64) (a : Fin 8) : Info :=
  { guard := g, refs := [.rd .d a, .wr .g x], lat := .perWidth 10 1 4, fx := .raises, seqOk := false }

/-- DQNT (R189). -/
def infoDqnt (g : Guard) (x : Fin 64) (a : Fin 8) : Info :=
  { guard := g, refs := [.rd .d a, .rw .g x], lat := .perWidth 10 1 4, fx := .raises, seqOk := false }

/-- DCDF (R189). -/
def infoDcdf (g : Guard) (x : Fin 64) (a : Fin 8) : Info :=
  { guard := g, refs := [.rd .d a, .rw .g x], lat := .perWidth 10 1 4, fx := .raises, seqOk := false }

/-- DLO (R189). -/
def infoDlo (g : Guard) (x : Fin 64) (a : Fin 8) : Info :=
  { guard := g, refs := [.rd .d a, .wr .g x], lat := .perWidth 10 1 4, fx := .raises, seqOk := false }

/-- DHI (R189). -/
def infoDhi (g : Guard) (x : Fin 64) (a : Fin 8) : Info :=
  { guard := g, refs := [.rd .d a, .wr .g x], lat := .perWidth 10 1 4, fx := .raises, seqOk := false }

/-- BRA (R115). -/
def infoBra (g : Guard) (_o : Fin 2097152) : Info :=
  { guard := g }

/-- CALL (R116). -/
def infoCall (g : Guard) (_o : Fin 2097152) : Info :=
  { guard := g, refs := [.wr .g 63], lat := .fixed 4 }

/-- JMP (R117). -/
def infoJmp (g : Guard) (a : Fin 64) : Info :=
  { guard := g, refs := [.rd .g a] }

/-- RET (R117). -/
def infoRet (g : Guard) (a : Fin 64) : Info :=
  { guard := g, refs := [.rd .g a] }

/-- EXIT (R118). -/
def infoExit (g : Guard) : Info :=
  { guard := g, commit := true }

/-- RGN (R311). -/
def infoRgn (g : Guard) : Info :=
  { guard := g, commit := true }

/-- BRK (R119). -/
def infoBrk (g : Guard) (_b : Fin 64) : Info :=
  { guard := g }

/-- TRAP (R119). -/
def infoTrap (g : Guard) (_b : Fin 64) : Info :=
  { guard := g }

/-- NOP (R117). -/
def infoNop (g : Guard) : Info :=
  { guard := g }

/-- HALT (R433). -/
def infoHalt (g : Guard) : Info :=
  { guard := g }

/-- PARK (R120). -/
def infoPark (g : Guard) (_o : Fin 2097152) : Info :=
  { guard := g, fx := .reads, commit := true, seqOk := false }

/-- TSET (R209). -/
def infoTset (g : Guard) (b : Fin 64) (a : Fin 64) : Info :=
  { guard := g, refs := [.rd .g b, .rd .g a], gang := true }

/-- TGET (R209). -/
def infoTget (g : Guard) (a : Fin 64) (d : Fin 64) : Info :=
  { guard := g, refs := [.rd .g a, .wr .g d], lat := .fixed 8, gang := true }

/-- TBIND (R209). -/
def infoTbind (g : Guard) (b : Fin 64) (a : Fin 64) : Info :=
  { guard := g, refs := [.rd .g a, .rd .h b], gang := true }

/-- TDROP (R209). -/
def infoTdrop (g : Guard) (a : Fin 64) : Info :=
  { guard := g, refs := [.rd .g a], gang := true }

/-- TCHK (R211). -/
def infoTchk (g : Guard) (a : Fin 64) (d : Fin 64) : Info :=
  { guard := g, refs := [.rd .g a, .wr .g d], lat := .fixed 8, gang := true }

/-- LBRW (R213). -/
def infoLbrw (g : Guard) (a : Fin 64) (d : Fin 64) : Info :=
  { guard := g, refs := [.rd .g a, .wr .h d], commit := true, mem := true, gang := true }

/-- LPREF (R216). -/
def infoLpref (g : Guard) (a : Fin 64) : Info :=
  { guard := g, refs := [.rd .g a], gang := true, mem := true }

/-- LSTAT (R216). -/
def infoLstat (g : Guard) (a : Fin 64) (d : Fin 64) : Info :=
  { guard := g, refs := [.rd .g a, .wr .g d], lat := .fixed 60, gang := true, mem := true }

/-- LRET (R216). -/
def infoLret (g : Guard) (b : Fin 64) (a : Fin 64) : Info :=
  { guard := g, refs := [.rw .h a], ok := decide (b.val < 2), commit := true, gang := true, mem := true }

/-- LRETRY (R215). -/
def infoLretry (g : Guard) (a : Fin 64) (d : Fin 64) : Info :=
  { guard := g, refs := [.rd .g a, .wr .g d], gang := true, mem := true }

/-- LPIN (R216). -/
def infoLpin (g : Guard) (a : Fin 64) : Info :=
  { guard := g, refs := [.rd .g a], gang := true, mem := true }

/-- LUNPIN (R216). -/
def infoLunpin (g : Guard) (a : Fin 64) : Info :=
  { guard := g, refs := [.rd .g a], gang := true, mem := true }

/-- MCFG (R199). -/
def infoMcfg (g : Guard) (b : Fin 64) (a : Fin 64) : Info :=
  { guard := g, refs := [.rd .g a], ok := decide (b.val < 2), laneOk := false }

/-- MCOMMIT (R199). -/
def infoMcommit (g : Guard) : Info :=
  { guard := g, laneOk := false }

/-- MMA (R200). -/
def infoMma (g : Guard) (b : Fin 64) (a : Fin 64) : Info :=
  { guard := g, refs := [.rd .g b, .rd .g a], laneOk := false }

/-- MZERO (R202). -/
def infoMzero (g : Guard) (a : Fin 64) : Info :=
  { guard := g, refs := [.rd .g a], laneOk := false }

/-- MFEED (R202). -/
def infoMfeed (g : Guard) (a : Fin 64) : Info :=
  { guard := g, refs := [.rd .g a], laneOk := false }

/-- MDRAIN (R203). -/
def infoMdrain (g : Guard) (a : Fin 64) : Info :=
  { guard := g, refs := [.rd .g a], laneOk := false }

/-- MWAIT (R204). -/
def infoMwait (g : Guard) (a : Fin 64) : Info :=
  { guard := g, refs := [.rd .g a], laneOk := false }

/-- MCHAIN (R204). -/
def infoMchain (g : Guard) (a : Fin 64) : Info :=
  { guard := g, refs := [.rd .g a], laneOk := false }

/-- MFSR (R220). -/
def infoMfsr (g : Guard) (r : Fin 4096) (d : Fin 64) : Info :=
  { guard := g, refs := [.wrN .g d (sysRegs r.val)], lat := .fixed 4, priv := decide (r.val = 0x020), sysReads := [r.val], laneOk := sysOnLane r.val, seqOk := sysOnSeq r.val }

/-- MTSR (R220). -/
def infoMtsr (g : Guard) (r : Fin 4096) (d : Fin 64) : Info :=
  { guard := g, refs := [.rdN .g d (sysRegs r.val)], lat := .fixed 4, gang := true, priv := decide (r.val = 0x020), sysWrites := if sysWritable r.val then [r.val] else [], laneOk := sysOnLane r.val, seqOk := sysOnSeq r.val }

/-- TRET (R221). -/
def infoTret (g : Guard) : Info :=
  { guard := g, commit := true, gang := true, seqOk := false }

/-- TRET_SKIP (R221). -/
def infoTretSkip (g : Guard) : Info :=
  { guard := g, commit := true, gang := true, seqOk := false }

/-- HALT_CTX (R222). -/
def infoHaltCtx (g : Guard) : Info :=
  { guard := g, gang := true }

/-- ECALL (R222). -/
def infoEcall (g : Guard) (_s : Fin 4096) (d : Fin 64) : Info :=
  { guard := g, refs := [.rw .g d], commit := true, gang := true }

/-- DBGMARK (R222). -/
def infoDbgmark (g : Guard) (_s : Fin 4096) (d : Fin 64) : Info :=
  { guard := g, refs := [.rd .g d], gang := true }

/-- TLBI (R223). -/
def infoTlbi (g : Guard) (b : Fin 64) (a : Fin 64) : Info :=
  { guard := g, refs := [.rdN .g a 2, .rd .g b], commit := true, gang := true, priv := true, seqOk := false }

/-- L2WB (R223). -/
def infoL2wb (g : Guard) (b : Fin 64) (a : Fin 64) (d : Fin 64) : Info :=
  { guard := g, refs := [.rdN .g a 2, .rd .g b], ok := decide (d.val < 2), commit := true, gang := true, priv := true, seqOk := false }

/-- L2CFG (R460). -/
def infoL2cfg (g : Guard) (b : Fin 64) (a : Fin 64) : Info :=
  { guard := g, refs := [.rd .g a, .rd .g b], commit := true, gang := true, priv := true, seqOk := false }

/-- OWALK (R223). -/
def infoOwalk (g : Guard) (b : Fin 64) (a : Fin 64) (d : Fin 64) : Info :=
  { guard := g, refs := [.rd .g a, .wr .g d], ok := decide (b.val < 2), commit := true, gang := true, priv := true, seqOk := false }

/-- BIAS (R406). -/
def infoBias (g : Guard) (b : Fin 64) (a : Fin 64) : Info :=
  { guard := g, refs := [.rdN .g a 2], ok := decide (b.val < 2), commit := true, gang := true, priv := true, seqOk := false }

/-- MIGR (R407). -/
def infoMigr (g : Guard) (b : Fin 64) (a : Fin 64) : Info :=
  { guard := g, refs := [.rdN .g a 2, .rdN .g b 2], commit := true, gang := true, priv := true, seqOk := false }

/-- INVL1 (R223). -/
def infoInvl1 (g : Guard) (b : Fin 64) (a : Fin 64) : Info :=
  { guard := g, refs := [.rd .g a], ok := decide (b.val < 2), commit := true, gang := true, priv := true, seqOk := false }

/-- PCNT (R439). -/
def infoPcnt (g : Guard) (b : Fin 64) (a : Fin 64) (d : Fin 64) : Info :=
  { guard := g, refs := [.rd .g a, .rd .g b, .wrN .g d 2], commit := true, gang := true, priv := true, seqOk := false }

/-- What an encoded instruction requires; the device's own steps and the host's commands have no words. -/
def infoOf : Instr → Option Info
  | .add16 s d => some (infoAdd16 s d)
  | .sub16 s d => some (infoSub16 s d)
  | .and16 s d => some (infoAnd16 s d)
  | .or16 s d => some (infoOr16 s d)
  | .xor16 s d => some (infoXor16 s d)
  | .shl16 s d => some (infoShl16 s d)
  | .shr16 s d => some (infoShr16 s d)
  | .sar16 s d => some (infoSar16 s d)
  | .mov16 s d => some (infoMov16 s d)
  | .movi5 i d => some (infoMovi5 i d)
  | .fadd16 s d => some (infoFadd16 s d)
  | .fsub16 s d => some (infoFsub16 s d)
  | .fmul16 s d => some (infoFmul16 s d)
  | .fmin16 s d => some (infoFmin16 s d)
  | .fmax16 s d => some (infoFmax16 s d)
  | .addi5 i d => some (infoAddi5 i d)
  | .guardNop z m => some (infoGuardNop z m)
  | .add g b a d => some (infoAdd g b a d)
  | .sub g b a d => some (infoSub g b a d)
  | .addc g b a d => some (infoAddc g b a d)
  | .subb g b a d => some (infoSubb g b a d)
  | .minS32 g b a d => some (infoMinS32 g b a d)
  | .maxS32 g b a d => some (infoMaxS32 g b a d)
  | .minN32 g b a d => some (infoMinN32 g b a d)
  | .maxN32 g b a d => some (infoMaxN32 g b a d)
  | .mul g b a d => some (infoMul g b a d)
  | .mulhiS32 g b a d => some (infoMulhiS32 g b a d)
  | .mulhiN32 g b a d => some (infoMulhiN32 g b a d)
  | .mad g b a d => some (infoMad g b a d)
  | .divS32 g b a d => some (infoDivS32 g b a d)
  | .divN32 g b a d => some (infoDivN32 g b a d)
  | .remS32 g b a d => some (infoRemS32 g b a d)
  | .remN32 g b a d => some (infoRemN32 g b a d)
  | .and g b a d => some (infoAnd g b a d)
  | .or g b a d => some (infoOr g b a d)
  | .xor g b a d => some (infoXor g b a d)
  | .andn g b a d => some (infoAndn g b a d)
  | .orn g b a d => some (infoOrn g b a d)
  | .xnor g b a d => some (infoXnor g b a d)
  | .not g a d => some (infoNot g a d)
  | .mov g a d => some (infoMov g a d)
  | .shl g b a d => some (infoShl g b a d)
  | .shr g b a d => some (infoShr g b a d)
  | .sar g b a d => some (infoSar g b a d)
  | .rotl g b a d => some (infoRotl g b a d)
  | .rotr g b a d => some (infoRotr g b a d)
  | .bfeN32 g b a d => some (infoBfeN32 g b a d)
  | .bfeS32 g b a d => some (infoBfeS32 g b a d)
  | .bfi g b a d => some (infoBfi g b a d)
  | .popc g a d => some (infoPopc g a d)
  | .clz g a d => some (infoClz g a d)
  | .ctz g a d => some (infoCtz g a d)
  | .brev g a d => some (infoBrev g a d)
  | .bperm g b a d => some (infoBperm g b a d)
  | .abs g a d => some (infoAbs g a d)
  | .neg g a d => some (infoNeg g a d)
  | .sext g b a d => some (infoSext g b a d)
  | .addi g i a d => some (infoAddi g i a d)
  | .shlImm g i a d => some (infoShlImm g i a d)
  | .shrImm g i a d => some (infoShrImm g i a d)
  | .sarImm g i a d => some (infoSarImm g i a d)
  | .rotlImm g i a d => some (infoRotlImm g i a d)
  | .movl g i d => some (infoMovl g i d)
  | .movh g i d => some (infoMovh g i d)
  | .add64 g b a d => some (infoAdd64 g b a d)
  | .sub64 g b a d => some (infoSub64 g b a d)
  | .mul64lo g b a d => some (infoMul64lo g b a d)
  | .mulwS32 g b a d => some (infoMulwS32 g b a d)
  | .mulwN32 g b a d => some (infoMulwN32 g b a d)
  | .shl64 g b a d => some (infoShl64 g b a d)
  | .shr64 g b a d => some (infoShr64 g b a d)
  | .sar64 g b a d => some (infoSar64 g b a d)
  | .icmpEq g c b a d => some (infoIcmpEq g c b a d)
  | .icmpNe g c b a d => some (infoIcmpNe g c b a d)
  | .icmpLt g c s b a d => some (infoIcmpLt g c s b a d)
  | .icmpLe g c s b a d => some (infoIcmpLe g c s b a d)
  | .icmpGt g c s b a d => some (infoIcmpGt g c s b a d)
  | .icmpGe g c s b a d => some (infoIcmpGe g c s b a d)
  | .fcmpEq g c u b a d => some (infoFcmpEq g c u b a d)
  | .fcmpNe g c b a d => some (infoFcmpNe g c b a d)
  | .fcmpLt g c u b a d => some (infoFcmpLt g c u b a d)
  | .fcmpLe g c u b a d => some (infoFcmpLe g c u b a d)
  | .fcmpGt g c u b a d => some (infoFcmpGt g c u b a d)
  | .fcmpGe g c u b a d => some (infoFcmpGe g c u b a d)
  | .pand g b a d => some (infoPand g b a d)
  | .por g b a d => some (infoPor g b a d)
  | .pxor g b a d => some (infoPxor g b a d)
  | .pandn g b a d => some (infoPandn g b a d)
  | .pnot g a d => some (infoPnot g a d)
  | .p2g g d => some (infoP2g g d)
  | .g2p g a => some (infoG2p g a)
  | .pset g a d => some (infoPset g a d)
  | .voteAnyP g b a d => some (infoVoteAnyP g b a d)
  | .voteAllP g b a d => some (infoVoteAllP g b a d)
  | .voteCountP g b a d => some (infoVoteCountP g b a d)
  | .voteBallotP g b a d => some (infoVoteBallotP g b a d)
  | .voteAnyFx g b a d => some (infoVoteAnyFx g b a d)
  | .voteAllFx g b a d => some (infoVoteAllFx g b a d)
  | .voteCountFx g b a d => some (infoVoteCountFx g b a d)
  | .voteBallotFx g b a d => some (infoVoteBallotFx g b a d)
  | .fxrd g d => some (infoFxrd g d)
  | .fxclr g b => some (infoFxclr g b)
  | .fxor g a => some (infoFxor g a)
  | .fxtest g b d => some (infoFxtest g b d)
  | .shflIdx g m b a d => some (infoShflIdx g m b a d)
  | .shflUp g m b a d => some (infoShflUp g m b a d)
  | .shflDown g m b a d => some (infoShflDown g m b a d)
  | .shflXor g m b a d => some (infoShflXor g m b a d)
  | .xredAdd g m b a d => some (infoXredAdd g m b a d)
  | .xredMin g m b a d => some (infoXredMin g m b a d)
  | .xredMax g m b a d => some (infoXredMax g m b a d)
  | .xredLogic g m b a d => some (infoXredLogic g m b a d)
  | .xscanAddInc g m b a d => some (infoXscanAddInc g m b a d)
  | .xscanAddExc g m b a d => some (infoXscanAddExc g m b a d)
  | .xscanMaxInc g m b a d => some (infoXscanMaxInc g m b a d)
  | .xscanMaxExc g m b a d => some (infoXscanMaxExc g m b a d)
  | .sadd g b a d => some (infoSadd g b a d)
  | .ssub g b a d => some (infoSsub g b a d)
  | .sand g b a d => some (infoSand g b a d)
  | .sor g b a d => some (infoSor g b a d)
  | .sshl g b a d => some (infoSshl g b a d)
  | .sshr g b a d => some (infoSshr g b a d)
  | .s2g g a d => some (infoS2g g a d)
  | .g2s g a d => some (infoG2s g a d)
  | .sv g a d => some (infoSv g a d)
  | .mset g a d => some (infoMset g a d)
  | .mget g a d => some (infoMget g a d)
  | .mand g b a d => some (infoMand g b a d)
  | .mor g b a d => some (infoMor g b a d)
  | .mfromp g a d => some (infoMfromp g a d)
  | .fadd g b a d => some (infoFadd g b a d)
  | .fsub g b a d => some (infoFsub g b a d)
  | .fmul g b a d => some (infoFmul g b a d)
  | .ffma g b a d => some (infoFfma g b a d)
  | .fmin g b a d => some (infoFmin g b a d)
  | .fmax g b a d => some (infoFmax g b a d)
  | .fabs g a d => some (infoFabs g a d)
  | .fneg g a d => some (infoFneg g a d)
  | .faddBf16x2 g b a d => some (infoFaddBf16x2 g b a d)
  | .fmulBf16x2 g b a d => some (infoFmulBf16x2 g b a d)
  | .ffmaBf16x2 g b a d => some (infoFfmaBf16x2 g b a d)
  | .faddF16x2 g b a d => some (infoFaddF16x2 g b a d)
  | .fmulF16x2 g b a d => some (infoFmulF16x2 g b a d)
  | .ffmaF16x2 g b a d => some (infoFfmaF16x2 g b a d)
  | .fmaxBf16x2 g b a d => some (infoFmaxBf16x2 g b a d)
  | .fminBf16x2 g b a d => some (infoFminBf16x2 g b a d)
  | .dot2Bf16 g b a d => some (infoDot2Bf16 g b a d)
  | .dot2F16 g b a d => some (infoDot2F16 g b a d)
  | .dot4E4m3 g b a d => some (infoDot4E4m3 g b a d)
  | .dot4E5m2 g b a d => some (infoDot4E5m2 g b a d)
  | .dot8E2m1 g b a d => some (infoDot8E2m1 g b a d)
  | .idot4S8 g b a d => some (infoIdot4S8 g b a d)
  | .idot4N8 g b a d => some (infoIdot4N8 g b a d)
  | .rcp g a d => some (infoRcp g a d)
  | .rsq g a d => some (infoRsq g a d)
  | .sqrt g a d => some (infoSqrt g a d)
  | .exp2 g a d => some (infoExp2 g a d)
  | .log2 g a d => some (infoLog2 g a d)
  | .sin g a d => some (infoSin g a d)
  | .cos g a d => some (infoCos g a d)
  | .tanh g a d => some (infoTanh g a d)
  | .fcvt g r e s a d => some (infoFcvt g r e s a d)
  | .qencE2m1 g a d => some (infoQencE2m1 g a d)
  | .qdecE2m1 g b a d => some (infoQdecE2m1 g b a d)
  | .pk2Bf16 g a d => some (infoPk2Bf16 g a d)
  | .pk2F16 g a d => some (infoPk2F16 g a d)
  | .pk4E4m3 g a d => some (infoPk4E4m3 g a d)
  | .pk4E5m2 g a d => some (infoPk4E5m2 g a d)
  | .unpkE4m3 g a d => some (infoUnpkE4m3 g a d)
  | .unpkE5m2 g a d => some (infoUnpkE5m2 g a d)
  | .fclass g a d => some (infoFclass g a d)
  | .frnd g a d => some (infoFrnd g a d)
  | .fgetexp g a d => some (infoFgetexp g a d)
  | .fscale g b a d => some (infoFscale g b a d)
  | .fcopysign g b a d => some (infoFcopysign g b a d)
  | .fsat g a d => some (infoFsat g a d)
  | .ld g z s q x h d => some (infoLd g z s q x h d)
  | .ldi g z i h d => some (infoLdi g z i h d)
  | .ldv g z v x h d => some (infoLdv g z v x h d)
  | .st g z r x h d => some (infoSt g z r x h d)
  | .sti g z i h d => some (infoSti g z i h d)
  | .pref g x h => some (infoPref g x h)
  | .touch g x h => some (infoTouch g x h)
  | .probe g x h d => some (infoProbe g x h d)
  | .farAddS32 g t x h d => some (infoFarAddS32 g t x h d)
  | .farAddF32 g t x h d => some (infoFarAddF32 g t x h d)
  | .farAddBf16x2 g t x h d => some (infoFarAddBf16x2 g t x h d)
  | .farMinS32 g t x h d => some (infoFarMinS32 g t x h d)
  | .farMaxS32 g t x h d => some (infoFarMaxS32 g t x h d)
  | .farMinN32 g t x h d => some (infoFarMinN32 g t x h d)
  | .farMaxN32 g t x h d => some (infoFarMaxN32 g t x h d)
  | .farMinF32 g t x h d => some (infoFarMinF32 g t x h d)
  | .farMaxF32 g t x h d => some (infoFarMaxF32 g t x h d)
  | .farAnd g t x h d => some (infoFarAnd g t x h d)
  | .farOr g t x h d => some (infoFarOr g t x h d)
  | .farXor g t x h d => some (infoFarXor g t x h d)
  | .farExch g t x h d => some (infoFarExch g t x h d)
  | .farCas g t x h d => some (infoFarCas g t x h d)
  | .farIncWrap g t x h d => some (infoFarIncWrap g t x h d)
  | .farDecWrap g t x h d => some (infoFarDecWrap g t x h d)
  | .faroAddS32 g w x h d => some (infoFaroAddS32 g w x h d)
  | .faroExchB32 g w x h d => some (infoFaroExchB32 g w x h d)
  | .faroCasB32 g w x h d => some (infoFaroCasB32 g w x h d)
  | .faroAddN64 g w x h d => some (infoFaroAddN64 g w x h d)
  | .faroExchB64 g w x h d => some (infoFaroExchB64 g w x h d)
  | .faroCasB64 g w x h d => some (infoFaroCasB64 g w x h d)
  | .faroMinN64 g w x h d => some (infoFaroMinN64 g w x h d)
  | .faroMaxN64 g w x h d => some (infoFaroMaxN64 g w x h d)
  | .sigAdd g x h d => some (infoSigAdd g x h d)
  | .sigMax g x h d => some (infoSigMax g x h d)
  | .sigWaitGe g x h d => some (infoSigWaitGe g x h d)
  | .sigWaitEq g x h d => some (infoSigWaitEq g x h d)
  | .sigTest g x h d => some (infoSigTest g x h d)
  | .borrowX g x s h => some (infoBorrowX g x s h)
  | .borrowS g x s h => some (infoBorrowS g x s h)
  | .borrowXTry g k x s h => some (infoBorrowXTry g k x s h)
  | .borrowSTry g k x s h => some (infoBorrowSTry g k x s h)
  | .reborrowX g x s h => some (infoReborrowX g x s h)
  | .reborrowS g x s h => some (infoReborrowS g x s h)
  | .split2 g x s h => some (infoSplit2 g x s h)
  | .split4 g x s h => some (infoSplit4 g x s h)
  | .split8 g x s h => some (infoSplit8 g x s h)
  | .join g s => some (infoJoin g s)
  | .give g x s => some (infoGive g x s)
  | .freeze g s => some (infoFreeze g s)
  | .thaw g s => some (infoThaw g s)
  | .returnBlk g s => some (infoReturnBlk g s)
  | .returnCore g s => some (infoReturnCore g s)
  | .returnDie g s => some (infoReturnDie g s)
  | .returnDev g s => some (infoReturnDev g s)
  | .returnSys g s => some (infoReturnSys g s)
  | .bstat g x s => some (infoBstat g x s)
  | .bdrop g s => some (infoBdrop g s)
  | .fenceAcq g b a => some (infoFenceAcq g b a)
  | .fenceRel g b a => some (infoFenceRel g b a)
  | .fenceAcqrel g b a => some (infoFenceAcqrel g b a)
  | .dflush g => some (infoDflush g)
  | .rcv g a => some (infoRcv g a)
  | .barSync g b a => some (infoBarSync g b a)
  | .barArrive g b a => some (infoBarArrive g b a)
  | .barWait g b a => some (infoBarWait g b a)
  | .copy g k x s h => some (infoCopy g k x s h)
  | .copyShadow g k x s h => some (infoCopyShadow g k x s h)
  | .publish g h => some (infoPublish g h)
  | .cpwait g x => some (infoCpwait g x)
  | .cpstat g x h => some (infoCpstat g x h)
  | .cpcancel g h => some (infoCpcancel g h)
  | .mbpost g b a => some (infoMbpost g b a)
  | .spawn g a d => some (infoSpawn g a d)
  | .hqpost g b a => some (infoHqpost g b a)
  | .hqtake g a d => some (infoHqtake g a d)
  | .hqpeek g a d => some (infoHqpeek g a d)
  | .sleepUntil g a => some (infoSleepUntil g a)
  | .yield g => some (infoYield g)
  | .dadd g b a d => some (infoDadd g b a d)
  | .dsub g b a d => some (infoDsub g b a d)
  | .dmul g b a d => some (infoDmul g b a d)
  | .ddiv g b a d => some (infoDdiv g b a d)
  | .dmin g b a d => some (infoDmin g b a d)
  | .dmax g b a d => some (infoDmax g b a d)
  | .dmix g x b a d => some (infoDmix g x b a d)
  | .dscale g x a d => some (infoDscale g x a d)
  | .dshift g x a d => some (infoDshift g x a d)
  | .dmap g f a d => some (infoDmap g f a d)
  | .dneg g a d => some (infoDneg g a d)
  | .dmov g a d => some (infoDmov g a d)
  | .dcond g f x a d => some (infoDcond g f x a d)
  | .dtag g f x a d => some (infoDtag g f x a d)
  | .dnorm g a d => some (infoDnorm g a d)
  | .dsrc g x d => some (infoDsrc g x d)
  | .dpush g x d => some (infoDpush g x d)
  | .dpushw g x d => some (infoDpushw g x d)
  | .dld g k x h d => some (infoDld g k x h d)
  | .dst g k x h d => some (infoDst g k x h d)
  | .dselV g k x a => some (infoDselV g k x a)
  | .dselW g k x a => some (infoDselW g k x a)
  | .dmass g x a => some (infoDmass g x a)
  | .dmom1 g x a => some (infoDmom1 g x a)
  | .dmom2c g x a => some (infoDmom2c g x a)
  | .dmom3c g x a => some (infoDmom3c g x a)
  | .dmom4c g x a => some (infoDmom4c g x a)
  | .dqnt g x a => some (infoDqnt g x a)
  | .dcdf g x a => some (infoDcdf g x a)
  | .dlo g x a => some (infoDlo g x a)
  | .dhi g x a => some (infoDhi g x a)
  | .bra g o => some (infoBra g o)
  | .call g o => some (infoCall g o)
  | .jmp g a => some (infoJmp g a)
  | .ret g a => some (infoRet g a)
  | .exit g => some (infoExit g)
  | .rgn g => some (infoRgn g)
  | .brk g b => some (infoBrk g b)
  | .trap g b => some (infoTrap g b)
  | .nop g => some (infoNop g)
  | .halt g => some (infoHalt g)
  | .park g o => some (infoPark g o)
  | .tset g b a => some (infoTset g b a)
  | .tget g a d => some (infoTget g a d)
  | .tbind g b a => some (infoTbind g b a)
  | .tdrop g a => some (infoTdrop g a)
  | .tchk g a d => some (infoTchk g a d)
  | .lbrw g a d => some (infoLbrw g a d)
  | .lpref g a => some (infoLpref g a)
  | .lstat g a d => some (infoLstat g a d)
  | .lret g b a => some (infoLret g b a)
  | .lretry g a d => some (infoLretry g a d)
  | .lpin g a => some (infoLpin g a)
  | .lunpin g a => some (infoLunpin g a)
  | .mcfg g b a => some (infoMcfg g b a)
  | .mcommit g => some (infoMcommit g)
  | .mma g b a => some (infoMma g b a)
  | .mzero g a => some (infoMzero g a)
  | .mfeed g a => some (infoMfeed g a)
  | .mdrain g a => some (infoMdrain g a)
  | .mwait g a => some (infoMwait g a)
  | .mchain g a => some (infoMchain g a)
  | .mfsr g r d => some (infoMfsr g r d)
  | .mtsr g r d => some (infoMtsr g r d)
  | .tret g => some (infoTret g)
  | .tretSkip g => some (infoTretSkip g)
  | .haltCtx g => some (infoHaltCtx g)
  | .ecall g s d => some (infoEcall g s d)
  | .dbgmark g s d => some (infoDbgmark g s d)
  | .tlbi g b a => some (infoTlbi g b a)
  | .l2wb g b a d => some (infoL2wb g b a d)
  | .l2cfg g b a => some (infoL2cfg g b a)
  | .owalk g b a d => some (infoOwalk g b a d)
  | .bias g b a => some (infoBias g b a)
  | .migr g b a => some (infoMigr g b a)
  | .invl1 g b a => some (infoInvl1 g b a)
  | .pcnt g b a d => some (infoPcnt g b a d)
  | .coldReset => none
  | .watchdogTimeout => none
  | .watchdogKick => none
  | .throttleEvaluation => none
  | .throttleWindowStart => none
  | .linkReceive => none
  | .issueArbitration => none
  | .icacheLineArrive => none
  | .registerWriteComplete => none
  | .meshRequestArrive => none
  | .homeServe => none
  | .dramSupply => none
  | .valueReturn => none
  | .rebuildWord => none
  | .rowSpareCopy => none
  | .storeBeatDrain => none
  | .crosslaneDeadlock => none
  | .borrowRequestArrive => none
  | .borrowGrant => none
  | .borrowAnswer => none
  | .writebackComplete => none
  | .writebackFail => none
  | .sleepUntilWake => none
  | .cpwaitWake => none
  | .yieldExpire => none
  | .publishPerform => none
  | .copyComplete => none
  | .hqEntryEnter => none
  | .mailboxRunStart => none
  | .dflushDrain => none
  | .detEndDrain => none
  | .engineOpBegin => none
  | .engineOpComplete => none
  | .mcommitClear => none
  | .tileFetchArrive => none
  | .ttabWriteComplete => none
  | .handlerEntry => none
  | .sresumeWrite _ _ => none
  | .registerWrite _ _ _ => none
  | .translationComplete => none
  | .nqheadWrite _ => none
  | .sweepComplete => none
  | .l2wbComplete => none
  | .l2cfgSwitch => none
  | .l2cfgReplayReceive => none
  | .owalkComplete => none
  | .invl1Complete => none
  | .biasFlipComplete => none
  | .bisnpResponse _ _ => none
  | .migrationSweepTick => none
  | .migrationPullComplete => none
  | .poolFlushDeadline => none
  | .poolGangHost => none
  | .poolGangReady => none
  | .slotTrigger _ => none
  | .launchParse => none
  | .launchComplete => none
  | .mailboxUnbind _ => none
  | .startTimeMet => none
  | .retenPass => none
  | .passTimer => none
  | .blockStart => none
  | .detStartNotice => none
  | .suspendComplete => none
  | .prioritySuspend => none
  | .reclaimWalk => none
  | .calicoSwapinStart => none
  | .calicoLineArrive => none
  | .calicoObjectPublish => none
  | .swapinTimeout => none
  | .layerEvictComplete => none
  | .atsCompletion _ _ => none
  | .atsInvalidation _ _ => none
  | .inboundAccess _ => none
  | .inboundFaultTimeout => none
  | .nakResend => none
  | .reqx _ => none
  | .reqs _ => none
  | .grant _ => none
  | .deny _ => none
  | .msgReturn _ => none
  | .lreturn _ => none
  | .renew _ => none
  | .renewed _ => none
  | .recall _ => none
  | .wbdone _ => none
  | .renewTimer => none
  | .leaseExpiry => none
  | .lostHolderTimeout => none
  | .readRequest _ => none
  | .farOperationPacket _ => none
  | .signalPacket _ => none
  | .mailboxMessage _ => none
  | .postedWrite _ => none
  | .readData _ => none
  | .completion _ => none
  | .farOpResult _ => none
  | .nak _ => none
  | .creditReturn _ _ _ => none
  | .flitCheckFail _ => none
  | .linkFailure _ => none
  | .linkRequestTimeout => none
  | .snpdata _ => none
  | .snpinv _ => none
  | .snpcur _ => none
  | .hostMemRead _ _ => none
  | .hostMemWrite _ _ _ => none
  | .cxlCacheData _ _ _ => none
  | .create => none
  | .suspend => none
  | .resume => none
  | .kill => none
  | .pagedoneMapped => none
  | .pagedoneUnmappable => none
  | .biasHost => none
  | .biasDevice => none
  | .route => none
  | .keycreate => none
  | .keydrop => none
  | .rkey => none
  | .range => none
  | .linkreset => none
  | .dbgattach => none
  | .dbgdetach => none
  | .dbghalt => none
  | .dbgresume => none
  | .dbgstops => none
  | .slotread => none
  | .trace => none
  | .recover => none
  | .crashread => none
  | .reset => none
  | .ecallNone => none
  | .ecallPost => none
  | .ecallThrottle => none
  | .ecallResets => none
  | .getVersion _ => none
  | .getCapabilities _ => none
  | .negotiateAlgorithms _ => none
  | .getDigests _ => none
  | .getCertificate _ => none
  | .challenge _ => none
  | .getMeasurements _ => none
  | .keyExchange _ => none
  | .finish _ => none
  | .linkTrained _ => none
  | .unlistedCommand => none
  | .unlistedEcallService => none
  | .unknownOwnershipMessage _ => none
  | .retenFatal => none

end Sys2Proof.Machine
end

