-- ==== Sys2Proof/Machine/Store.lean ====
section
/-! DEFINITION. Finite maps as sorted lists: the one form in which the model keeps registers, memories and tables. -/

namespace Sys2Proof.Machine

/-- A finite map from numbers, kept as a list of pairs. -/
abbrev Store (α : Type) := List (Nat × α)

namespace Store
variable {α : Type}

/-- The entry of a key. -/
def find? : Store α → Nat → Option α
  | [], _ => none
  | (k, v) :: r, key => if k = key then some v else find? r key

/-- The entry of a key, or `d` for a key that is not listed. -/
def get (d : α) (m : Store α) (key : Nat) : α := (m.find? key).getD d

/-- The map without a key. -/
def erase : Store α → Nat → Store α
  | [], _ => []
  | (k, v) :: r, key => if k = key then erase r key else (k, v) :: erase r key

/-- Insertion before the first greater key. -/
def insert : Store α → Nat → α → Store α
  | [], key, v => [(key, v)]
  | (k, w) :: r, key, v => if key < k then (key, v) :: (k, w) :: r else (k, w) :: insert r key v

/-- The map with a key's entry replaced. -/
def put (m : Store α) (key : Nat) (v : α) : Store α := (m.erase key).insert key v

/-- The map with a key's value replaced, where `d` is the value of every key that is not listed: such a value is never
listed, so that equal maps are equal lists. -/
def set [DecidableEq α] (d : α) (m : Store α) (key : Nat) (v : α) : Store α :=
  if v = d then m.erase key else m.put key v

/-- The values, in ascending order of their keys. -/
def vals (m : Store α) : List α := m.map Prod.snd

/-- The keys. -/
def keys (m : Store α) : List Nat := m.map Prod.fst

/-- Every entry changed by a function of its key and value. -/
def mapKV (f : Nat → α → α) : Store α → Store α
  | [] => []
  | (k, v) :: r => (k, f k v) :: mapKV f r

/-- One entry changed, if it is there. -/
def modify (m : Store α) (key : Nat) (f : α → α) : Store α :=
  match m.find? key with
  | some v => m.put key (f v)
  | none => m

/-- The first entry, in ascending order of keys, that meets a test. -/
def firstWhere (p : Nat → α → Bool) : Store α → Option (Nat × α)
  | [] => none
  | (k, v) :: r => if p k v then some (k, v) else firstWhere p r

/-- The least key at or above `n` that is not listed (searched in `fuel` steps). -/
def freshKey (m : Store α) : Nat → Nat → Nat
  | 0, n => n
  | fuel + 1, n => if (m.find? n).isSome then freshKey m fuel (n + 1) else n

end Store

/-- Whether the keys of a list rise strictly, all of them above `lo`. -/
def risingAbove : Nat → List (Nat × Byte) → Bool
  | _, [] => true
  | lo, (k, v) :: r => decide (lo ≤ k) && v != 0 && risingAbove (k + 1) r

/-- Memory: the bytes that are not zero, in ascending order of their locations. -/
abbrev Memory := List Host.Cell

namespace Memory

/-- The one canonical form of a memory: locations rise strictly and no listed byte is zero, which is what an unlisted
location reads as. -/
def wf (m : Memory) : Bool := risingAbove 0 m

/-- The byte at a location. -/
def read (m : Memory) (a : Nat) : Byte := Store.get (α := Byte) 0 m a

/-- The memory with one byte replaced. -/
def write (m : Memory) (a : Nat) (v : Byte) : Memory := Store.set (α := Byte) 0 m a v

/-- The memory with the bytes of a list written at ascending locations. -/
def writeBytes (m : Memory) (a : Nat) : List Byte → Memory
  | [] => m
  | b :: r => writeBytes (m.write a b) (a + 1) r

/-- `n` bytes read at ascending locations. -/
def readBytes (m : Memory) (a : Nat) : Nat → List Byte
  | 0 => []
  | n + 1 => m.read a :: readBytes m (a + 1) n

end Memory

/-- The little-endian value of a list of bytes (R9). -/
def leValue : List Byte → Nat
  | [] => 0
  | b :: r => b.toNat + 256 * leValue r

/-- `n` bytes of a value, little-endian (R9). -/
def leBytes : Nat → Nat → List Byte
  | 0, _ => []
  | n + 1, v => BitVec.ofNat 8 v :: leBytes n (v / 256)

/-- Bits [hi:lo] of a number (R9). -/
def bits (v hi lo : Nat) : Nat := v / 2 ^ lo % 2 ^ (hi + 1 - lo)

/-- Bit n of a number. -/
def bit (v n : Nat) : Bool := v / 2 ^ n % 2 == 1

/-- A number with bits [hi:lo] replaced. -/
def setBits (v hi lo x : Nat) : Nat :=
  v - bits v hi lo * 2 ^ lo + x % 2 ^ (hi + 1 - lo) * 2 ^ lo

/-- The first `some` that a function gives along a list. -/
def firstSome {α β : Type} (f : α → Option β) : List α → Option β
  | [] => none
  | a :: r => match f a with
    | some b => some b
    | none => firstSome f r

/-- Insertion before the first element that `before` places after it. -/
def insertBy {α : Type} (before : α → α → Bool) (x : α) : List α → List α
  | [] => [x]
  | y :: r => if before x y then x :: y :: r else y :: insertBy before x r

/-- A list in order, by a test of which element comes first; elements that come first in the list stay first where the test
holds both ways. -/
def sortBy {α : Type} (before : α → α → Bool) : List α → List α
  | [] => []
  | x :: r => insertBy before x (sortBy before r)

/-- The numbers of a mask's set bits below `n`, ascending. -/
def maskList (m : Dword) (n : Nat) : List Nat := (List.range n).filter (fun k => m.getLsbD k)

/-- The mask of a list of numbers. -/
def listMask (l : List Nat) : Dword := l.foldl (fun m k => m ||| ((1 : Dword) <<< k)) 0

/-- The number of set bits below `n`. -/
def maskCount (m : Dword) (n : Nat) : Nat := (maskList m n).length

end Sys2Proof.Machine
end

