-- ==== Sys2Proof/Machine/Engine.lean ====
section
/-! DEFINITION. The state of an engine: a gang with its lanes, or a sequencer stream (R191, R225 to R231, R316).

A sequencer is held as an engine of one lane, whose g registers are c0 to c63 (R62). -/

namespace Sys2Proof.Machine

/-- A distribution register: eight points of a value and a weight, a tag set and a lineage (R170). -/
structure Dist where
  pts : List (Nat × Nat)
  tags : Nat
  lineage : Nat
deriving DecidableEq, Repr

/-- The empty distribution register (R170). -/
def Dist.empty : Dist := ⟨List.replicate 8 (0, 0), 0, 0⟩

/-- The kind of a region register (R259). -/
inductive RegionKind | none | exclusive | shared
deriving DecidableEq, Repr

/-- A region register (R259).  The parent is named by its engine and register; the gang index that the image shows is
that engine's.  `split` says that the children were made by a split, whose parent thaws only at `join` (R260). -/
structure Region where
  kind : RegionKind
  base : Nat
  extent : Nat
  obj : Nat
  version : Nat
  tensor : Nat
  parent : Option (Nat × Nat)
  frozenChild : Bool
  frozenSelf : Bool
  readOnly : Bool
  layer : Bool
  writingBack : Bool
  child : Bool
  split : Bool
  status : Nat
  children : Nat
deriving DecidableEq, Repr

/-- A region register that holds no borrow. -/
def Region.empty : Region :=
  { kind := .none, base := 0, extent := 0, obj := 0, version := 0, tensor := 0, parent := none, frozenChild := false,
    frozenSelf := false, readOnly := false, layer := false, writingBack := false, child := false, split := false, status := 0,
    children := 0 }

/-- What a lane is doing (R70, R371). -/
inductive LaneStatus
  | noThread | ready | exited | parked | waiting | sleeping (id : Nat)
deriving DecidableEq, Repr

/-- One translation that a lane's last-page register or a TLB holds (R395): the virtual page with its size, the frame and
the permissions. -/
structure PageEntry where
  ctx : Nat
  vpage : Nat
  size : Nat
  frame : Nat
  read : Bool
  write : Bool
  exec : Bool
deriving DecidableEq, Repr

/-- A lane and the thread it holds (R231, R371). -/
structure Lane where
  launch : Nat
  block : Nat
  thread : Nat
  regs : Store Word
  preds : BitVec 8
  fx : Fx
  dists : Store Dist
  pc : Word
  restart : Word
  issued : Bool
  status : LaneStatus
  held : Bool
  stopped : Bool
  handler : Bool
  lastPage : Option PageEntry
deriving DecidableEq, Repr

/-- A lane slot without a thread; p0 reads true (R43). -/
def Lane.empty : Lane :=
  { launch := 0, block := 0, thread := 0, regs := [], preds := 1, fx := 0, dists := [], pc := 0, restart := 0,
    issued := false, status := .noThread, held := false, stopped := false, handler := false, lastPage := none }

/-- What an entry of the scoreboard covers (R73): a register, fx, or a system register until an `mtsr` of it can be read (R220);
`mem` holds the later accesses of some lanes behind an acquire, a fence or a far operation that waits for its page (R146, R151,
R285, R314).  Two kinds block nothing themselves: `load` stands while a load of some lanes that needs no request returns, and `fence`
while stores that a release must follow are still buffered (R161, R280, R285). -/
inductive SbKey
  | reg (cls : RegClass) (num : Nat) | fxRaise | fxEdit | sys (num : Nat) | mem (lanes : Dword) | load (lanes : Dword) | fence (lanes : Dword)
deriving DecidableEq, Repr

/-- A pending write: it completes in cycle `due`, or when the waiting operation `tag` completes. -/
structure SbEntry where
  key : SbKey
  due : Option Nat
  tag : Nat
deriving DecidableEq, Repr

/-- The values that an arrived lane presented: its source words (R106). -/
structure Arrived where
  a : Dword
  b : Word
deriving DecidableEq, Repr

/-- What an instance does when it completes: the forms of R110 to R113, R162 and R163 with their destination. -/
inductive CrossOp
  | vote (minor d : Nat)
  | shfl (op d : Nat)
  | xred (op ty d : Nat)
  | xscan (op ty d : Nat)
  | rcv
  | bar (form : Nat) (cohort : Option Nat)
  | dflush
deriving DecidableEq, Repr

/-- An open instance of a cross-lane instruction, `rcv`, barrier or `dflush` (R106): the lanes that arrived and those that
were absent with a false guard, and the tag of its scoreboard entries. -/
structure Instance where
  pc : Word
  len : Nat
  insn : Word
  op : CrossOp
  mask : Dword
  absent : Dword
  arrived : Store Arrived
  tag : Nat
deriving DecidableEq, Repr

/-- One store instruction's bytes within one aligned 128-byte line (R307): the locations and bytes, the tag that they take in L1, and
whether the store is a release (R146); once committed, the cycle in which it has drained (R308). -/
structure Beat where
  space : Nat
  addr : Nat
  obj : Nat
  version : Nat
  cells : List Host.Cell
  due : Nat
  rel : Bool := false
deriving DecidableEq, Repr

/-- The kind of an engine. -/
inductive EngineKind | gang | seq
deriving DecidableEq, Repr

/-- Where an engine stands in the package (R69, R78, R229). -/
structure Place where
  die : Nat
  cluster : Nat
  core : Nat
  slot : Nat
  groups : Nat
  window : Nat
deriving DecidableEq, Repr

/-- A gang, or a sequencer stream.  `ended` says that it holds nothing more on its core; `broken` that it stopped for good
(R351) and did not end; `slotUntil` is the cycle until which it holds its issue slot (R79). -/
structure Engine where
  kind : EngineKind
  place : Place
  launch : Nat
  ctx : Nat
  block : Option Nat
  gangIndex : Nat
  width : Nat
  nregs : Nat
  ndist : Nat
  prio : Nat
  lastIssue : Option Nat
  slotUntil : Nat
  yieldFrom : Option Nat
  ended : Bool
  broken : Bool
  asleep : Bool
  lanes : Store Lane
  sregs : Store Word
  masks : Store Dword
  regions : Store Region
  fpm : Word
  tmode : Word
  tvec : Word
  savep : Dword
  sresume : Word
  inHandler : Bool
  haltPend : Bool
  cycHi : Option Word
  ptimeHi : Option Word
  entries : Nat
  beats : List Beat
  draining : List Beat
  sb : List SbEntry
  open_ : List Instance
  arrivals : List (Nat × Nat)
  tcb : Store Word
  staged : Store Word
  committed : Bool
  chained : Bool
  parkPoolPc : Nat
  leftAt : Word × Dword
deriving DecidableEq, Repr

/-- An engine with nothing in it: the values of R228 and R192 before its place, lanes and borrows are set. -/
def Engine.blank : Engine :=
  { kind := .gang, place := ⟨0, 0, 0, 0, 0, 0⟩, launch := 0, ctx := 0, block := none, gangIndex := 0, width := 16,
    nregs := 64, ndist := 0, prio := 0, lastIssue := none, slotUntil := 0, yieldFrom := none, ended := false, broken := false, asleep := false,
    lanes := [], sregs := [], masks := [], regions := [], fpm := 0, tmode := 0, tvec := 0, savep := 0, sresume := 0,
    inHandler := false, haltPend := false, cycHi := none, ptimeHi := none, entries := 0, beats := [], draining := [],
    sb := [], open_ := [], arrivals := [], tcb := [], staged := [], committed := false, chained := false,
    parkPoolPc := 0, leftAt := (0, 0) }

namespace Lane

/-- A g register of the lane. -/
def reg (l : Lane) (r : Nat) : Word := Store.get 0 l.regs r

/-- The lane with a g register written; g0 is an ordinary register (R48). -/
def setReg (l : Lane) (r : Nat) (v : Word) : Lane := { l with regs := Store.set 0 l.regs r v }

/-- The 64-bit value of an even pair (R14). -/
def pair (l : Lane) (r : Nat) : Dword := l.reg (r + 1) ++ l.reg r

/-- The lane with a pair written (R14). -/
def setPair (l : Lane) (r : Nat) (v : Dword) : Lane :=
  (l.setReg r (v.setWidth 32)).setReg (r + 1) ((v >>> 32).setWidth 32)

/-- A predicate; p0 reads true (R43). -/
def pred (l : Lane) (p : Nat) : Bool := p == 0 || l.preds.getLsbD p

/-- The lane with a predicate written; a write to p0 is discarded (R48). -/
def setPred (l : Lane) (p : Nat) (v : Bool) : Lane :=
  if p = 0 then l
  else { l with preds := if v then l.preds ||| ((1 : BitVec 8) <<< p) else l.preds &&& ~~~((1 : BitVec 8) <<< p) }

/-- A distribution register. -/
def dist (l : Lane) (d : Nat) : Dist := Store.get .empty l.dists d

/-- The lane with a distribution register written. -/
def setDist (l : Lane) (d : Nat) (v : Dist) : Lane := { l with dists := Store.set .empty l.dists d v }

/-- The lane with flags raised; flags are sticky (R34). -/
def raise (l : Lane) (f : Fx) : Lane := { l with fx := l.fx ||| f }

/-- Whether the guard of an instruction holds in the lane (R43). -/
def guard (l : Lane) (g : Guard) : Bool := l.pred g.p != g.neg

/-- Whether the lane still takes part in its gang (R118, R226). -/
def live (l : Lane) : Bool :=
  match l.status with
  | .noThread | .exited | .parked => false
  | _ => true

/-- Whether the lane may issue (R70). -/
def readyToIssue (l : Lane) : Bool := l.status == .ready && !l.held && !l.stopped

end Lane

namespace Engine

def lane (e : Engine) (k : Nat) : Lane := (e.lanes.find? k).getD .empty

def setLane (e : Engine) (k : Nat) (l : Lane) : Engine := { e with lanes := e.lanes.put k l }

/-- The lanes of a mask changed. -/
def mapLanes (e : Engine) (m : Dword) (f : Nat → Lane → Lane) : Engine :=
  { e with lanes := e.lanes.mapKV fun k l => if m.getLsbD k then f k l else l }

/-- The mask of the lanes that meet a test. -/
def lanesWhere (e : Engine) (p : Nat → Lane → Bool) : Dword :=
  listMask ((e.lanes.filter fun kl => p kl.1 kl.2).map Prod.fst)

/-- The lanes of a mask, ascending. -/
def lanesOf (e : Engine) (m : Dword) : List (Nat × Lane) :=
  (List.range 64).filterMap fun k => if m.getLsbD k then (e.lanes.find? k).map fun l => (k, l) else none

/-- The lowest lane of a mask. -/
def lowest (e : Engine) (m : Dword) : Nat :=
  match e.lanesOf m with
  | (k, _) :: _ => k
  | [] => 0

def sreg (e : Engine) (r : Nat) : Word := Store.get 0 e.sregs r

def setSreg (e : Engine) (r : Nat) (v : Word) : Engine := { e with sregs := Store.set 0 e.sregs r v }

def mask (e : Engine) (r : Nat) : Dword := Store.get 0 e.masks r

def setMask (e : Engine) (r : Nat) (v : Dword) : Engine := { e with masks := Store.set 0 e.masks r v }

def region (e : Engine) (r : Nat) : Region := Store.get .empty e.regions r

def setRegion (e : Engine) (r : Nat) (v : Region) : Engine := { e with regions := Store.set .empty e.regions r v }

def isSeq (e : Engine) : Bool := e.kind == .seq

/-- The declared register count; 64 on the sequencer (R48). -/
def regCount (e : Engine) : Nat := if e.isSeq then 64 else e.nregs

/-- The rounding of FP32 arithmetic: FPM.RM (R25). -/
def rounding (e : Engine) : Rounding := .plain (roundOfRm (e.fpm.toNat % 8))

/-- FPM.DPH (R25). -/
def dph (e : Engine) : Nat := e.fpm.toNat / 256 % 8

end Engine

/-- The core's number in the package, 0 to 511. -/
def Place.coreId (p : Place) : Nat := (p.die * 16 + p.cluster) * 8 + p.core

/-- The cluster's number in the package, 0 to 63. -/
def Place.clusterId (p : Place) : Nat := p.die * 16 + p.cluster

end Sys2Proof.Machine
end

