-- ==== Sys2Proof/Machine/State.lean ====
section
/-! DEFINITION. The state of the device: plain data, every piece of state that the spec gives the machine. -/

namespace Sys2Proof.Machine

/-! ## Issue, traps and waits -/

/-- The trap causes (R318). -/
inductive Cause
  | illegal | priv | refuse | mask | page | promise | fpx | dep | swap | poison | align | bkpt | trapi | tilecfg
  | detorder | storebuf | imprecise | halt | preempt | format
deriving DecidableEq, Repr

/-- The unit of a core whose queue an instruction enters, and the cycles for which it is served there (R79, R80, R175). -/
inductive UnitUse | none | sfu (cycles : Nat) | damask (cycles : Nat)
deriving DecidableEq, Repr

/-- The instruction being executed: the engine that issues it, its program counter, the lanes that stand there, those of
them whose guard is found false, its words, its length in bytes, the cycles that pass before its unit serves it (R79, R81), and
that unit. -/
structure Issue where
  eng : Nat
  pc : Word
  lanes : Dword
  away : Dword
  insn : Word
  len : Nat
  late : Nat := 0
  unit : UnitUse := .none
deriving DecidableEq, Repr

/-- A trap to be taken (R316, R318). -/
structure TrapReq where
  eng : Nat
  cause : Cause
  lanes : Dword
  pc : Word
  insn : Word
  faddr : Nat
  detail : Nat
deriving DecidableEq, Repr

/-- Where a copy stands. -/
inductive CopyStatus | inFlight | stalled | complete | failed | cancelled
deriving DecidableEq, Repr

/-- A copy (R164, R302): its engine, cluster and core, its regions as they stood at issue, its moves (source address,
destination address, bytes), the bytes moved so far, the promise T, the slots it still holds, the cycle in which it completes
after its last slot, whether a poisoned or unreachable source was met, and the source bytes that came from another package. -/
structure Copy where
  id : Nat
  eng : Nat
  pc : Word
  cluster : Nat
  core : Nat
  src : Region
  dest : Region
  destReg : Nat
  shadow : Bool
  moves : List (Nat × Nat × Nat)
  bytes : Nat
  moved : Nat
  promise : Nat
  slots : List Nat
  finish : Nat
  status : CopyStatus
  bad : Bool
  data : Store Byte
deriving DecidableEq, Repr

/-- Why lanes sleep, with what wakes them. -/
inductive WaitKind
  | until_ (cycle : Nat)
  | copies (cycle : Nat)
  | borrow (req : Nat)
  | join (region : Nat)
  | signal
  | value
  | barrier (home : Nat) (phase : Nat)
  | arrive (form : Nat) (cohort : Option Nat) (mask : Dword)
  | dflush
  | publish (region : Nat)
  | shadow (copy : Copy) (dest : Nat)
  | hqPost (queue : Nat) (value : Dword)
  | hqTake (queue : Nat) (dest : Nat)
  | tensorWrite (cycle : Nat) (cells : List Host.Cell)
  | layer (layer : Nat) (obj : Nat) (dest : Nat)
  | retry (layer : Nat) (dest : Nat)
  | spawn (slot : Nat) (dest : Nat)
  | spawned (cycle slot : Nat) (id : Option Nat) (dest : Nat)
  | engineOps (count : Nat)
  | commitTcb
  | spanMma (a b s : Nat) (recA recB : List Byte) (asked : List (Nat × Nat)) (data : Store Byte)
  | rendezvous (value : Word)
  | reten (service : Nat) (arg : Word) (dest : Nat)
  | maint (kind : Nat) (cycle : Nat) (a : Nat) (b : Nat) (dest : Nat)
  | page (report faddr detail : Nat)
deriving DecidableEq, Repr

/-- A waiting operation: its engine and lanes, the instruction it stands at and what it waits for. -/
structure Wait where
  id : Nat
  eng : Nat
  lanes : Dword
  pc : Word
  insn : Word
  len : Nat
  commit : Bool
  kind : WaitKind
deriving DecidableEq, Repr

/-! ## Blocks, pool and hand-off queues (R234 to R246, R163, R168) -/

/-- A phase of a barrier: the gangs that have arrived and the mask value the first of them set (R163). -/
structure Barrier where
  phase : Nat
  mask : Option Dword
  arrived : List Nat
deriving DecidableEq, Repr

/-- A barrier before its first arrival. -/
def Barrier.fresh : Barrier := ⟨0, none, []⟩

/-- A resident block, or one whose threads have not all exited (R242). -/
structure Block where
  launch : Nat
  index : Nat
  place : Place
  slot : Nat
  record : Nat
  scratchOff : Nat
  scratchLen : Nat
  gangs : List Nat
  resident : Bool
  threads : Nat
  exited : Nat
  barrier : Barrier
  drains : Nat
  ended : Bool
deriving DecidableEq, Repr

/-- A thread record of the continuation pool (R235); `number` is its place k in the pool. -/
structure PoolRecord where
  number : Nat
  launch : Nat
  block : Nat
  thread : Nat
  pc : Word
  preds : BitVec 8
  fx : Fx
  arrive : Nat
  regs : List Word
  dists : List Dist
deriving DecidableEq, Repr

/-- A bin, claimed by a launch and a program counter (R234), its records in arrival order. -/
structure Bin where
  launch : Nat
  pc : Word
  records : List PoolRecord
deriving DecidableEq, Repr

/-- A formed gang that waits for a core, or for its records to be copied into its window (R238, R239). -/
structure Formed where
  bin : Nat
  launch : Nat
  pc : Word
  records : List PoolRecord
  hosted : Option (Nat × Nat)
deriving DecidableEq, Repr

/-- The continuation pool of a cluster (R234). -/
structure Pool where
  bins : Store Bin
  formed : List Formed
deriving DecidableEq, Repr

/-! ## The matrix engine (R198 to R204, R293 to R301) -/

/-- The kind of an engine operation (R198). -/
inductive EngineOpKind
  | mma (a b s : Nat) | zero (tiles : Nat) | feed (t : Nat) | drain (t : Nat) (clear : Bool) (dph : Nat)
deriving DecidableEq, Repr

/-- An engine operation in a cluster's queue (R198, R293): the records it read at its issue with the object and version of
the region that covers each, the active TCB words, the tiles it writes, and how far it has come: its begin cycle, F, the cycles X
added so far and the steps performed (R296); and what the tile fetch unit does for it (R295 to R299): the lines in its hands with
their locations, the lines that DRAM supplies in a cycle, the lines asked for, those to be fetched again for a later step, the
poisoned ones, the first poisoned address that a step met, and the bytes. -/
structure EngineOp where
  id : Nat
  kind : EngineOpKind
  eng : Nat
  pc : Word
  insn : Word
  recA : List Byte
  recB : List Byte
  holdA : Nat × Nat
  holdB : Nat × Nat
  cfg : Nat × Nat
  tiles : Nat
  issue : Nat
  began : Option Nat
  fill : Nat
  extra : Nat
  step : Nat
  hand : List (Nat × Nat)
  pend : List (Nat × Nat)
  asked : List (Nat × Nat)
  stale : List Nat
  sick : List Nat
  met : Option Nat
  group : Option Nat
  data : Store Byte
deriving DecidableEq, Repr

/-- The matrix state of a cluster: the operation queue, the completion cycle of the last operation, the tile exception
records (R300), the chained operations so far (R204), whether an `mcommit` waits, the poison that the next `mwait` reports and
the last poisoned address (R299), and the cycles in which loads from each tile return (R301). -/
structure Matrix where
  queue : List EngineOp
  lastDone : Nat
  lastWasMma : Bool
  records : Store Nat
  mmaCount : Nat
  commitWait : Bool
  psnMet : Option Nat
  psnLast : Nat
  loads : Store Nat
deriving DecidableEq, Repr

/-- A cluster's matrix state before anything has run. -/
def Matrix.idle : Matrix := ⟨[], 0, false, [], 0, false, none, 0, []⟩

/-! ## Memory (R257, R298, R452, R476) -/

/-- What one core's L1 holds under one object and version (R257): the lines that are present and the dirty bytes, by
location. -/
structure L1Tag where
  core : Nat
  obj : Nat
  version : Nat
  lines : List Nat
  bytes : Store Byte
deriving DecidableEq, Repr

/-- How a load that is sent to its home takes its bytes (R145, R257, R269): the object and version of its region, whether its line enters
L1, and by their place in the access the bytes that its core supplied at the issue. -/
structure LoadFrom where
  obj : Nat
  version : Nat
  fill : Bool
  given : List (Nat × Byte)
deriving DecidableEq, Repr

/-- The operation of a mesh request (R476): a load, store, far operation or signal, with its operand words. -/
inductive MeshOp
  | load (size : Nat) (signed : Bool) (src : LoadFrom)
  | store (bytes : List Byte)
  | far (op : Nat) (ret : Bool) (v w : Dword) (size : Nat)
  | faro (op : Nat) (order : Nat) (v w : Dword) (size : Nat)
  | sigAdd (v : Dword) | sigMax (v : Dword) | sigTest
  | sigWaitGe (v : Dword) | sigWaitEq (v : Dword)
deriving DecidableEq, Repr

/-- Where a mesh request stands on its way (R476): `after` in its core until earlier accesses are performed (R151, R285), `held` there
for its page (R314). -/
inductive MeshStage | travelling | queued | dram | returning | replayed | after | held (report : Nat)
deriving DecidableEq, Repr

/-- One lane's part of a mesh request: its lane, its location, its operation and the value it will return. -/
structure MeshPart where
  lane : Nat
  addr : Nat
  loc : Nat
  op : MeshOp
  value : Option (List Byte)
  done : Bool
deriving DecidableEq, Repr

/-- A mesh request (R476): the engine and the instruction's registers, the home slice, its place among same-cycle arrivals, its stage and
the cycle in which the stage ends, the cycle in which it arrived (R81), the object of its region, and whether it is a release. -/
structure MeshReq where
  id : Nat
  eng : Nat
  pc : Word
  dest : Nat
  home : Nat
  hops : Nat
  crossings : Nat
  order : Nat
  stage : MeshStage
  due : Nat
  wait : Nat
  parts : List MeshPart
  arrival : Nat := 0
  obj : Nat := 0
  rel : Bool := false
deriving DecidableEq, Repr

/-- A lane asleep at `sig.wait` (R153). -/
structure SigWaiter where
  loc : Nat
  eng : Nat
  lane : Nat
  dest : Nat
  ge : Bool
  value : Dword
  legs : Nat
  wait : Nat
deriving DecidableEq, Repr

/-- A far operation of a DET launch held in its core's buffer (R152): the engine and the program counter that issued it, with its object,
the block, gang, lane and order that fix its place, and whether it waits for the kernel's end. -/
structure DetHeld where
  core : Nat
  eng : Nat
  pc : Word
  ctx : Nat
  obj : Nat
  launch : Nat
  block : Nat
  gang : Nat
  lane : Nat
  seq : Nat
  atEnd : Bool
  loc : Nat
  op : Nat
  v : Dword
  w : Dword
deriving DecidableEq, Repr

/-! ## Ownership (R252, R256, R264) -/

/-- The KIND of an ownership entry (R253). -/
inductive EntryKind | free | idle | excl | shared | offered
deriving DecidableEq, Repr

/-- An ownership entry (R252, R253). -/
structure OwnEntry where
  kind : EntryKind
  base : Nat
  span : Nat
  version : Nat
  retired : Nat
  holders : Nat
  rholders : Nat
  scope : Nat
  writing : Bool
  ctx : Nat
  xlaunch : Nat
  xblock : Nat
  slaunch : Nat
  sblock : Nat
  detLaunch : Nat
  shadow : Bool
  shadowBy : Nat
  detRed : Bool
  abandoned : Bool
  reachCore : Nat
  layerEntry : Bool
  shadowFrames : Store (Option Byte)
  retiredFrames : Store Byte
  late : Store (Option Byte)
  returned : Option (Nat × Word × Dword)
deriving DecidableEq, Repr

/-- A free entry, every field 0 (R253). -/
def OwnEntry.blank : OwnEntry :=
  { kind := .free, base := 0, span := 0, version := 0, retired := 0, holders := 0, rholders := 0, scope := 0,
    writing := false, ctx := 0, xlaunch := 0, xblock := 0, slaunch := 0, sblock := 0, detLaunch := 0,
    shadow := false, shadowBy := 0, detRed := false, abandoned := false, reachCore := 0, layerEntry := false, shadowFrames := [],
    retiredFrames := [], late := [], returned := none }

/-- Who asks for a borrow: an engine, or the proxy of another package with the tag of its message (R411). -/
inductive Requester | eng (id : Nat) | package (pkg die tag : Nat)
deriving DecidableEq, Repr

/-- Where a borrow request stands: on its way to the ownership table of its own die, with a message to the home, waiting at
its entry, or answered with a status in a cycle. -/
inductive BorrowStage | issued | sent | queued | answered (due status : Nat)
deriving DecidableEq, Repr

/-- A borrow request (R154, R256): `pkg` is the package of the object's entry, none for this one; `parent` is hP; `pred` is
the predicate of a try form; `layer` is the layer of `lbrw`; `since` the cycle of its issue; `withdrawn` says that its lanes no longer wait for it (R374). -/
structure BorrowReq where
  id : Nat
  who : Requester
  pkg : Option Nat
  obj : Nat
  exclusive : Bool
  try_ : Bool
  tensor : Nat
  base : Nat
  extent : Nat
  dest : Nat
  parent : Option Nat
  pred : Nat
  layer : Option Nat
  order : Nat
  stage : BorrowStage
  version : Nat
  wait : Nat
  since : Nat := 0
  withdrawn : Bool := false
deriving DecidableEq, Repr

/-- A write-back of an object's dirty lines (R263 to R265): the scope it brings, the engine and register of the return that
started it, if one did, the package and die for an object of another package (R447), the DETAIL of a failure (R322), its lines, and
the bytes that it carries; the engine, `return` or `exit` and lanes that a failure is laid to, and the line that failed. -/
structure WriteBack where
  obj : Nat
  version : Nat
  core : Nat
  scope : Nat
  due : Nat
  origin : Option (Nat × Nat × Word)
  away : Option (Nat × Nat)
  fail : Nat
  lines : List Nat
  cells : List (Nat × Byte)
  blame : Option (Nat × Word × Dword)
  faddr : Nat := 0
deriving DecidableEq, Repr

/-- What a reclaim walk ends (R379): a launch, a context at KILL, or the stopped parties of a context at `owalk`. -/
inductive WalkFor | launch (id : Nat) | kill (ctx : Nat) | owalk (ctx wait : Nat) (reclaim : Bool)
deriving DecidableEq, Repr

/-- A reclaim walk (R380): the cycle in which it started and the groups of 256 entries that it has walked; `count` is the
borrows that an `owalk` has counted. -/
structure Walk where
  for_ : WalkFor
  start : Nat
  next : Nat
  count : Nat
deriving DecidableEq, Repr

/-! ## Launching and placement (R334 to R364) -/

/-- One cohort of a launch (R347): its member blocks, whether it is co-scheduled, its barrier home and its barrier. -/
structure Cohort where
  members : List Nat
  cosched : Bool
  home : Option Nat
  barrier : Barrier
deriving DecidableEq, Repr

/-- An image header (R344). -/
structure ImageHeader where
  gangw : Nat
  regs : Nat
  ndist : Nat
  kind : Nat
  scratch : Nat
  codelen : Nat
  code : Nat
  handler : Nat
  park : List Nat
deriving DecidableEq, Repr

/-- A header that names nothing. -/
def ImageHeader.blank : ImageHeader := ⟨16, 64, 0, 0, 0, 0, 0, 0xFFFFFFFF, []⟩

/-- A producer entry (R348). -/
structure Producer where
  launch : Nat
  slot : Nat
  map : Nat
  param : Nat
deriving DecidableEq, Repr

/-- A launch (R336, R340): what the dispatcher copied from its record, and where it stands.  `low` is its lowest unplaced block
and `ahead` the placed blocks above it; `complete` lists the complete blocks, `streams` the streams that run, `announced` the
number of started blocks that each die knows of with the cycle of the notice (R364); `failed` says that every party was stopped,
`barred` that no further block starts (R349), `err` that its completion signal received bit 63. -/
structure Launch where
  id : Nat
  order : Nat
  slot : Nat
  ctx : Nat
  det : Bool
  start : Option Nat
  startMet : Bool
  binding : Bool
  mbox : Nat
  run : Bool
  grid : Nat × Nat × Nat
  block : Nat × Nat × Nat
  prio : Nat
  queue : Nat
  seqMask : Nat
  donesig : Nat
  cbmap : Nat
  kernel : ImageHeader
  seq : ImageHeader
  arglen : Nat
  args : List Byte
  cohorts : List Cohort
  producers : List Producer
  low : Nat
  ahead : List Nat
  since : Option Nat
  reserved : Option Nat
  reservedAt : Nat
  streamsStarted : Bool
  streams : List Nat
  complete : List Nat
  announced : Store (Nat × Nat)
  failed : Bool
  barred : Bool
  err : Bool
  reclaimed : Bool
  detDrained : Bool
  retired : Bool
deriving DecidableEq, Repr

/-- A launch-window slot (R335, R336): whether it is BUSY, the words latched at the trigger, the latest launch with its trigger
count, and whether its record waits to be parsed; while it does, the record's 512 bytes once they are read, the number under which
the dispatcher asks for lines, and the bytes that came from another package. -/
structure Slot where
  busy : Bool
  latchedId : Nat
  latchedStatus : Nat
  launch : Nat
  order : Nat
  pending : Bool
  raw : List Byte := []
  reader : Nat := 0
  data : Store Byte := []
deriving DecidableEq, Repr

/-- A slot after reset. -/
def Slot.idle : Slot := { busy := false, latchedId := 0, latchedStatus := 0, launch := 0, order := 0, pending := false }

/-- A bound mailbox (R353): its binding launch, its waiting messages and its running handler run. -/
structure Mailbox where
  launch : Nat
  waiting : List (List Byte)
  running : Option Nat
deriving DecidableEq, Repr

/-- A bind record (R355). -/
structure BindRecord where
  die : Nat
  launch : Nat
  first : Nat
  count : Nat
  stride : Nat
  coreset : Nat
  prio : Nat
  state : Nat
  group : Nat
  cohort : Option Nat
  barhome : Nat
  next : Nat
  armcyc : Nat
  ended : Nat
deriving DecidableEq, Repr

/-! ## Contexts, layers and Calico (R365 to R389) -/

/-- The STATE of a context (R368). -/
inductive CtxState | free | active | suspending | suspended | resuming | killing
deriving DecidableEq, Repr

/-- A layer of a model context (R382, R384). -/
structure Layer where
  src : Nat
  len : Nat
  cls : Nat
  objs : List Nat
  state : Nat
  failed : Option Nat
  attempt : Nat
  pins : Nat
  lastBorrow : Nat
  holders : Nat
  early : Bool
  frames : Nat
  evictAt : Nat
  retrying : Bool
  frame : Option (List Byte)
deriving DecidableEq, Repr

/-- A swap-in in progress (R385): the context, layer and object, the cycle in which the next source line may be sent, the lines
sent, those on their way (line, cycle sent, cycle of arrival where it is known), the lines arrived, the cycle in which the
object is published, and the bytes that came from another package. -/
structure SwapIn where
  id : Nat
  ctx : Nat
  layer : Nat
  obj : Nat
  sendAt : Nat
  sent : Nat
  flying : List (Nat × Nat × Option Nat)
  arrived : Nat
  publishAt : Option Nat
  data : Store Byte
deriving DecidableEq, Repr

/-- An import entry of a context (R424). -/
structure ImportKey where
  pkg : Nat
  obj : Nat
  key : Nat
deriving DecidableEq, Repr

/-- A stop frame kept for the debugger (R435): the 64 bytes of its frame. -/
abbrev FrameImage := List Byte

/-- A context (R365, R368). -/
structure Context where
  state : CtxState
  ptb : Nat
  save : Nat
  savelen : Nat
  voile : Nat
  voilelen : Nat
  lookahead : Nat
  priomin : Nat
  slotFirst : Nat
  slotCount : Nat
  ngslot : Nat
  nbslot : Nat
  privileged : Bool
  model : Bool
  nsslot : Nat
  cores : Nat
  tensors : Store Byte
  layers : List Layer
  demand : List Nat
  prefetch : List Nat
  frames : Nat
  imports : Store ImportKey
  attached : Bool
  traceBase : Nat
  traceLen : Nat
  traceKinds : Nat
  traceCount : Nat
  stops : List FrameImage
  seq : Nat
  byPriority : Bool
  suspendAt : Nat
  saveDone : Nat
  gangSlots : List Nat
  blockSlots : List Nat
  seqSlots : List Nat
  matrices : Store Matrix
deriving DecidableEq, Repr

/-- A context before its descriptor is copied. -/
def Context.blank : Context :=
  { state := .free, ptb := 0, save := 0, savelen := 0, voile := 0, voilelen := 0, lookahead := 0, priomin := 0,
    slotFirst := 0, slotCount := 0, ngslot := 0, nbslot := 0, privileged := false, model := false, nsslot := 0,
    cores := 0, tensors := [], layers := [], demand := [], prefetch := [], frames := 0, imports := [],
    attached := false, traceBase := 0, traceLen := 0, traceKinds := 0, traceCount := 0, stops := [], seq := 0,
    byPriority := false, suspendAt := 0, saveDone := 0, gangSlots := [], blockSlots := [],
    seqSlots := [], matrices := [] }

/-! ## Translation and host memory (R390 to R410) -/

/-- The kind of an access that is translated (R398, R399). -/
inductive AccessKind | load | store | far | fetch | engine | inbound | touch
deriving DecidableEq, Repr

/-- A fault report that is outstanding (R399). -/
structure FaultReport where
  ctx : Nat
  seq : Nat
  page : Nat
  kind : Nat
  access : AccessKind
  va : Nat
  perm : Bool
deriving DecidableEq, Repr

/-- A pointer that a die's walk cache holds (R395): the table that the tables of a context name for the address bits
above a level. -/
structure WalkEntry where
  ctx : Nat
  level : Nat
  prefix_ : Nat
  table : Nat
deriving DecidableEq, Repr

/-- What an access does once it is translated; size code 7 is the image of a distribution register (R186). -/
inductive XlatWork
  | load (dest size : Nat) (signed : Bool)
  | fetch
deriving DecidableEq, Repr

/-- A load, `dld` or fetch that waits for its translation (R313, R396): its lanes with their addresses, the region's object and version,
the uncommitted beats that are older than it (R281), and the root of the page table at its start (R217). -/
structure PendingXlat where
  id : Nat
  eng : Nat
  pc : Word
  insn : Word
  len : Nat
  work : XlatWork
  obj : Nat
  version : Nat
  parts : List (Nat × Nat)
  due : Option Nat
  seen : Nat := 0
  stream : Bool := false
  root : Nat := 0
deriving DecidableEq, Repr

/-- What a sweep is for (R223, R404, R408). -/
inductive SweepFor | tlbi (wait : Nat) | migration (wait : Nat) | ats (iova len : Nat)
deriving DecidableEq, Repr

/-- A sweep in progress (R401): the context and the address range whose translations it removes, none for all of them, when it
reaches every core, the identifier before which an access counts as translated earlier, and what waits for it. -/
structure Sweep where
  ctx : Option Nat
  page : Option (Nat × Nat)
  reach : Nat
  before : Nat
  for_ : SweepFor
deriving DecidableEq, Repr

/-- A live migration (R407, R408): the old and the new frame, the lines whose valid bit is set, the locations already written in
lines whose bit is clear, the pulls in progress with their cycles, the line that the background sweep takes next and its cycle,
and whether the page's sweep of R401 still runs. -/
structure Migration where
  ctx : Nat
  va : Nat
  old : Nat
  new : Nat
  size : Nat
  valid : List Nat
  written : List Nat
  pulling : List (Nat × Nat)
  cursor : Nat
  nextTick : Nat
  sweeping : Bool
deriving DecidableEq, Repr

/-- A bias flip in progress (R406). -/
structure BiasFlip where
  page : Nat
  toHost : Bool
  due : Nat
  pending : List Nat
  wait : Option Nat
  cmd : Option Nat
deriving DecidableEq, Repr

/-- An access of another package that has passed its checks (R410, R425): on its way to its home and back, or held by the
adapter for a fault report, or with number 0 for a translation of the host. -/
structure HeldInbound where
  id : Nat
  acc : Inbound
  arrived : Nat
  ctx : Nat
  seq : Option Nat
deriving DecidableEq, Repr

/-! ## Dies, packages, links and the host (R411 to R430, R467 to R472) -/

/-- A proxy entry (R412, R413). -/
structure Proxy where
  die : Nat
  pkg : Option Nat
  obj : Nat
  holders : Nat
  exclusive : Bool
  version : Nat
  expiry : Option Nat
  recalled : Bool
  renewSent : Bool
  grants : Nat
  offered : Bool
deriving DecidableEq, Repr

/-- A lease as its home counts it (R413 to R416): the proxy's package and die, the cycle of the last grant or renewal and
whether a RECALL has been sent to it, and the GRANTs that have gone to that proxy under it. -/
structure Lease where
  pkg : Nat
  die : Nat
  since : Nat
  recalled : Bool
  count : Nat
deriving DecidableEq, Repr

/-- An export key (R424). -/
structure ExportKey where
  key : Nat
  ctx : Nat
  rights : Nat
  obj : Nat
  offset : Nat
  len : Nat
deriving DecidableEq, Repr

/-- A host physical range (R426). -/
structure HostRange where
  base : Nat
  len : Nat
  link : Nat
deriving DecidableEq, Repr

/-- A port of Abaot Link or a CXL link (R417, R419, R426, R430). -/
structure Link where
  trained : Bool
  failed : Bool
  credits : Store Nat
  errors : Nat
  flits : Nat
deriving DecidableEq, Repr

/-- A link before it trains. -/
def Link.down : Link := ⟨false, false, [], 0, 0⟩

/-- What leaves the package; `linkAck` is a link layer's acknowledgement of what it received, by a port of Abaot Link or else by CXL (R6). -/
inductive Outbound
  | own (m : OwnMsg)
  | packet (dst : Nat) (kind : Nat) (p : Packet)
  | cxlRead (hpa : Nat) (own : Bool)
  | cxlWrite (hpa : Nat) (data : List Byte) (poison : Bool)
  | bisnp (pa : Nat)
  | ats (iova : Nat)
  | atsDone (iova len : Nat)
  | memData (pa : Nat) (data : List Byte) (poison : Bool)
  | snoopResponse (hpa : Nat) (data : List Byte)
  | hostStore (hpa : Nat) (data : List Byte)
  | spdm (req : Nat) (data : List Byte)
  | msi (vector : Nat)
  | credit (port chan n : Nat)
  | linkAck (port : Option Nat)
deriving DecidableEq, Repr

/-- What a request to another package waits for: the packet's answer (R418, R421, R430).  `port` is the port by which it left; 16
while it is held for other writes (R422) or, as a release, for earlier accesses (R151), 17 before it has left.  `over` lists bytes that
the core supplied at a load's issue, by their place in it (R145). -/
structure RemoteReq where
  id : Nat
  pkg : Nat
  port : Nat
  sent : Nat
  kind : Nat
  eng : Nat
  pc : Word
  lane : Nat
  dest : Nat
  size : Nat
  signed : Bool
  addr : Nat
  wait : Nat
  resendAt : Option Nat
  packet : Packet
  given : List (Nat × Byte) := []
  rel : Bool := false
deriving DecidableEq, Repr

/-- A request to host or pool memory (R427, R428). -/
structure CxlReq where
  hpa : Nat
  sent : Nat
  own : Bool
  waiters : List Nat
deriving DecidableEq, Repr

/-- The CXL state of a line in one die (R427). -/
inductive LineState | m | o | e | s | i
deriving DecidableEq, Repr

/-! ## Errors, boot and power (R450 to R475) -/

/-- The kind of memory that guards its words by the symbol code (R450, R458). -/
structure MemoryUnit where
  mem : Nat
  die : Nat
  cluster : Nat
  core : Nat
deriving DecidableEq, Repr

/-- The state of a memory's banks (R453, R454): the failed banks that no spare has replaced, whether the spare is in use or being
filled, how many banks it has replaced, the lasting errors by bank and word, the rebuild walk with its next word and the cycle in
which it may take it, and whether the memory is to be retired. -/
structure BankState where
  unit : MemoryUnit
  failed : List Nat
  spareUsed : Bool
  replaced : Nat
  lasting : List (Nat × Nat)
  rebuild : Option (Nat × Nat)
  retired : Bool
deriving DecidableEq, Repr

/-- A word in which the next read finds an error (R451, R455): the memory, the word's address or array offset, its 18 symbols as they are
read (D_0 to D_15, P_0, P_1), and as a second read finds them once the corrected word has been written back. -/
structure SymbolRead where
  unit : MemoryUnit
  addr : Nat
  symbols : List Nat
  again : List Nat
deriving DecidableEq, Repr

/-- A DRAM row remapped to a spare row of its bank, or being copied to it (R456). -/
structure RowSpare where
  die : Nat
  bank : Nat
  row : Nat
  word : Nat
  nextAt : Nat
  done : Bool
deriving DecidableEq, Repr

/-- An error record (R458). -/
structure ErrorRecord where
  kind : Nat
  cls : Nat
  mem : Nat
  bank : Nat
  place : Nat
  addr : Nat
  cyc : Nat
  count : Nat
deriving DecidableEq, Repr

/-- A reconfiguration of a die's interleave domains (R460): the domain of every slice after it, the cycle of the switch once no
moving line is pinned, and the wait of its `l2cfg`. -/
structure L2Cfg where
  die : Nat
  domains : Store Nat
  due : Option Nat
  wait : Nat
deriving DecidableEq, Repr

/-- The boot modes (R463, R464): held in reset, waiting in recovery, or running Reten. -/
inductive BootMode | cold | recovery | running
deriving DecidableEq, Repr

/-- The clocks and the throttle (R5, R466, R474, R475): the level of this window and the one that Reten has set, the wall cycle of the
last window start, of the last kick of the watchdog and of the last evaluation. -/
structure Clock where
  cyc : Nat
  wall : Nat
  ptime : Nat
  throttle : Nat
  throttleNext : Nat
  window : Nat
  kick : Nat
  evaluated : Nat
deriving DecidableEq, Repr

/-- Flash, the configuration record in force, the recovery window, the running image with its SVN, and the crash record (R462 to
R466); whether KEY_EXCHANGE has set up a session, and whether a session has set the IDE keys (R472). -/
structure Boot where
  mode : BootMode
  flashImage : List Byte
  flashConfig : List Byte
  config : List Byte
  window : Store Byte
  image : List Byte
  svn : Nat
  resets : Nat
  cause : Nat
  crashWall : Nat
  crashPc : Nat
  crashSvn : Nat
  crashErrs : List ErrorRecord
  session : Bool
  ideKeys : Bool
deriving DecidableEq, Repr

/-- The engines and what they wait for; `sfu` and `damask` list, for each core, the cycles in which the service of its queues' entries
ends (R80). -/
structure Work where
  engines : Store Engine
  blocks : Store Block
  waits : List Wait
  traps : List TrapReq
  pools : Store Pool
  handoff : Store (List Dword)
  matrix : Store Matrix
  copies : List Copy
  lastCopy : Store Nat
  slots : Store (List Nat)
  sfu : Store (List Nat)
  damask : Store (List Nat)
deriving DecidableEq, Repr

/-- Memory and the requests on their way to it; `served` gives the cycle in which a slice's request queue (2 x slice) and its far-op unit
(2 x slice + 1) last served (R80). -/
structure Mem where
  cells : Memory
  l2 : Store Bool
  l1 : List L1Tag
  icache : List (Nat × Nat)
  icachePending : List (Nat × Nat × Nat)
  poison : List Nat
  mesh : Store MeshReq
  waiters : List SigWaiter
  held : List DetHeld
  served : Store Nat
deriving DecidableEq, Repr

/-- Ownership tables, proxies and leases; the tables' requests of this cycle, by die (R80); region registers that another gang gave, with
the cycle in which they are seen (R277); and children returned to a parent's register, with the cycle in which it counts them (R261). -/
structure Own where
  entries : Store OwnEntry
  requests : List BorrowReq
  writeBacks : List WriteBack
  proxies : List Proxy
  leases : Store (List Lease)
  gauze : Store Nat
  messages : List (Nat × OwnMsg)
  walks : List Walk
  tabled : List (Nat × Nat)
  moving : List (Nat × Nat × Nat × Region)
  childReturns : List (Nat × Nat × Nat)
deriving DecidableEq, Repr

/-- Launches, the launch window and placement; `counts` gives the trigger count of the latest launch that took each id (R336). -/
structure Launching where
  launches : Store Launch
  slots : Store Slot
  nextId : Nat
  triggers : Nat
  counts : Store Nat
  sealed : List Nat
  unsealed : List Nat
  queue : List Nat
  mailboxes : Store Mailbox
  binds : Store BindRecord
  passPending : Bool
  passTimer : Nat
  groups : Nat
  lastStart : Store Nat
  notices : List (Nat × Nat × Nat × Nat)
deriving DecidableEq, Repr

/-- Contexts and Calico. -/
structure Contexts where
  table : Store Context
  swapIns : List SwapIn
  turn : Nat
deriving DecidableEq, Repr

/-- Translation (R395 to R410) and bias (R405): `snoops` lists the 64-byte lines of device memory whose back-invalidation
awaits its response, `snooped` those whose response has come, and `snoopWrites` the writes that wait for one. -/
structure Xlat where
  core : Store (List PageEntry)
  cluster : Store (List PageEntry)
  die : Store (List PageEntry)
  walks : Store (List WalkEntry)
  pending : List PendingXlat
  ats : Store AtsAnswer
  atsPending : List Nat
  reports : List FaultReport
  sweeps : List Sweep
  hostBias : List Nat
  flips : List BiasFlip
  snoops : List Nat
  snooped : List Nat
  snoopWrites : List (Nat × List Host.Cell)
  migrations : List Migration
  inbound : List HeldInbound
deriving DecidableEq, Repr

/-- The host interface and the links. -/
structure HostIf where
  wire : List Input
  inbox : List Input
  ring : Store Byte
  cmdHead : Nat
  cmdTail : Nat
  nqBase : Nat
  nqLen : Nat
  nqHead : Nat
  nqTail : Nat
  nqHeld : List (List Byte)
  nqDropped : Nat
  out : List Outbound
  msi : List Nat
  routes : Store (List Nat)
  keys : Store ExportKey
  ranges : Store HostRange
  ports : Store Link
  cxl : Store Link
  lines : Store (List (Nat × LineState))
  cxlReqs : List CxlReq
  remote : List RemoteReq
  posted : Store Nat
  performed : Store Nat
  heldPackets : List (Nat × Packet)
  unsent : List (Nat × Nat × Packet)
  unsentOwn : List OwnMsg
  ecalls : List Nat
deriving DecidableEq, Repr

/-- Repair (R453 to R460). -/
structure Repair where
  banks : List BankState
  reads : List SymbolRead
  rows : List RowSpare
  rings : Store (List ErrorRecord)
  domains : Store Nat
  cfgs : List L2Cfg
  withdrawn : List Nat
  counters : Store Nat
  programs : Store Nat
deriving DecidableEq, Repr

/-- The device.  The last six fields are the model's own: the instruction that `exec` runs, the issues left in this
cycle, whether this cycle's issues have been chosen, the decoded words of the program counters that are candidates in this
cycle, the next fresh identifier and the next free value. -/
structure State where
  clock : Clock
  boot : Boot
  work : Work
  mem : Mem
  own : Own
  launch : Launching
  ctxs : Contexts
  xlat : Xlat
  host : HostIf
  repair : Repair
  cur : Option Issue
  agenda : List Issue
  arbitrated : Bool
  decoded : Store (Option (Instr × Info))
  nextId : Nat
  freeCtr : Nat
deriving DecidableEq, Repr

/-- Why the machine stops.  No rule of the spec stops the whole device; the one fault is the model's own. -/
inductive Fault where
  /-- Raised by an instruction's meaning when `exec` is called without an engine that issues the instruction.  Safe: the
  step function never calls it so. -/
  | noEngine
deriving DecidableEq, Repr

/-- Why an instruction has no meaning. -/
inductive Refusal where
  /-- The instruction has no meaning in this model yet; raised by the dispatcher's arm.  Safe: nothing is claimed. -/
  | notModelled (mnemonic : String)
deriving DecidableEq, Repr

/-! ## Reset -/

/-- The clocks at cold-reset release (R5). -/
def Clock.reset : Clock :=
  { cyc := 0, wall := 0, ptime := 0, throttle := 0, throttleNext := 0, window := 0, kick := 0, evaluated := 0 }

/-- Boot state after power-on (R463, R466): the boot ROM has not run yet. -/
def Boot.reset : Boot :=
  { mode := .cold, flashImage := [], flashConfig := [], config := [], window := [], image := [], svn := 0,
    resets := 0, cause := 0, crashWall := 0, crashPc := 0, crashSvn := 0, crashErrs := [],
    session := false, ideKeys := false }

def Work.reset : Work :=
  { engines := [], blocks := [], waits := [], traps := [], pools := [], handoff := [], matrix := [], copies := [],
    lastCopy := [], slots := [], sfu := [], damask := [] }

def Mem.reset : Mem :=
  { cells := [], l2 := [], l1 := [], icache := [], icachePending := [], poison := [], mesh := [], waiters := [],
    held := [], served := [] }

def Own.reset : Own :=
  { entries := [], requests := [], writeBacks := [], proxies := [], leases := [], gauze := [], messages := [],
    walks := [], tabled := [], moving := [], childReturns := [] }

/-- Every slot is IDLE (R335) and the first launch id is 1 (R336). -/
def Launching.reset : Launching :=
  { launches := [], slots := [], nextId := 1, triggers := 0, counts := [], sealed := [], unsealed := [], queue := [], mailboxes := [], binds := [],
    passPending := false, passTimer := 0, groups := 1, lastStart := [], notices := [] }

def Contexts.reset : Contexts := { table := [], swapIns := [], turn := 0 }

/-- Every page is device-biased (R405). -/
def Xlat.reset : Xlat :=
  { core := [], cluster := [], die := [], walks := [], pending := [], ats := [], atsPending := [], reports := [], sweeps := [], hostBias := [],
    flips := [], snoops := [], snooped := [], snoopWrites := [], migrations := [], inbound := [] }

def HostIf.reset : HostIf :=
  { wire := [], inbox := [], ring := [], cmdHead := 0, cmdTail := 0, nqBase := 0, nqLen := 0, nqHead := 0,
    nqTail := 0, nqHeld := [], nqDropped := 0, out := [], msi := [], routes := [], keys := [], ranges := [],
    ports := [], cxl := [], lines := [], cxlReqs := [], remote := [], posted := [], performed := [],
    heldPackets := [], unsent := [], unsentOwn := [], ecalls := [] }

/-- Counters are 0 at cold reset (R439); every slice is in domain 0 (R459). -/
def Repair.reset : Repair :=
  { banks := [], reads := [], rows := [], rings := [], domains := [], cfgs := [], withdrawn := [],
    counters := [], programs := [] }

/-- The device right after cold reset is released: no engine exists, memory lists nothing, and the boot ROM runs next
(R463). -/
def State.reset : State :=
  { clock := .reset, boot := .reset, work := .reset, mem := .reset, own := .reset, launch := .reset, ctxs := .reset,
    xlat := .reset, host := .reset, repair := .reset, cur := none, agenda := [], arbitrated := false, decoded := [], nextId := 1,
    freeCtr := 0 }

end Sys2Proof.Machine
end

