-- ==== Sys2Proof/Machine/Xlat.lean ====
section
/-! DEFINITION. Distances, homes and translation: the grid (R78), the interleave hash (R459), page-table walks and the
lookup path (R390 to R398), and the location of an address in each space (R272 to R275, R393, R394).

A location names one byte of the device: a device physical address, or one of the tagged numbers below. -/

namespace Sys2Proof.Machine

/-! ## Locations -/

/-- Host and pool memory at a host physical address. -/
def hostLoc (hpa : Nat) : Nat := 2 ^ 60 + hpa

/-- A byte of a core's scratchpad. -/
def scratchLoc (core byte : Nat) : Nat := 2 ^ 61 + core * 2 ^ 18 + byte

/-- A byte of a cluster's accumulator store. -/
def accLoc (cluster byte : Nat) : Nat := 2 ^ 62 + cluster * 2 ^ 21 + byte

/-- A byte of windows 0, 3 and 4 of the on-chip map (R274): it is part of an engine or a pool and not a memory cell. -/
def windowLoc (addr : Nat) : Nat := 2 ^ 63 + addr % 2 ^ 42

/-- Whether a location is device DRAM. -/
def isDram (loc : Nat) : Bool := decide (loc < 2 ^ 40)

/-- The 128-byte line of a location. -/
def lineOf (loc : Nat) : Nat := loc / 128

/-- Bits [63:60] of an address (R272). -/
def spaceOf (addr : Nat) : Nat := addr / 2 ^ 60 % 16

/-! ## The grid (R78) -/

def absDiff (a b : Nat) : Nat := max a b - min a b

/-- X and Y of a cluster of the package. -/
def gridX (c : Nat) : Nat := 4 * (c / 16 % 2) + c % 4
def gridY (c : Nat) : Nat := 4 * (c / 32) + c % 16 / 4

/-- h of R78. -/
def hops (a b : Nat) : Nat := absDiff (gridX a) (gridX b) + absDiff (gridY a) (gridY b)

/-- b of R78, between two dies. -/
def dieCrossings (a b : Nat) : Nat := absDiff (a % 2) (b % 2) + absDiff (a / 2) (b / 2)

/-- b of R78, between two clusters of the package. -/
def crossings (a b : Nat) : Nat := dieCrossings (a / 16) (b / 16)

/-- The L2 load latency of R77 between two clusters. -/
def l2Latency (a b : Nat) : Nat := 96 + 4 * hops a b + 36 * crossings a b

/-- The cycles that a DRAM access adds (R77). -/
def dramCycles : Nat := 220

/-! ## Homes (R459) -/

def xorNibbles : Nat → Nat → Nat
  | 0, _ => 0
  | n + 1, v => Nat.xor (v % 16) (xorNibbles n (v / 16))

/-- The domain that the configuration record gives a 16 GiB range (R459, R465). -/
def rangeDomain (s : State) (die range : Nat) : Nat :=
  leValue ((s.boot.config.drop (8 + 4 * die)).take 4) / 4 ^ range % 4

/-- The domain in which a slice stands; every slice starts in domain 0 (R459). -/
def sliceDomain (s : State) (cluster : Nat) : Nat := Store.get 0 s.repair.domains cluster

/-- The slices of a domain of a die, ascending. -/
def domainSlices (s : State) (die dom : Nat) : List Nat :=
  ((List.range 16).map (16 * die + ·)).filter fun c => sliceDomain s c == dom

/-- The slice of a domain that homes a line, with domain 0 where the domain is empty. -/
def sliceFor (s : State) (die dom line : Nat) : Nat :=
  let own := domainSlices s die dom
  let l := if own.isEmpty then domainSlices s die 0 else own
  if l.isEmpty then 16 * die else l.getD (xorNibbles 8 line % l.length) (16 * die)

/-- The cluster whose slice homes a location; lines of host memory are homed in domain 0 of the requester's die (R459). -/
def homeOf (s : State) (die loc : Nat) : Nat :=
  if isDram loc then
    let d := loc / 2 ^ 38
    sliceFor s d (rangeDomain s d (loc % 2 ^ 38 / 2 ^ 34)) (loc % 2 ^ 38 / 128)
  else sliceFor s die 0 ((loc - 2 ^ 60) / 128 % 2 ^ 31)

/-! ## Page tables (R390 to R392) -/

/-- A leaf that a walk reaches: its page size, the page's first frame byte, its target and permissions, and the level at
which it stands. -/
structure Leaf where
  size : Nat
  frame : Nat
  tgt : Nat
  w : Bool
  x : Bool
  level : Nat
  entry : Nat
deriving DecidableEq, Repr

/-- What a walk finds: a leaf, or the KIND of fault with the level and the entry (R399). -/
inductive WalkRes
  | leaf (l : Leaf)
  | fault (kind level entry : Nat)
deriving DecidableEq, Repr

/-- Eight bytes of device DRAM. -/
def ptWord (m : Memory) (a : Nat) : Nat := leValue (m.readBytes a 8)

/-- Bytes that a leaf maps at a level (R390). -/
def levelSize (level : Nat) : Nat := 2 ^ (12 + 9 * level)

/-- FRAME of an entry, as an address (R391). -/
def entryFrame (e : Nat) : Nat := bits e 53 12 * 2 ^ 12

/-- Whether a valid entry is malformed at a level (R391). -/
def entryMalformed (e level : Nat) : Bool :=
  bits e 63 56 != 0 || bits e 11 5 != 0 || decide (2 ≤ bits e 55 54)
    || (if bit e 1 then decide (3 ≤ level) || entryFrame e % levelSize level != 0
        else level == 0 || bits e 55 54 != 0 || bit e 4 || bit e 3 || bit e 2)

/-- The leaf of an entry on its own. -/
def entryLeaf (e level : Nat) : Leaf :=
  { size := levelSize level, frame := entryFrame e, tgt := bits e 55 54, w := bit e 2, x := bit e 3, level, entry := e }

/-- Whether 16 entries form one contiguous run (R392). -/
def runWhole (level : Nat) : List Nat → Bool
  | [] => false
  | e0 :: r =>
    entryFrame e0 % (16 * levelSize level) == 0 &&
      ((e0 :: r).zipIdx).all fun p =>
        bit p.1 0 && bit p.1 4 && bits p.1 55 54 == bits e0 55 54 && bit p.1 2 == bit e0 2 && bit p.1 3 == bit e0 3
          && entryFrame p.1 == entryFrame e0 + p.2 * levelSize level

/-- The page that a leaf entry gives: the whole run where CONT is set and the run is consistent (R392). -/
def leafAt (m : Memory) (table idx level e : Nat) : Leaf :=
  let one := entryLeaf e level
  if bit e 4 then
    let first := idx / 16 * 16
    let run := (List.range 16).map fun i => ptWord m (table + 8 * (first + i))
    if runWhole level run then
      { one with size := 16 * levelSize level, frame := entryFrame (run.headD 0) }
    else one
  else one

/-- The index of a virtual address at a level (R390). -/
def levelIndex (va level : Nat) : Nat := va / levelSize level % 512

/-- A walk from a table of a level down (R390, R391). -/
def walk (m : Memory) (va : Nat) : Nat → Nat → WalkRes
  | 0, table =>
    let e := ptWord m (table + 8 * levelIndex va 0)
    if !bit e 0 then .fault 1 0 e
    else if entryMalformed e 0 then .fault 3 0 e
    else .leaf (leafAt m table (levelIndex va 0) 0 e)
  | n + 1, table =>
    let e := ptWord m (table + 8 * levelIndex va (n + 1))
    if !bit e 0 then .fault 1 (n + 1) e
    else if entryMalformed e (n + 1) then .fault 3 (n + 1) e
    else if bit e 1 then .leaf (leafAt m table (levelIndex va (n + 1)) (n + 1) e)
    else walk m va n (entryFrame e % 2 ^ 40)

/-- The tables that a walk reads, with their levels, from a table of a level down. -/
def walkTables (m : Memory) (va : Nat) : Nat → Nat → List (Nat × Nat)
  | 0, table => [(0, table)]
  | n + 1, table =>
    let e := ptWord m (table + 8 * levelIndex va (n + 1))
    if bit e 0 && !entryMalformed e (n + 1) && !bit e 1 then
      (n + 1, table) :: walkTables m va n (entryFrame e % 2 ^ 40)
    else [(n + 1, table)]

/-! ## The lookup path (R395, R396) -/

/-- Where an address of an access leads. -/
inductive XRes
  | at_ (loc : Nat) (added : Nat) (entry : Option PageEntry)
  | fault (kind level entry : Nat) (added : Nat)
  | ats (iova : Nat) (added : Nat)
  | remote (pkg va : Nat)
  | outside
deriving DecidableEq, Repr

/-- Whether an entry translates an address of a context. -/
def PageEntry.covers (p : PageEntry) (ctx va : Nat) : Bool := p.ctx == ctx && va / p.size == p.vpage

def PageEntry.find (ctx va : Nat) (l : List PageEntry) : Option PageEntry := l.find? fun p => p.covers ctx va

/-- The location of an address within an entry's page. -/
def PageEntry.loc (p : PageEntry) (va : Nat) : Nat := p.frame + va % p.size

/-- What an access needs of its leaf (R398). -/
def PageEntry.allows (p : PageEntry) : AccessKind → Bool
  | .store | .far => p.write
  | .fetch => p.exec
  | _ => p.read

/-- The cluster whose slice of the die TLB serves an address (R395). -/
def tlbSlice (die va : Nat) : Nat := 16 * die + va / 2 ^ 22 % 16

/-- The deepest walk-cache pointer of a die for an address: its level and table; the root where none is held (R395). -/
def walkStart (s : State) (die ctx ptb va : Nat) : Nat × Nat :=
  let l := Store.get [] s.xlat.walks die
  let at_ := fun n => (l.find? fun w => w.ctx == ctx && w.level == n && w.prefix_ == va / levelSize (n + 1)).map
    fun w => (n, w.table)
  (firstSome at_ [0, 1, 2, 3]).getD (4, ptb)

/-- The page tables' root for a context. -/
def ptbOf (s : State) (ctx : Nat) : Nat := ((s.ctxs.table.find? ctx).map Context.ptb).getD 0 % 2 ^ 40

/-- The entry that a leaf gives a context, where its frame is known: host frames through ATS (R403). -/
def leafEntry (s : State) (ctx va : Nat) (l : Leaf) : Option PageEntry :=
  if l.tgt = 0 then
    some { ctx, vpage := va / l.size, size := l.size, frame := l.frame % 2 ^ 40, read := true, write := l.w, exec := l.x }
  else
    (s.xlat.ats.find? l.frame).map fun a =>
      { ctx, vpage := va / l.size, size := l.size, frame := hostLoc a.hpa, read := a.read,
        write := l.w && a.write, exec := l.x && a.read }

/-- Who translates: a lane's last-page register if there is one, the core (none for a sequencer or an engine of a
cluster), the cluster and the context. -/
structure Asker where
  last : Option PageEntry
  core : Option Nat
  cluster : Nat
  ctx : Nat
deriving DecidableEq, Repr

/-- The TLB entry nearest to the asker that holds a translation, with the cycles it adds (R395, R396). -/
def tlbLookup (s : State) (q : Asker) (va : Nat) : Option (PageEntry × Nat) :=
  let die := q.cluster / 16
  let coreHit := q.core.bind fun c => PageEntry.find q.ctx va (Store.get [] s.xlat.core c)
  match q.last.filter fun p => p.covers q.ctx va with
  | some p => some (p, 0)
  | none =>
    match coreHit with
    | some p => some (p, 0)
    | none =>
      match PageEntry.find q.ctx va (Store.get [] s.xlat.cluster q.cluster) with
      | some p => some (p, 8)
      | none =>
        (PageEntry.find q.ctx va (Store.get [] s.xlat.die die)).map fun p =>
          (p, 24 + 4 * hops q.cluster (tlbSlice die va))

/-- The cycles of a walk: the die TLB figure and the L2 load latency of each table line (R396). -/
def walkCycles (s : State) (q : Asker) (va : Nat) : Nat :=
  let die := q.cluster / 16
  let (n, t) := walkStart s die q.ctx (ptbOf s q.ctx) va
  let slice := tlbSlice die va
  24 + 4 * hops q.cluster slice +
    ((walkTables s.mem.cells va n t).map fun p =>
      l2Latency slice (homeOf s die ((p.2 + 8 * levelIndex va p.1) % 2 ^ 40))).sum

/-- The translation of a 57-bit virtual address for an access (R395, R398). -/
def lookup (s : State) (q : Asker) (kind : AccessKind) (va : Nat) : XRes :=
  match tlbLookup s q va with
  | some (p, n) => if p.allows kind then .at_ (p.loc va) n (some p) else .fault 2 0 0 n
  | none =>
    let n := walkCycles s q va
    let (lvl, t) := walkStart s (q.cluster / 16) q.ctx (ptbOf s q.ctx) va
    match walk s.mem.cells va lvl t with
    | .fault k l e => .fault k l e n
    | .leaf l =>
      match leafEntry s q.ctx va l with
      | none => .ats l.frame n
      | some p =>
        if !p.read && !p.write && !p.exec then .fault 4 255 0 n
        else if p.allows kind then .at_ (p.loc va) n (some p)
        else .fault 2 l.level l.entry n

/-- The scratchpad base of an engine's block, and the core (R272). -/
structure ScratchRef where
  core : Nat
  off : Nat
deriving DecidableEq, Repr

/-- The location of an on-chip address (R274, R275). -/
def onChipLoc (addr : Nat) : Option Nat :=
  let cl := addr / 2 ^ 36 % 64
  let unit := addr / 2 ^ 32 % 16
  let win := addr / 2 ^ 28 % 16
  let off := addr % 2 ^ 28
  if addr / 2 ^ 42 % 2 ^ 18 ≠ 0 then none
  else if unit < 8 ∧ win = 0 ∧ off < 2 ^ 19 then some (windowLoc addr)
  else if unit < 8 ∧ win = 1 ∧ off < 2 ^ 18 then some (scratchLoc (cl * 8 + unit) off)
  else if unit = 8 ∧ win = 2 ∧ off < 2 ^ 21 then some (accLoc cl off)
  else if unit = 8 ∧ win = 3 ∧ off < 1024 then some (windowLoc addr)
  else if unit = 8 ∧ win = 4 ∧ off < 2 ^ 25 then some (windowLoc addr)
  else none

/-- Whether the address bits of a space are in order (R273). -/
def addressOk (addr : Nat) : Bool :=
  match spaceOf addr with
  | 0x0 | 0x1 | 0x6 => addr % 2 ^ 60 / 2 ^ 57 == 0
  | 0x2 => addr % 2 ^ 60 / 2 ^ 42 == 0
  | 0x3 => addr % 2 ^ 60 / 2 ^ 18 == 0
  | 0x4 => true
  | 0x5 => (addr % 2 ^ 60 / 2 ^ 57 == 0) || (addr % 2 ^ 60 / 2 ^ 52 == 0x40)
  | 0xF => addr % 2 ^ 60 / 2 ^ 40 == 0
  | _ => false

/-- Where an address leads, in any space (R272, R393, R394). -/
def resolve (s : State) (q : Asker) (scr : Option ScratchRef) (kind : AccessKind) (addr : Nat) : XRes :=
  if !addressOk addr then .outside
  else match spaceOf addr with
  | 0x0 | 0x1 | 0x6 => lookup s q kind (addr % 2 ^ 57)
  | 0x2 => match onChipLoc addr with
    | some l => .at_ l 0 none
    | none => .outside
  | 0x3 => match scr with
    | some r => .at_ (scratchLoc r.core (r.off + addr % 2 ^ 18)) 0 none
    | none => .outside
  | 0x4 => .remote (addr / 2 ^ 48 % 2 ^ 12) (addr % 2 ^ 48)
  | 0x5 =>
    if addr / 2 ^ 58 % 4 = 1 then .at_ (hostLoc (addr % 2 ^ 52)) 0 none
    else match lookup s q kind (addr % 2 ^ 57) with
      | .at_ loc n p => if isDram loc then .fault 2 0 0 n else .at_ loc n p
      | r => r
  | 0xF => .at_ (addr % 2 ^ 40) 0 none
  | _ => .outside

/-! ## What a translation leaves behind (R395) -/

/-- A TLB with an entry in front, of at most `n` entries. -/
def tlbInsert (n : Nat) (p : PageEntry) (l : List PageEntry) : List PageEntry :=
  (p :: l.filter fun q => !(q.ctx == p.ctx && q.vpage == p.vpage && q.size == p.size)).take n

/-- The state with a translation installed in the TLBs of the asker, and with the walk's pointers cached (R395). -/
def install (s : State) (q : Asker) (va : Nat) (p : PageEntry) : State :=
  let die := q.cluster / 16
  let (n, t) := walkStart s die q.ctx (ptbOf s q.ctx) va
  let walked := (walkTables s.mem.cells va n t).drop 1
  let ptrs := walked.map fun w => ({ ctx := q.ctx, level := w.1, prefix_ := va / levelSize (w.1 + 1), table := w.2 } : WalkEntry)
  let put := fun (cap : Nat) (m : Store (List PageEntry)) (k : Nat) => m.put k (tlbInsert cap p (Store.get [] m k))
  let x := s.xlat
  { s with xlat :=
    { x with
      core := match q.core with
        | some c => put 256 x.core c
        | none => x.core
      cluster := put 2048 x.cluster q.cluster
      die := put 8192 x.die die
      walks :=
        if (tlbLookup s q va).isSome then x.walks
        else x.walks.put die ((ptrs ++ Store.get [] x.walks die).dedup.take 1024) } }

end Sys2Proof.Machine
end

