-- ==== Sys2Proof/Machine/Ops.lean ====
section
/-! DEFINITION. The operations that instructions and events share: engines, memory and its homes, the store buffer, waits,
traps and the return from one, the issue of an instruction. -/

namespace Sys2Proof.Machine

/-- The outcome of a step of this machine. -/
abbrev Out := Host.Outcome State Fault Refusal

/-! ## Parts of the state -/

namespace State

/-- The engine with a number. -/
def engine (s : State) (id : Nat) : Option Engine := s.work.engines.find? id

/-- The state with an engine written. -/
def setEngine (s : State) (id : Nat) (e : Engine) : State :=
  { s with work := { s.work with engines := s.work.engines.put id e } }

/-- The state with an engine changed, if it exists. -/
def modEngine (s : State) (id : Nat) (f : Engine → Engine) : State :=
  match s.engine id with
  | some e => s.setEngine id (f e)
  | none => s

/-- A context. -/
def context (s : State) (c : Nat) : Context := (s.ctxs.table.find? c).getD .blank

def setContext (s : State) (c : Nat) (x : Context) : State :=
  { s with ctxs := { s.ctxs with table := s.ctxs.table.put c x } }

def modContext (s : State) (c : Nat) (f : Context → Context) : State :=
  match s.ctxs.table.find? c with
  | some x => s.setContext c (f x)
  | none => s

/-- A launch that has not retired, or whose engines remain. -/
def launchOf (s : State) (id : Nat) : Option Launch := s.launch.launches.find? id

def setLaunch (s : State) (id : Nat) (l : Launch) : State :=
  { s with launch := { s.launch with launches := s.launch.launches.put id l } }

def modLaunch (s : State) (id : Nat) (f : Launch → Launch) : State :=
  match s.launchOf id with
  | some l => s.setLaunch id (f l)
  | none => s

/-- Whether an engine's code is privileged (R219). -/
def privileged (s : State) (e : Engine) : Bool := (s.context e.ctx).privileged

/-- Whether an engine's launch has DET set (R217). -/
def isDet (s : State) (e : Engine) : Bool := ((s.launchOf e.launch).map Launch.det).getD false

/-- An ownership entry of the package, by die and number. -/
def entry (s : State) (obj : Nat) : OwnEntry := Store.get .blank s.own.entries (obj % 2 ^ 18)

def setEntry (s : State) (obj : Nat) (x : OwnEntry) : State :=
  { s with own := { s.own with entries := Store.set .blank s.own.entries (obj % 2 ^ 18) x } }

/-- A fresh identifier. -/
def fresh (s : State) : Nat × State := (s.nextId, { s with nextId := s.nextId + 1 })

/-- A fresh free value (the assumption log's free counter). -/
def free (s : State) : Dword × State := (Config.freeValue s.freeCtr, { s with freeCtr := s.freeCtr + 1 })

end State

/-- The L1 that an engine's loads and stores use: its core's; a sequencer keeps one of its own. -/
def Engine.l1 (e : Engine) : Nat := if e.isSeq then 512 + e.place.clusterId else e.place.coreId

/-- The asker of a translation for a lane of an engine. -/
def Engine.asker (e : Engine) (lane : Nat) : Asker :=
  { last := (e.lane lane).lastPage, core := if e.isSeq then none else some e.place.coreId, cluster := e.place.clusterId,
    ctx := e.ctx }

/-- The scratchpad of an engine's block. -/
def State.scratchOf (s : State) (e : Engine) : Option ScratchRef :=
  (e.block.bind s.work.blocks.find?).map fun b => ⟨e.place.coreId, b.scratchOff⟩

/-! ## Window bytes of the on-chip map (R275) -/

/-- The rank of a lane-group among a gang's lane-groups, if the gang is bound to it. -/
def groupRank (groups g : Nat) : Option Nat :=
  if groups.testBit g then some (((List.range g).filter groups.testBit).length) else none

/-- The 17 words of a distribution register in the register file: the eight pairs and the tags with the lineage. -/
def Dist.words (d : Dist) : List Nat :=
  (d.pts.map fun p => [p.1, p.2]).flatten ++ [d.tags + d.lineage * 2 ^ 16]

/-- A word of a gang's window (R229). -/
def Engine.windowWord (e : Engine) (lane w : Nat) : Word :=
  if w < e.nregs then (e.lane lane).reg w
  else BitVec.ofNat 32 ((((e.lane lane).dist ((w - e.nregs) / 17)).words).getD ((w - e.nregs) % 17) 0)

/-- Words of a thread's footprint (R229). -/
def footprint (nregs ndist : Nat) : Nat := 8 * ((nregs + 17 * ndist + 7) / 8)

/-- Whether an engine stands on its core or cluster: it has not ended, and its context is not suspended (R374). -/
def State.resides (s : State) (e : Engine) : Bool := !e.ended && (s.context e.ctx).state != .suspended

/-- The gang whose window holds a word of a lane of a core, with the lane of the gang and the word of the window. -/
def State.windowOwner (s : State) (core l w : Nat) : Option (Nat × Nat × Nat) :=
  firstSome (fun kv =>
    let e : Engine := kv.2
    if !e.isSeq && e.place.coreId == core && s.resides e && decide (e.place.window ≤ w)
        && decide (w < e.place.window + footprint e.nregs e.ndist) then
      (groupRank e.place.groups (l / 16)).map fun r => (kv.1, r * 16 + l % 16, w - e.place.window)
    else none) s.work.engines

/-- The sequencer stream of a cluster. -/
def State.streamOf (s : State) (cluster : Nat) : Option (Nat × Engine) :=
  firstSome (fun kv => if kv.2.isSeq && kv.2.place.clusterId == cluster && s.resides kv.2 then some kv else none)
    s.work.engines

/-- KIND of a region in its image (R259). -/
def RegionKind.code : RegionKind → Nat
  | .none => 0 | .exclusive => 1 | .shared => 2

/-- FLAGS of a region's image (R259). -/
def Region.flags (r : Region) : Nat :=
  r.kind.code + (if r.frozenChild then 4 else 0) + (if r.frozenSelf then 8 else 0) + (if r.readOnly then 16 else 0)
    + (if r.layer then 32 else 0) + (if r.writingBack then 64 else 0) + (if r.child then 128 else 0)
    + r.status % 16 * 256

/-- The 32-byte image of a region register (R259); `gangOf` gives the gang index of the parent's holder. -/
def Region.image (gangOf : Nat → Nat) (r : Region) : List Byte :=
  leBytes 8 r.base ++ leBytes 8 r.extent ++ leBytes 4 r.obj ++ leBytes 4 r.version ++ leBytes 2 r.tensor
    ++ leBytes 2 (match r.parent with
      | some (g, h) => 2 ^ 15 + gangOf g % 128 * 256 + h % 16
      | none => 0)
    ++ leBytes 2 r.flags ++ leBytes 1 r.children ++ leBytes 1 0

/-- The gang index of an engine. -/
def State.gangIndexOf (s : State) (id : Nat) : Nat := ((s.engine id).map Engine.gangIndex).getD 0

/-- The 128-byte image of a distribution register (R172). -/
def Dist.image (d : Dist) : List Byte :=
  (d.pts.map fun p => leBytes 4 p.1 ++ leBytes 4 p.2).flatten ++ leBytes 2 d.tags ++ leBytes 1 d.lineage
    ++ List.replicate 61 0

/-- The image of a thread record (R235). -/
def PoolRecord.image (r : PoolRecord) : List Byte :=
  leBytes 4 r.launch ++ leBytes 4 r.block ++ leBytes 4 r.thread ++ leBytes 4 r.pc.toNat
    ++ leBytes 1 (r.preds.toNat / 2 * 2 + 1) ++ leBytes 1 r.fx.toNat ++ leBytes 1 r.regs.length
    ++ leBytes 1 r.dists.length ++ leBytes 12 0 ++ leBytes 8 r.arrive ++ leBytes 24 0
    ++ (r.regs.map fun w => leBytes 4 w.toNat).flatten ++ (r.dists.map Dist.image).flatten

/-- Every record that a pool holds: in bins, and in formed gangs until they are ready. -/
def Pool.records (p : Pool) : List PoolRecord :=
  (Store.vals p.bins).flatMap Bin.records ++ p.formed.flatMap Formed.records

/-- A byte of windows 0, 3 and 4 (R275). -/
def State.windowByte (s : State) (addr : Nat) : Byte :=
  let cl := addr / 2 ^ 36 % 64
  let unit := addr / 2 ^ 32 % 16
  let win := addr / 2 ^ 28 % 16
  let off := addr % 2 ^ 28
  if unit < 8 then
    let word := off / 4
    match s.windowOwner (cl * 8 + unit) (word / 2048) (word % 2048) with
    | some (g, lane, w) =>
      match s.engine g with
      | some e => BitVec.ofNat 8 ((e.windowWord lane w).toNat / 256 ^ (off % 4))
      | none => 0
    | none => Config.registerResidue addr
  else if win = 3 then
    if 0x108 ≤ off ∧ off < 0x110 then
      BitVec.ofNat 8 (Store.get 0 (Store.get Matrix.idle s.work.matrix cl).records (off - 0x108))
    else match s.streamOf cl with
    | none => 0
    | some (_, e) =>
      let l := e.lane 0
      if off < 0x100 then BitVec.ofNat 8 ((l.reg (off / 4)).toNat / 256 ^ (off % 4))
      else if off = 0x100 then l.preds &&& 0xFE
      else if 0x200 ≤ off then
        ((e.region ((off - 0x200) / 32 % 16)).image s.gangIndexOf).getD ((off - 0x200) % 32) 0
      else 0
  else
    match (Pool.records (Store.get ⟨[], []⟩ s.work.pools cl)).find? fun r => r.number == off / 2048 with
    | some r => r.image.getD (off % 2048) 0
    | none => 0

/-- Whether a location's line in the new frame of a migration has its valid bit set (R408). -/
def Migration.pulled (m : Migration) (loc : Nat) : Bool := m.valid.contains ((loc - m.new) / 128)

/-- Whether a location lies in the new frame of a migration. -/
def Migration.holds (m : Migration) (loc : Nat) : Bool := decide (m.new ≤ loc) && decide (loc < m.new + m.size)

/-- The old frame's location from which a byte of the new frame still has to be pulled (R408). -/
def Migration.source (m : Migration) (loc : Nat) : Option Nat :=
  if m.holds loc && !m.pulled loc && !m.written.contains loc then some (m.old + (loc - m.new)) else none

/-- Where the byte of a location stands: in its own cell, or in the old frame while its line is not pulled (R408). -/
def State.cellOf (s : State) (loc : Nat) : Nat := (firstSome (fun m => m.source loc) s.xlat.migrations).getD loc

/-- A byte at its home. -/
def State.readHome (s : State) (loc : Nat) : Byte :=
  if loc < 2 ^ 63 then s.mem.cells.read (s.cellOf loc) else s.windowByte (loc - 2 ^ 63)

/-- Bytes at consecutive locations at their home. -/
def State.readHomeBytes (s : State) (loc n : Nat) : List Byte := (List.range n).map fun i => s.readHome (loc + i)

/-! ## Writes performed at a home -/

/-- A write to byte 511 of a launch-window slot (R335, R354); one that triggers the slot latches its LAUNCHID and STATUS words (R336). -/
def State.sealWritten (s : State) (slot : Nat) (v : Byte) : State :=
  let x := Store.get .idle s.launch.slots slot
  if x.busy then
    if v == 0 then { s with launch := { s.launch with unsealed := s.launch.unsealed ++ [slot] } } else s
  else if v == 0 then s
  else
    let word := fun (o : Nat) => leValue (s.readHomeBytes (512 * slot + o) 4)
    { s with launch :=
      { s.launch with
        slots := s.launch.slots.put slot { x with busy := true, latchedId := word 0x1F0, latchedStatus := word 0x1F4 }
        sealed := s.launch.sealed ++ [slot] } }

/-- A word of a gang's registers written through window 0 (R275, R276). -/
def Engine.setWindowByte (e : Engine) (lane w byte : Nat) (v : Byte) : Engine :=
  let put := fun (x : Nat) => setBits x (8 * byte + 7) (8 * byte) v.toNat
  let l := e.lane lane
  if w < e.nregs then e.setLane lane (l.setReg w (BitVec.ofNat 32 (put (l.reg w).toNat)))
  else
    let k := (w - e.nregs) / 17
    let i := (w - e.nregs) % 17
    let d := l.dist k
    let x := put (d.words.getD i 0)
    let d' : Dist :=
      if i = 16 then { d with tags := x % 2 ^ 16, lineage := x / 2 ^ 16 % 256 }
      else
        let p := d.pts.getD (i / 2) (0, 0)
        { d with pts := d.pts.set (i / 2) (if i % 2 = 0 then (x, p.2) else (p.1, x)) }
    e.setLane lane (l.setDist k d')

/-- A byte written through the on-chip map: window 0 changes registers, window 3 only c registers (R275). -/
def State.setWindowByte (s : State) (addr : Nat) (v : Byte) : State :=
  let cl := addr / 2 ^ 36 % 64
  let unit := addr / 2 ^ 32 % 16
  let win := addr / 2 ^ 28 % 16
  let off := addr % 2 ^ 28
  if unit < 8 then
    match s.windowOwner (cl * 8 + unit) (off / 4 / 2048) (off / 4 % 2048) with
    | some (g, lane, w) => s.modEngine g fun e => e.setWindowByte lane w (off % 4) v
    | none => s
  else if win = 3 ∧ off < 0x100 then
    match s.streamOf cl with
    | some (id, e) => s.setEngine id (e.setWindowByte 0 (off / 4) (off % 4) v)
    | none => s
  else s

/-- A byte of a new frame written before its line is pulled (R409). -/
def State.markWritten (s : State) (loc : Nat) : State :=
  { s with xlat := { s.xlat with migrations := s.xlat.migrations.map fun m =>
    if (m.holds loc && !m.pulled loc) then { m with written := loc :: m.written } else m } }

/-- A byte written in its cell, with its L2 line dirty and the seal rule of R335. -/
def State.writeHome (s : State) (loc : Nat) (v : Byte) : State :=
  if loc < 2 ^ 63 then
    let s := { s.markWritten loc with mem :=
      { s.mem with
        cells := s.mem.cells.write loc v
        l2 := if loc < 2 ^ 61 then s.mem.l2.put (lineOf loc) true else s.mem.l2 } }
    if loc < 2 ^ 21 ∧ loc % 512 = 511 then s.sealWritten (loc / 512) v else s
  else s.setWindowByte (loc - 2 ^ 63) v

/-- Cells written at their home, in the order of the list. -/
def State.writeCells (s : State) : List Host.Cell → State
  | [] => s
  | (a, v) :: r => State.writeCells (s.writeHome a v) r

/-- Whether cells cover a whole 128-byte line. -/
def coversLine (cells : List Host.Cell) (line : Nat) : Bool :=
  (List.range 128).all fun i => cells.any fun c => c.1 == line * 128 + i

/-- The lines of a migration's new frame that cells fill whole: their valid bits are set without a pull (R409). -/
def Migration.fill (m : Migration) (cells : List Host.Cell) : Migration :=
  let full := (cells.map fun c => lineOf c.1).dedup.filter fun l => m.holds (l * 128) && !m.pulled (l * 128) && coversLine cells l
  let ns := full.map fun l => (l * 128 - m.new) / 128
  { m with valid := m.valid ++ ns, pulling := m.pulling.filter fun p => !ns.contains p.1 }

/-- Cells written at their home, where a full overwrite of a line clears its poison mark and sets its migration's valid bit (R409,
R452, R457). -/
def State.perform (s : State) (cells : List Host.Cell) : State :=
  let s := s.writeCells cells
  { s with
    mem := { s.mem with poison := s.mem.poison.filter fun l => !coversLine cells l }
    xlat := { s.xlat with migrations := s.xlat.migrations.map fun m => m.fill cells } }

/-- The cells of a run of bytes. -/
def cellsAt (loc : Nat) (bs : List Byte) : List Host.Cell := bs.zipIdx.map fun p => (loc + p.2, p.1)

/-! ## Memory of a context -/

/-- The location of an address of a context as the device itself reaches it, without an engine: Reten, the dispatcher and
the engines that write frames (R394, R398). -/
def State.quietLoc (s : State) (ctx : Nat) (kind : AccessKind) (va : Nat) : Option Nat :=
  match resolve s { last := none, core := none, cluster := 0, ctx } none kind va with
  | .at_ l _ _ => some l
  | _ => none

/-- Bytes of a context's memory at their homes, none where a byte's page is not mapped. -/
def State.readVa (s : State) (ctx va n : Nat) : Option (List Byte) :=
  if va % 4096 + n ≤ 4096 then (s.quietLoc ctx .load va).map fun l => s.readHomeBytes l n
  else (List.range n).mapM fun i => (s.quietLoc ctx .load (va + i)).map s.readHome

/-- The cells of bytes at a context's address; unmapped bytes have none. -/
def State.vaCells (s : State) (ctx va : Nat) (bs : List Byte) : List Host.Cell :=
  if va % 4096 + bs.length ≤ 4096 then
    match s.quietLoc ctx .store va with
    | some l => cellsAt l bs
    | none => []
  else (bs.zipIdx.map fun p => (s.quietLoc ctx .store (va + p.2)).toList.map fun l => (l, p.1)).flatten

/-- Bytes written to a context's memory at their homes. -/
def State.writeVa (s : State) (ctx va : Nat) (bs : List Byte) : State := s.perform (s.vaCells ctx va bs)

/-! ## L1 (R257) -/

/-- A core's L1 bytes under an object and a version. -/
def Mem.l1Find (m : Mem) (core obj ver : Nat) : Option L1Tag :=
  m.l1.find? fun t => t.core == core && t.obj == obj && t.version == ver

/-- A core's L1 bytes under an object and version replaced; a tag without lines or bytes is not listed. -/
def Mem.l1Put (m : Mem) (t : L1Tag) : Mem :=
  let rest := m.l1.filter fun u => !(u.core == t.core && u.obj == t.obj && u.version == t.version)
  { m with l1 := if t.lines.isEmpty && t.bytes.isEmpty then rest else t :: rest }

/-- The tag of a core, object and version, or one without lines. -/
def Mem.l1Get (m : Mem) (core obj ver : Nat) : L1Tag := (m.l1Find core obj ver).getD ⟨core, obj, ver, [], []⟩

/-- The dirty byte that a core's L1 holds at a location under a version. -/
def Mem.l1Byte (m : Mem) (core obj ver loc : Nat) : Option Byte :=
  (m.l1Find core obj ver).bind fun t => t.bytes.find? loc

/-- Whether a line is present in a core's L1 under an object and version. -/
def Mem.l1Has (m : Mem) (core obj ver line : Nat) : Bool :=
  ((m.l1Find core obj ver).map fun t => t.lines.contains line).getD false

/-- A line brought into a core's L1. -/
def Mem.l1Fill (m : Mem) (core obj ver line : Nat) : Mem :=
  let t := m.l1Get core obj ver
  if t.lines.contains line then m else m.l1Put { t with lines := line :: t.lines }

/-- Cells stored in a core's L1 under an object and version. -/
def Mem.l1Store (m : Mem) (core obj ver : Nat) (cells : List Host.Cell) : Mem :=
  let t := m.l1Get core obj ver
  m.l1Put
    { t with
      lines := ((cells.map fun c => lineOf c.1) ++ t.lines).dedup
      bytes := cells.foldl (fun b c => Store.put b c.1 c.2) t.bytes }

/-- The dirty cells that a core's L1 holds under an object and version. -/
def Mem.l1Dirty (m : Mem) (core obj ver : Nat) : List Host.Cell := (m.l1Get core obj ver).bytes

/-- Whether a space is cached in L1 (R272). -/
def cachedSpace (space : Nat) : Bool := space == 0x0 || space == 0x5

/-- The newest byte that a gang's own uncommitted stores hold at a location (R145, R308).  A draining beat has been performed at its
place, where a load finds its bytes unless a later write has replaced them (R282, R308). -/
def Engine.forwarded (e : Engine) (loc : Nat) : Option Byte :=
  firstSome (fun b => Store.find? b.cells loc) e.beats.reverse

/-- The engine without its uncommitted stores: what other parties see of it (R289, R290). -/
def Engine.unbuffered (e : Engine) : Engine := { e with beats := [] }

/-- The engine with no uncommitted store but the oldest `n`: those that are older than a load (R281). -/
def Engine.older (e : Engine) (n : Nat) : Engine := { e with beats := e.beats.take n }

/-- The byte at a location under a version of an object: the retired frame's where that version is retired, or the home's (R269). -/
def State.versionByte (s : State) (obj ver loc : Nat) : Byte :=
  let x := s.entry obj
  ((if x.retired ≠ 0 ∧ x.retired = ver then x.retiredFrames.find? loc else none).getD (s.readHome loc))

/-- The byte that the issuing core supplies to a load: its gang's newest uncommitted store, or a dirty byte of its L1 under the region's
object and version (R145, R257). -/
def State.coreByte (s : State) (e : Engine) (obj ver space loc : Nat) : Option Byte :=
  (e.forwarded loc).or (if cachedSpace space then s.mem.l1Byte e.l1 obj ver loc else none)

/-- The byte that a load through a region returns (R145, R257, R269): the core's, the retired frame's of an earlier version, or the
home's. -/
def State.loadByte (s : State) (e : Engine) (obj ver space loc : Nat) : Byte :=
  (s.coreByte e obj ver space loc).getD (s.versionByte obj ver loc)

/-- The bytes that a load returns. -/
def State.loadBytes (s : State) (e : Engine) (obj ver space loc n : Nat) : List Byte :=
  (List.range n).map fun i => s.loadByte e obj ver space (loc + i)

/-- The matrix state of a cluster. -/
def State.matrix (s : State) (cluster : Nat) : Matrix := Store.get .idle s.work.matrix cluster

/-- Whether a location lies in an accumulator tile whose record has PSN set (R299). -/
def State.tilePoisoned (s : State) (loc : Nat) : Bool :=
  decide (2 ^ 62 ≤ loc) && decide (loc < 2 ^ 63) &&
    bit (Store.get 0 (s.matrix ((loc - 2 ^ 62) / 2 ^ 21)).records (loc % 2 ^ 21 / 2 ^ 18)) 7

/-- The first poisoned byte of a run of locations (R318, R299). -/
def State.poisonAt (s : State) (loc n : Nat) : Option Nat :=
  (List.range n).find? fun i => s.mem.poison.contains (lineOf (s.cellOf (loc + i))) || s.tilePoisoned (loc + i)

/-! ## Signals and completion (R153, R350, R351) -/

/-- A signal's value at its home. -/
def State.signal (s : State) (loc : Nat) : Dword := BitVec.ofNat 64 (leValue (s.readHomeBytes loc 8))

/-- Whether a waiting condition is met by a value (R153). -/
def SigWaiter.met (w : SigWaiter) (m : Dword) : Bool :=
  m.getLsbD 63 || (if w.ge then decide ((w.value.setWidth 63).toNat ≤ (m.setWidth 63).toNat) else m == w.value)

/-- The return of a value to a lane that waited at a signal (R153, R476). -/
def SigWaiter.answer (w : SigWaiter) (cyc : Nat) (m : Dword) (id : Nat) : MeshReq :=
  { id, eng := w.eng, pc := 0, dest := w.dest, home := 0, hops := 0, crossings := 0, order := 0, stage := .returning,
    due := cyc + w.legs, wait := w.wait,
    parts := [{ lane := w.lane, addr := 0, loc := w.loc, op := .sigWaitGe w.value, value := some (leBytes 8 m.toNat), done := true }] }

/-- The waiters at a location that a value satisfies are answered (SIG_WAIT_SATISFY, R153). -/
def State.answerWaiters (s : State) (loc : Nat) (m : Dword) : List SigWaiter → State
  | [] => s
  | w :: r =>
    if w.loc == loc && w.met m then
      let (id, s) := s.fresh
      State.answerWaiters
        { s with mem :=
          { s.mem with mesh := s.mem.mesh.put id (w.answer s.clock.cyc m id), waiters := s.mem.waiters.filter (· != w) } }
        loc m r
    else State.answerWaiters s loc m r

/-- A location of a signal takes a new value, and the waiters that it satisfies wake. -/
def State.setSignal (s : State) (loc : Nat) (m : Dword) : State :=
  let s := s.perform (cellsAt loc (leBytes 8 m.toNat))
  s.answerWaiters loc m s.mem.waiters

/-- A signal of a context changed by a function at its home; nothing where it is not mapped or names none. -/
def State.updateSignal (s : State) (ctx va : Nat) (f : Dword → Dword) : State :=
  if va = 0 then s
  else match s.quietLoc ctx .far va with
    | some l => s.setSignal l (f (s.signal l))
    | none => s

/-- Bit 63 of one launch's completion signal (R351). -/
def State.errorOne (s : State) (launch : Nat) : State :=
  match s.launchOf launch with
  | some l => (s.updateSignal l.ctx l.donesig fun m => m ||| ((1 : Dword) <<< 63)).modLaunch launch
      fun l => { l with err := true }
  | none => s

/-- The launches that depend on one of a list and may still start blocks (R349). -/
def State.consumers (s : State) (ids : List Nat) : List Nat :=
  (s.launch.launches.filter fun kl => !kl.2.retired && !kl.2.barred &&
    kl.2.producers.any fun p => p.map != 0 && ids.contains p.launch).map Prod.fst

/-- Bit 63 of completion signals, and then of those of the launches that depend on them, which start no further block
(R349, R351). -/
def State.errorSignals : Nat → List Nat → State → State
  | 0, _, s => s
  | n + 1, ids, s =>
    let s := ids.foldl State.errorOne s
    let next := s.consumers ids
    State.errorSignals n next (next.foldl (fun s id => s.modLaunch id fun l => { l with barred := true }) s)

/-- ERROR_SIGNAL: bit 63 of the launch completion signal (R351). -/
def State.errorSignal (s : State) (launch : Nat) : State :=
  State.errorSignals (s.launch.launches.length + 1) [launch] s

/-! ## Notifications (R470) -/

/-- The entries of the notification queue that the host has not consumed. -/
def HostIf.nqUsed (h : HostIf) : Nat := (h.nqTail + 2 ^ 32 - h.nqHead % 2 ^ 32) % 2 ^ 32

/-- An entry for the host notification queue: written by CXL.io if the ring has room, else held in order, up to 4,096
entries; a further one is dropped and counted (NOTIFICATION_POST). -/
def State.notify (s : State) (bytes : List Byte) : State :=
  let h := s.host
  if h.nqHeld.isEmpty && decide (h.nqUsed < h.nqLen) then
    { s with host :=
      { h with
        out := h.out ++ [.hostStore (h.nqBase + 32 * (h.nqTail % h.nqLen)) bytes]
        nqTail := (h.nqTail + 1) % 2 ^ 32
        msi := h.msi ++ [0] } }
  else if h.nqHeld.length < 4096 then { s with host := { h with nqHeld := h.nqHeld ++ [bytes] } }
  else { s with host := { h with nqDropped := h.nqDropped + 1 } }

/-- `n` bytes: the list filled up with zeros. -/
def padTo (n : Nat) (l : List Byte) : List Byte := (l ++ List.replicate n 0).take n

/-! ## The store buffer (R307 to R309) -/

/-- The cells of a store's beats grouped by line: a beat for each distinct 128-byte line, in the order in which the lanes
touch them (R307). -/
def addToBeats (space obj ver : Nat) : List Beat → Nat × List Host.Cell → List Beat
  | [], (addr, cells) =>
    [{ space, addr := addr / 128 * 128, obj, version := ver, cells := cells.foldl (fun b c => Store.put b c.1 c.2) [], due := 0 }]
  | b :: r, (addr, cells) =>
    if b.addr == addr / 128 * 128 then
      { b with cells := cells.foldl (fun b c => Store.put b c.1 c.2) b.cells } :: r
    else b :: addToBeats space obj ver r (addr, cells)

/-- The beats of one store: each lane's address with its cells, lanes ascending, so that the highest lane's byte stays
(R145). -/
def storeBeats (space obj ver : Nat) (parts : List (Nat × List Host.Cell)) : List Beat :=
  parts.foldl (addToBeats space obj ver) []

/-! ### Packets to other packages (R417 to R422)

Packet kinds: 0 read request, 1 far operation, 2 signal, 3 mailbox message, 4 posted write, 5 read data, 6 completion,
7 far-operation result, 8 NAK. -/

/-- The package's own id on Abaot Link: PKGID of the configuration record (R465). -/
def State.pkgId (s : State) : Nat := (((s.boot.config.drop 0x1F).head?).map BitVec.toNat).getD 0

/-- The virtual channel of a packet kind (R418). -/
def packetChannel : Nat → Nat
  | 0 | 1 | 2 | 3 => 1
  | 4 => 2
  | _ => 3

/-- The flits of a packet kind (R418). -/
def packetFlits : Nat → Nat
  | 3 => 2
  | 4 | 5 => 5
  | _ => 1

/-- The credits that a port holds for a channel (R419). -/
def State.credit (s : State) (port ch : Nat) : Nat := Store.get 0 (Store.get .down s.host.ports port).credits ch

/-- The port that a packet of a channel takes: the listed one with the most credits, ties to the lower port (R420). -/
def State.routePort (s : State) (pkg ch : Nat) : Option Nat :=
  (Store.get [] s.host.routes pkg).foldl (fun best p =>
    match best with
    | none => some p
    | some b => if s.credit b ch < s.credit p ch ∨ (s.credit b ch = s.credit p ch ∧ p < b) then some p else best) none

/-- Whether some listed port to a package has not failed (R420, R430). -/
def State.reachable (s : State) (pkg : Nat) : Bool :=
  (Store.get [] s.host.routes pkg).any fun p => !(Store.get .down s.host.ports p).failed

/-- A packet put on its port, if the port holds credit for all of its flits (R419). -/
def State.trySend (s : State) (pkg kind : Nat) (p : Packet) : Option State :=
  match s.routePort pkg (packetChannel kind) with
  | none => none
  | some port =>
    let ch := packetChannel kind
    if packetFlits kind ≤ s.credit port ch then
      some { s with host :=
        { s.host with
          ports := s.host.ports.modify port fun l =>
            { l with credits := l.credits.put ch (s.credit port ch - packetFlits kind) }
          out := s.host.out ++ [.packet pkg kind { p with port, dst := pkg }]
          remote := s.host.remote.map fun r => if r.id = p.id ∧ kind ≤ 4 ∧ p.src = s.pkgId then { r with port } else r } }
    else none

/-- A packet sent, or held in order until credit returns (R419). -/
def State.sendPacket (s : State) (pkg kind : Nat) (p : Packet) : State :=
  let hold := { s with host := { s.host with unsent := s.host.unsent ++ [(pkg, kind, p)] } }
  if s.host.unsent.any fun u => u.1 == pkg && packetChannel u.2.1 == packetChannel kind then hold
  else (s.trySend pkg kind p).getD hold

/-- The packets that wait for credit, sent again in order. -/
def State.flushUnsent (s : State) : State :=
  let l := s.host.unsent
  l.foldl (fun s u => s.sendPacket u.1 u.2.1 u.2.2) { s with host := { s.host with unsent := [] } }

/-- The location of a byte of another package, as the store buffer names it. -/
def remoteLoc (addr : Nat) : Nat := 2 ^ 64 + addr

/-- The key of a context's import entry for a package and an object (R424). -/
def State.importKey (s : State) (ctx pkg obj : Nat) : Option Nat :=
  (List.find? (fun (k : ImportKey) => k.pkg == pkg && k.obj == obj) (Store.vals (s.context ctx).imports)).map ImportKey.key

/-- A packet to another package, with every field 0 but the common ones. -/
def State.packet (s : State) (id addr len : Nat) : Packet :=
  { port := 0, src := s.pkgId, dst := 0, id, addr, len, op := 0, key := 0, obj := 0, count := 0, reason := 0, poison := false,
    data := [] }

/-- The program counter of the instruction that an engine executes, or of its lowest live lane (R318). -/
def State.atPc (s : State) (eng : Nat) (e : Engine) : Word :=
  match s.cur with
  | some i => if i.eng = eng then i.pc else (e.lane (e.lowest (e.lanesWhere fun _ l => l.live))).pc
  | none => (e.lane (e.lowest (e.lanesWhere fun _ l => l.live))).pc

/-- A store to another package leaves as a numbered posted write of one line with a byte mask (R418, R422); its completion
is awaited. -/
def State.remoteStore (s : State) (eng : Nat) (e : Engine) (pc : Word) (poison : Bool) (b : Beat) : State :=
  let (id, s) := s.fresh
  let pkg := b.addr / 2 ^ 48 % 2 ^ 12
  let n := Store.get 0 s.host.posted pkg + 1
  let p : Packet :=
    { s.packet id (b.addr % 2 ^ 48) 128 with
      obj := b.obj
      key := (s.importKey e.ctx pkg b.obj).getD 0
      count := n, poison
      data := (List.range 128).map fun i => Store.find? b.cells (remoteLoc (b.addr + i)) }
  let r : RemoteReq :=
    { id, pkg, port := 17, sent := s.clock.cyc, kind := 4, eng, pc, lane := 0, dest := 0, size := 0, signed := false,
      addr := b.addr, wait := id, resendAt := none, packet := p }
  { s with host := { s.host with posted := s.host.posted.put pkg n, remote := s.host.remote ++ [r] } }.sendPacket pkg 4 p

/-! ### Bias (R405, R406) -/

/-- Whether a location lies in a host-biased page of device memory (R405). -/
def State.hostBiased (s : State) (loc : Nat) : Bool := isDram loc && s.xlat.hostBias.contains (loc / 4096)

/-- The flip of a page that is being performed: flips of one page run in arrival order (R406). -/
def State.flipOf (s : State) (page : Nat) : Option BiasFlip := s.xlat.flips.find? fun f => f.page == page

/-- Whether device accesses to a location wait for a flip to host bias (R406). -/
def State.flipping (s : State) (loc : Nat) : Bool :=
  isDram loc && ((s.flipOf (loc / 4096)).map BiasFlip.toHost).getD false

/-- Whether the two back-invalidations of a 128-byte line have been answered (R405). -/
def State.snoopDone (s : State) (line : Nat) : Bool :=
  s.xlat.snooped.contains (2 * line) && s.xlat.snooped.contains (2 * line + 1)

/-- Back-invalidations of a line's two host lines sent, unless they are outstanding or answered (R405). -/
def State.askSnoop (s : State) (line : Nat) : State :=
  [2 * line, 2 * line + 1].foldl (fun s n =>
    if s.xlat.snoops.contains n || s.xlat.snooped.contains n then s
    else { s with
      xlat := { s.xlat with snoops := s.xlat.snoops ++ [n] }
      host := { s.host with out := s.host.out ++ [.bisnp (64 * n)] } }) s

/-- The answers for a line used up by the access that waited for them. -/
def State.useSnoop (s : State) (line : Nat) : State :=
  { s with xlat := { s.xlat with snooped := s.xlat.snooped.filter fun n => n / 2 != line } }

/-- Whether a write at a location's home slice must wait for a flip or a back-invalidation (R405, R406). -/
def State.writeWaits (s : State) (loc : Nat) : Bool :=
  s.flipping loc || (s.hostBiased loc && !s.snoopDone (lineOf loc))

/-- Writes performed at their home slices (R405): a host-biased line's wait for its back-invalidations, and those of a page whose
bias is being flipped for the flip. -/
def State.performL2 (s : State) (cells : List Host.Cell) : State :=
  let held := cells.filter fun c => s.writeWaits c.1
  let lines := (cells.map fun c => lineOf c.1).dedup
  let s' := s.perform (cells.filter fun c => !s.writeWaits c.1)
  let s' := lines.foldl (fun t l => if s.hostBiased (l * 128) && s.snoopDone l then t.useSnoop l else t) s'
  (held.map fun c => lineOf c.1).dedup.foldl (fun t l =>
    let t := if s.hostBiased (l * 128) then t.askSnoop l else t
    { t with xlat := { t.xlat with snoopWrites := t.xlat.snoopWrites ++ [(l, held.filter fun c => lineOf c.1 == l)] } }) s'

/-! ### Mesh requests (R476) -/

/-- Where an engine's requests stand among the same-cycle arrivals at a home (R81). -/
def Engine.portRank (e : Engine) (home : Nat) : Nat :=
  let die := if e.place.die = home / 16 then 0 else 1 + e.place.die
  (die * 16 + e.place.cluster) * 16 + (if e.isSeq then 0 else 1 + e.place.core)

/-- The distinct homes of a list of parts. -/
def partHomes (s : State) (die : Nat) (parts : List MeshPart) : List Nat :=
  (parts.map fun p => homeOf s die p.loc).dedup

/-- The cycles of a request from its core to its home (R476). -/
def MeshReq.requestLeg (q : MeshReq) : Nat := 40 + 2 * q.hops + 18 * q.crossings

/-- Whether two requests share a line. -/
def MeshReq.meets (q r : MeshReq) : Bool := q.parts.any fun p => r.parts.any fun x => lineOf x.loc == lineOf p.loc

/-- The lanes of one instruction sent to their homes: one mesh request for each home slice (R476).  A release waits in its core (R151), and
so does a request for a line for which an older one waits there (R281). -/
def State.meshSend (s : State) (eng : Nat) (e : Engine) (pc dest tag obj : Nat) (rel : Bool) (parts : List MeshPart) : State :=
  (partHomes s e.place.die parts).foldl (fun s home =>
    let (id, s) := s.fresh
    let q : MeshReq :=
      { id, eng, pc, dest, home, hops := hops e.place.clusterId home, crossings := crossings e.place.clusterId home
        order := e.portRank home, stage := .travelling, due := 0, wait := tag, obj, rel
        parts := parts.filter fun p => homeOf s e.place.die p.loc == home }
    let stage := if rel || s.mem.mesh.any fun r => r.2.eng == eng && r.2.stage == .after && q.meets r.2 then MeshStage.after else .travelling
    { s with mem := { s.mem with mesh := s.mem.mesh.put id { q with stage, due := s.clock.cyc + q.requestLeg } } }) s

/-- A load on its way keeps the bytes at some places as they stand now: the order of its lane, or its region's hold, puts it before what
changes them (R281, R283). -/
def MeshPart.keep (s : State) (hit : LoadFrom → Nat → Bool) (p : MeshPart) : MeshPart :=
  match p.op with
  | .load z signed src =>
    if p.done then p
    else
      let now := (List.range (2 ^ z)).filterMap fun j =>
        if hit src (p.loc + j) && (src.given.find? fun o => o.1 == j).isNone then some (j, s.versionByte src.obj src.version (p.loc + j))
        else none
      { p with op := .load z signed { src with given := src.given ++ now } }
  | _ => p

/-- The loads of some requests keep the bytes at some places. -/
def State.keepLoads (s : State) (who : MeshReq → Bool) (hit : LoadFrom → Nat → Bool) : State :=
  { s with mem := { s.mem with mesh := s.mem.mesh.mapKV fun _ q =>
    if (who q) then { q with parts := q.parts.map (MeshPart.keep s hit) } else q } }

/-- Cells gathered into runs within aligned units of 8 bytes, which a home writes whole (R146, R288). -/
def storeUnits : List Host.Cell → List (Nat × List Byte)
  | [] => []
  | (a, v) :: r =>
    match storeUnits r with
    | (b, bs) :: l => if b = a + 1 ∧ b / 8 = a / 8 then (a, v :: bs) :: l else (a, [v]) :: (b, bs) :: l
    | [] => [(a, [v])]

/-- One beat performed at its commit, at the place that R278 gives: L1 for the cached spaces, L2 for spaces 0x1 and 0xF, the
scratchpad and the on-chip map at once, a mesh request for space 0x6 and a packet for space 0x4. -/
def State.performBeat (s : State) (eng : Nat) (e : Engine) (b : Beat) : State :=
  if cachedSpace b.space then { s with mem := s.mem.l1Store e.l1 b.obj b.version b.cells }
  else if b.space = 0x4 then s.remoteStore eng e (s.atPc eng e) false b
  else if b.space = 0x6 then
    let (tag, s) := s.fresh
    s.meshSend eng e 0 0 tag b.obj b.rel ((storeUnits b.cells).map fun u =>
      { lane := 0, addr := b.addr, loc := u.1, op := .store u.2, value := none, done := false })
  else if b.space = 0x1 ∨ b.space = 0xF then
    (s.keepLoads (fun q => q.eng == eng) fun _ loc => b.cells.any fun c => c.1 == loc).performL2 b.cells
  else s.perform b.cells

def State.performBeats (s : State) (eng : Nat) (e : Engine) : List Beat → State
  | [] => s
  | b :: r => State.performBeats (s.performBeat eng e b) eng e r

/-- Beats behind `n` draining ones: two leave in each cycle (R308). -/
def stampBeats (cyc n : Nat) (l : List Beat) : List Beat := l.zipIdx.map fun p => { p.1 with due := cyc + 1 + (n + p.2) / 2 }

/-- The tags of an engine's stores that are on their way to their homes. -/
def State.storeTags (s : State) (eng : Nat) : List Nat :=
  ((s.mem.mesh.filter fun q => q.2.eng == eng && q.2.parts.any fun p => !p.done && (match p.op with
      | .store _ => true
      | _ => false)).map fun q => q.2.wait)
    ++ ((s.host.remote.filter fun r => r.eng == eng && r.kind == 4).map fun r => r.wait)

/-- A release that stands before buffered stores holds its lanes' later accesses behind them once they are committed (R161, R285). -/
def SbEntry.committed (tags : List Nat) (x : SbEntry) : List SbEntry :=
  match x.key with
  | .fence lanes => tags.dedup.map fun t => { key := .mem lanes, due := none, tag := t }
  | _ => [x]

/-- STORE_COMMIT: every uncommitted beat is committed at once, in order of entry, and then drains (R308). -/
def State.commit (s : State) (eng : Nat) : State :=
  match s.engine eng with
  | none => s
  | some e =>
    let t := s.performBeats eng e e.beats
    t.modEngine eng fun e =>
      { e with
        draining := e.draining ++ stampBeats s.clock.cyc e.draining.length e.beats, beats := []
        sb := e.sb.flatMap (SbEntry.committed (t.storeTags eng)) }

/-! ## Waits -/

/-- Lanes of an engine put to sleep at an instruction. -/
def State.sleep (s : State) (eng : Nat) (lanes : Dword) (pc insn : Word) (len : Nat) (commit : Bool) (kind : WaitKind) :
    Nat × State :=
  let (id, s) := s.fresh
  (id, { s with work :=
    { s.work with
      engines := s.work.engines.modify eng fun e =>
        e.mapLanes lanes fun _ l => { l with status := .sleeping id, issued := l.issued || !commit }
      waits := s.work.waits ++ [{ id, eng, lanes, pc, insn, len, commit, kind }] } })

def State.waitOf (s : State) (id : Nat) : Option Wait := s.work.waits.find? fun w => w.id == id

/-- The entries of a tag cleared. -/
def Engine.clearTag (e : Engine) (tag : Nat) : Engine := { e with sb := e.sb.filter fun x => x.tag != tag || x.due.isSome }

/-- A wait removed: its lanes become ready where they stand, and what its instruction writes is pending no more (R73). -/
def State.dropWait (s : State) (w : Wait) : State :=
  { s with work :=
    { s.work with
      waits := s.work.waits.filter fun x => x.id != w.id
      engines := s.work.engines.modify w.eng fun e =>
        (e.mapLanes w.lanes fun _ l => if l.status = .sleeping w.id then { l with status := .ready } else l).clearTag w.id } }

/-- A waiting instruction completes in its lanes: they continue at the next instruction, which becomes the restart point
of a commit point (R311), with a change to each lane. -/
def State.finishWait (s : State) (w : Wait) (f : Lane → Lane) : State :=
  let next := w.pc + BitVec.ofNat 32 w.len
  let s := (s.modEngine w.eng fun e =>
    e.mapLanes w.lanes fun _ l =>
      if l.status = .sleeping w.id then
        let l := { f l with pc := next }
        if w.commit then { l with restart := next, issued := false } else { l with issued := true }
      else l)
  s.dropWait w

/-! ## Traps (R316 to R321, R194) -/

/-- The cause codes (R318). -/
def Cause.code : Cause → Nat
  | .illegal => 0x01 | .priv => 0x02 | .refuse => 0x03 | .mask => 0x04 | .page => 0x05 | .promise => 0x06
  | .fpx => 0x07 | .dep => 0x08 | .swap => 0x09 | .poison => 0x0A | .align => 0x0B | .bkpt => 0x0C | .trapi => 0x0D
  | .tilecfg => 0x0E | .detorder => 0x0F | .storebuf => 0x10 | .imprecise => 0x11 | .halt => 0x12 | .preempt => 0x13
  | .format => 0x14

/-- SLOT of the frame (R316). -/
def Engine.slotWord (e : Engine) : Nat :=
  if e.isSeq then 2 ^ 32 - 1
  else e.place.slot % 128 + e.place.core % 8 * 2 ^ 8 + e.place.cluster % 16 * 2 ^ 12 + e.place.die % 4 * 2 ^ 16

/-- FLAGS of the frame (R317). -/
def Engine.frameFlags (e : Engine) (nested restart exited : Bool) : Nat :=
  (if nested then 16 else 0) + (if e.isSeq then 8 else 0) + (if e.block.isNone && !e.isSeq then 4 else 0)
    + (if restart then 2 else 0) + (if exited then 1 else 0)

/-- The 64-byte frame image (R316); a sequencer's holds 0 in ENTRY, RGNPC and BLOCK (R444). -/
def Engine.frame (e : Engine) (t : TrapReq) (flags : Nat) : List Byte :=
  let low := e.lane (e.lowest t.lanes)
  leBytes 2 t.cause.code ++ leBytes 2 flags ++ leBytes 4 e.slotWord ++ leBytes 8 (if e.isSeq then 1 else t.lanes.toNat)
    ++ leBytes 8 t.pc.toNat ++ leBytes 4 t.insn.toNat ++ leBytes 4 (if e.isSeq then 0 else e.entries)
    ++ leBytes 8 (if e.isSeq then 0 else low.restart.toNat) ++ leBytes 8 t.faddr
    ++ leBytes 4 (if e.isSeq then e.launch else low.launch) ++ leBytes 4 (if e.isSeq then 0 else low.block)
    ++ leBytes 4 (if e.isSeq then 0 else low.thread) ++ leBytes 4 t.detail

/-- TRACE_RECORD: a 128-byte record in a context's trace buffer, or one more in DROPPED when the buffer is full (R437,
R438). -/
def State.trace (s : State) (ctx kind : Nat) (body : List Byte) : State :=
  let c := s.context ctx
  if c.traceLen = 0 ∨ bit c.traceKinds (kind - 1) = false then s
  else
    let word := fun off => ((s.readVa ctx (c.traceBase + off) 8).map leValue).getD 0
    if 128 * (c.traceCount + 2) ≤ c.traceLen then
      let rec_ := padTo 128 (leBytes 1 kind ++ leBytes 7 0 ++ leBytes 8 s.clock.cyc ++ padTo 64 body)
      ((s.writeVa ctx (c.traceBase + 128 * (c.traceCount + 1)) rec_).writeVa ctx c.traceBase (leBytes 8 (word 0 + 1))).modContext
        ctx fun c => { c with traceCount := c.traceCount + 1 }
    else s.writeVa ctx (c.traceBase + 8) (leBytes 8 (word 8 + 1))

/-- The address of a launch's fault record in the save area (R323, R370). -/
def State.faultRecord (s : State) (l : Launch) : Nat :=
  let c := s.context l.ctx
  c.save + 4096 + 1024 * (l.slot - c.slotFirst)

/-- A frame appended to a launch's fault record (R323). -/
def State.appendFrame (s : State) (launch : Nat) (frame : List Byte) : State :=
  match s.launchOf launch with
  | none => s
  | some l =>
    let a := s.faultRecord l
    let n := ((s.readVa l.ctx a 4).map leValue).getD 0
    let s := s.writeVa l.ctx a (leBytes 4 (n + 1))
    if n < 15 then s.writeVa l.ctx (a + 64 + 64 * n) frame else s

/-- A frame into a launch's fault record, with bit 63 of the completion signal (R321, R322). -/
def State.recordFault (s : State) (launch : Nat) (frame : List Byte) : State :=
  (s.appendFrame launch frame).errorSignal launch

/-- Whether a request of an engine that stops goes on: a committed store, or a far operation or signal that has left its core (R308,
R314). -/
def MeshReq.sent (q : MeshReq) : Bool :=
  (match q.stage with
  | .held _ => false
  | .after => q.parts.any fun p => match p.op with
    | .store _ => true
    | _ => false
  | _ => true) && q.parts.any fun p => !p.done && (match p.op with
    | .load _ _ _ | .sigWaitGe _ | .sigWaitEq _ => false
    | _ => true)

/-- NESTED_TRAP_STOP and the stops of R194: an engine stops for good; its borrows become orphans (R379). -/
def State.stopEngine (s : State) (eng : Nat) : State :=
  { s with
    agenda := s.agenda.filter fun i => i.eng != eng
    host := { s.host with
      ecalls := s.host.ecalls.filter fun id => !(s.work.waits.any fun w => w.id == id && w.eng == eng) }
    work :=
      { s.work with
        waits := s.work.waits.filter fun w => w.eng != eng
        traps := s.work.traps.filter fun t => t.eng != eng
        engines := s.work.engines.modify eng fun e =>
          { e with
            ended := true, broken := true, beats := []
            lanes := e.lanes.mapKV fun _ l => if l.live then { l with status := .exited } else l } }
    mem := { s.mem with mesh := s.mem.mesh.filter fun q => q.2.eng != eng || q.2.sent,
                        waiters := s.mem.waiters.filter fun w => w.eng != eng }
    own := { s.own with requests := s.own.requests.filter fun r =>
      !(r.who == .eng eng && (r.stage == .issued || r.stage == .queued)) }
    xlat := { s.xlat with pending := s.xlat.pending.filter fun p => p.eng != eng } }

/-- The handler address of an engine: TVEC or STVEC. -/
def Engine.handlerPc (e : Engine) : Word := e.tvec

/-- A trap taken (R320, R321, R194): it stops the engine if it has no handler or is in it; otherwise the beats commit, the
frame is written to the save slot, s31 (c62 on a sequencer) takes its address, the trapping lanes enter the handler and
the others are held. -/
def State.takeTrap (s : State) (t : TrapReq) : State :=
  match s.engine t.eng with
  | none => s
  | some e =>
    let lanes : Dword := if e.isSeq then 1 else t.lanes
    let t := { t with lanes := lanes }
    if e.inHandler || e.handlerPc == 0 then
      let f := e.frame t (e.frameFlags e.inHandler false false)
      let s := if e.isSeq then s.writeVa e.ctx e.savep.toNat f else s
      (s.recordFault e.launch f).stopEngine t.eng
    else
      let s := s.commit t.eng
      let f := e.frame t (e.frameFlags false false false)
      let s := s.writeVa e.ctx e.savep.toNat f
      let s := (s.modEngine t.eng fun e =>
        let e := if e.isSeq then e else e.setSreg 31 (e.savep.setWidth 32)
        let e := { e with inHandler := true, entries := (e.entries + 1) % 2 ^ 32 }
        { e with lanes := e.lanes.mapKV fun k l =>
          if lanes.getLsbD k then
            let l := { l with pc := e.handlerPc, restart := e.handlerPc, issued := false, handler := true, status := .ready }
            if e.isSeq then l.setReg 62 (e.savep.setWidth 32) else l
          else if l.live then { l with held := true, restart := l.pc, issued := false } else l })
      s.trace e.ctx 4 f

/-- Whether a trap waits for a handler to return: it was raised by lanes that the handler holds (R320, R321). -/
def State.deferred (s : State) (t : TrapReq) : Bool :=
  match s.engine t.eng with
  | some e => !e.isSeq && e.inHandler && t.lanes &&& e.lanesWhere (fun _ l => l.handler) == 0
  | none => false

/-- Whether a trap of an engine waits for handler entry. -/
def State.trapQueued (s : State) (eng : Nat) : Bool := s.work.traps.any fun t => t.eng == eng && !s.deferred t

/-- A trap raised by an instruction.  It is taken at once, unless its engine still has the other instruction of its pair to
issue (R319) or awaits a translation (R320), or a handler holds its lanes: then it waits for HANDLER_ENTRY.  A second cause is not
taken: no instruction is current any more, by which the step knows that the one that raised it has no effect (R319). -/
def State.raise (s : State) (t : TrapReq) : State :=
  if s.deferred t then { s with work := { s.work with traps := s.work.traps ++ [t] } }
  else if s.trapQueued t.eng then { s with cur := none }
  else if (s.xlat.pending.any fun p => p.eng == t.eng) || (s.agenda.any fun i => i.eng == t.eng) then
    { s with work := { s.work with traps := s.work.traps ++ [t] } }
  else s.takeTrap t

/-- The lanes of an instruction whose guard is false continue at the next one (R143). -/
def State.passAway (s : State) (i : Issue) : State :=
  if i.away = 0 then s
  else s.modEngine i.eng fun e =>
    e.mapLanes i.away fun _ l => { l with pc := i.pc + BitVec.ofNat 32 i.len, issued := true }

/-- The trap of the instruction being executed, precise, for some of its lanes. -/
def State.trap (s : State) (i : Issue) (c : Cause) (lanes : Dword) (faddr detail : Nat) : State :=
  if s.trapQueued i.eng then { s with cur := none }
  else (s.passAway i).raise { eng := i.eng, cause := c, lanes, pc := i.pc, insn := i.insn, faddr, detail }

/-- REFUSE with its detail (R141). -/
def State.refuse (s : State) (i : Issue) (lanes : Dword) (faddr reason status lane : Nat) : State :=
  s.trap i .refuse lanes faddr (reason * 2 ^ 24 + status * 2 ^ 16 + lane)

/-- The return from a trap (R221): the lanes of the frame's mask resume at its program counter, or after its instruction
where `skip` is set; handler lanes that the mask does not name continue after the `tret`; held lanes become ready. -/
def State.trapReturn (s : State) (i : Issue) (skip : Bool) : State :=
  match s.engine i.eng with
  | none => s
  | some e =>
    match s.readVa e.ctx e.savep.toNat 64 with
    | none => s
    | some f =>
      let lanes : Dword := BitVec.ofNat 64 (leValue ((f.drop 8).take 8))
      let pc := leValue ((f.drop 16).take 8) % 2 ^ 32
      let insn := leValue ((f.drop 24).take 4)
      let target : Word := BitVec.ofNat 32 (if skip then pc + (if bit insn 0 then 4 else 2) else pc)
      if target.getLsbD 0 then s.trap i .align i.lanes target.toNat 0
      else
        s.modEngine i.eng fun e =>
          { e with
            inHandler := false
            entries := (e.entries + 1) % 2 ^ 32
            lanes := e.lanes.mapKV fun k l =>
              let after := i.pc + BitVec.ofNat 32 i.len
              if lanes.getLsbD k && l.live then
                { l with pc := target, restart := target, issued := false, handler := false, held := false, status := .ready }
              else if (l.handler || i.lanes.getLsbD k) && l.live then
                { l with pc := after, restart := after, issued := false, handler := false, held := false }
              else { l with held := false, handler := false } }

/-! ## Issue -/

/-- Where an instruction continues. -/
def Issue.next (i : Issue) : Word := i.pc + BitVec.ofNat 32 i.len

/-- The lanes of an instruction step to the next one. -/
def Engine.advance (e : Engine) (i : Issue) : Engine :=
  e.mapLanes i.lanes fun _ l => { l with pc := i.next, issued := true }

/-- A commit point completes in its lanes: the next instruction is their restart point (R311). -/
def Engine.advanceCommit (e : Engine) (i : Issue) : Engine :=
  e.mapLanes i.lanes fun _ l => { l with pc := i.next, restart := i.next, issued := false }

/-- The region entry counter counts one commit point (R311). -/
def Engine.countEntry (e : Engine) : Engine := { e with entries := (e.entries + 1) % 2 ^ 32 }

/-- The scoreboard keys of an instruction's destinations, of the flags it may raise or edits, and of the system register that it
writes (R73, R220). -/
def Info.keys (f : Info) : List SbKey :=
  (f.refs.filter Ref.write).flatMap (fun r => (List.range r.len).map fun k => SbKey.reg r.cls (r.num + k)) ++
    (match f.fx with
    | .raises => [.fxRaise]
    | .edits => [.fxEdit]
    | _ => []) ++ f.sysWrites.map SbKey.sys

/-- The scoreboard after an instruction with a latency has issued in some lane (R73, R76). -/
def Engine.book (e : Engine) (f : Info) (cyc : Nat) (lat : Nat) : Engine :=
  { e with sb := e.sb ++ (f.keys.map fun k => { key := k, due := some (cyc + lat), tag := 0 }) }

/-- The scoreboard entries of an instruction whose completion a tag awaits. -/
def Engine.bookTag (e : Engine) (f : Info) (tag : Nat) : Engine :=
  { e with sb := e.sb ++ (f.keys.map fun k => { key := k, due := none, tag }) }

/-- Lanes put to sleep at an instruction whose destinations are pending until it completes (R73, R154). -/
def State.sleepFor (f : Info) (s : State) (eng : Nat) (lanes : Dword) (i : Issue) (commit : Bool) (kind : WaitKind) : Nat × State :=
  let (id, s) := s.sleep eng lanes i.pc i.insn i.len commit kind
  (id, s.modEngine eng fun e => e.bookTag f id)

/-- The lanes in which an instruction's guard holds (R43). -/
def Engine.guarded (e : Engine) (g : Guard) (lanes : Dword) : Dword :=
  listMask ((e.lanesOf lanes).filterMap fun kl => if kl.2.guard g then some kl.1 else none)

/-- The lanes of an instruction at its program counter that are still live. -/
def Engine.standing (e : Engine) (lanes : Dword) : Dword :=
  listMask ((e.lanesOf lanes).filterMap fun kl => if kl.2.live then some kl.1 else none)

/-- The decode checks of R59, which do not depend on the guard, and then the instruction's own effect: `k` takes the
issue, the engine and the lanes in which the guard holds. -/
def gated (f : Info) (s : State) (k : Issue → Engine → Dword → Out) : Out :=
  match s.cur with
  | none => .fault .noEngine
  | some i =>
    match s.engine i.eng with
    | none => .fault .noEngine
    | some e =>
      if !f.legal e.isSeq e.regCount then .next (s.trap i .illegal (e.standing i.lanes) 0 0)
      else if f.priv && !s.privileged e then .next (s.trap i .priv (e.standing i.lanes) 0 0)
      else k { i with away := i.lanes &&& ~~~(e.guarded f.guard i.lanes) } e (e.guarded f.guard i.lanes)

/-- The latency of an instruction on an engine; 4 where its own rule gives none. -/
def Info.latency (f : Info) (e : Engine) : Nat := (f.lat.cycles e.width).getD 4

/-- The engine after an instruction has taken effect in its lanes: the next program counters and, where some lane took
part, the scoreboard entries. -/
def Engine.retire (e : Engine) (f : Info) (i : Issue) (live : Dword) (cyc : Nat) : Engine :=
  let e := e.advance i
  if live = 0 then e else e.book f cyc (i.late + f.latency e)

end Sys2Proof.Machine
end

