-- ==== Sys2Proof/Machine/Flags.lean ====
section
/-! DEFINITION. The flags: fx and its traps (R34, R35), carry and compare results of integers (R88, R98), float compares (R99). -/

namespace Sys2Proof.Machine

/-- Bits [4:0] of raised flags: the DETAIL of FPX (R35). -/
def fpxDetail (f : Fx) : Nat := f.toNat % 32

/-- The OR of the flags that the lanes of an instruction raised. -/
def fxOr (l : List Fx) : Fx := l.foldl (· ||| ·) 0

/-- FPX after an instruction whose lanes raised flags (R35): where an enabled flag was raised, the trap is taken at the next
instruction; where another cause of the pair is already to be taken, the instruction has no effect (R319). -/
def State.flagTrap (before after : State) (i : Issue) (e : Engine) (live : Dword) (raised : Fx) : State :=
  if fpxDetail raised &&& (e.tmode.toNat % 32) = 0 then after
  else if before.trapQueued i.eng then before
  else after.raise
    { eng := i.eng, cause := .fpx, lanes := live, pc := i.next, insn := i.insn, faddr := 0, detail := fpxDetail raised }

/-- x + y + c as 33 bits: the sum and its carry (R88). -/
def addCarry (x y : Word) (c : Bool) : Word × Bool :=
  let t := x.toNat + y.toNat + c.toNat
  (BitVec.ofNat 32 t, decide (2 ^ 32 ≤ t))

/-- The combine field of a compare: new, AND, OR, XOR (R46). -/
def combine (c : Nat) (old new : Bool) : Bool :=
  match c with
  | 0 => new
  | 1 => old && new
  | 2 => old || new
  | _ => old != new

/-- A condition on an ordering: 0 eq, 1 ne, 2 lt, 3 le, 4 gt, 5 ge (R49). -/
def condHolds (cond : Nat) (o : Ordering) : Bool :=
  match cond with
  | 0 => o == .eq
  | 1 => o != .eq
  | 2 => o == .lt
  | 3 => o != .gt
  | 4 => o == .gt
  | _ => o != .lt

/-- The order of two words as s32 or n32 (R98). -/
def intOrder (signed : Bool) (x y : Word) : Ordering :=
  if signed then compare x.toInt y.toInt else compare x.toNat y.toNat

end Sys2Proof.Machine
end

