-- ==== Sys2Proof/Machine/Operands.lean ====
section
/-! DEFINITION. The operand forms: how an instruction reads its sources and writes its destinations in each live lane, or once
for the gang. -/

namespace Sys2Proof.Machine

/-! ## What one lane does with its registers -/

/-- D := f S1. -/
def op1 (f : Word → Word) (a d : Nat) (l : Lane) : Lane := l.setReg d (f (l.reg a))

/-- D := f S1 S2. -/
def op2 (f : Word → Word → Word) (a b d : Nat) (l : Lane) : Lane := l.setReg d (f (l.reg a) (l.reg b))

/-- D := f D S1 S2, where D is a source too. -/
def op3 (f : Word → Word → Word → Word) (a b d : Nat) (l : Lane) : Lane :=
  l.setReg d (f (l.reg d) (l.reg a) (l.reg b))

/-- D and p7 := f S1 S2 p7 (R88). -/
def opCarry (f : Word → Word → Bool → Word × Bool) (a b d : Nat) (l : Lane) : Lane :=
  let r := f (l.reg a) (l.reg b) (l.pred 7)
  (l.setReg d r.1).setPred 7 r.2

/-- D:D+1 := f S1:S1+1 S2:S2+1 (R97). -/
def wide2 (f : Dword → Dword → Dword) (a b d : Nat) (l : Lane) : Lane := l.setPair d (f (l.pair a) (l.pair b))

/-- D:D+1 := f S1:S1+1 S2, a shift (R97). -/
def wideShift (f : Dword → Nat → Dword) (a b d : Nat) (l : Lane) : Lane :=
  l.setPair d (f (l.pair a) ((l.reg b).toNat % 64))

/-- D:D+1 := f S1 S2 (R97). -/
def widen2 (f : Word → Word → Dword) (a b d : Nat) (l : Lane) : Lane := l.setPair d (f (l.reg a) (l.reg b))

/-- pD := f pS1 pS2 (R100). -/
def pred2 (f : Bool → Bool → Bool) (a b d : Nat) (l : Lane) : Lane := l.setPred d (f (l.pred a) (l.pred b))

/-- D := the code of a float result; its flags are raised. -/
def fop (r : Lane → FloatRes) (d : Nat) (l : Lane) : Lane × Fx :=
  (l.setReg d (BitVec.ofNat 32 (r l).code), (r l).flags)

/-! ## Instructions that act in each live lane, and gang instructions (R140) -/

/-- An instruction that changes each live lane by a function of the lane, and raises no flag. -/
def lanes (f : Info) (s : State) (op : Lane → Lane) : Out :=
  gated f s fun i e live =>
    .next (s.setEngine i.eng ((e.mapLanes live fun _ l => op l).retire f i live s.clock.cyc))

/-- An instruction that changes each live lane by a function of the engine as it stood, the live lanes, the lane's number
and the lane, and may raise flags (R34, R35); `post` changes the gang where some lane took part. -/
def lanesFx (f : Info) (s : State) (op : Engine → Dword → Nat → Lane → Lane × Fx) (post : Engine → Engine := id) : Out :=
  gated f s fun i e live =>
    let raised := fxOr ((e.lanesOf live).map fun kl => (op e live kl.1 kl.2).2)
    let e' := e.mapLanes live fun k l => (op e live k l).1.raise (op e live k l).2
    let e' := if live = 0 then e' else post e'
    .next (s.flagTrap (s.setEngine i.eng (e'.retire f i live s.clock.cyc)) i e live raised)

/-- An instruction that writes a gang-wide register once, if some lane takes part (R103, R104). -/
def once (f : Info) (s : State) (op : Engine → Dword → Engine) : Out :=
  gated f s fun i e live =>
    .next (s.setEngine i.eng ((if live = 0 then e else op e live).retire f i live s.clock.cyc))

/-- A gang instruction (R140): its lanes continue at once when no lane takes part; otherwise its own effect follows. -/
def gang (f : Info) (s : State) (k : Issue → Engine → Dword → Out) : Out :=
  gated f s fun i e live =>
    if live = 0 then .next (s.setEngine i.eng (e.advance i)) else k i e live

/-- The lowest live lane, whose registers a gang instruction reads (R140). -/
def Engine.low (e : Engine) (live : Dword) : Lane := e.lane (e.lowest live)

/-- A result written to every live lane (R140). -/
def Engine.setAll (e : Engine) (live : Dword) (d : Nat) (v : Word) : Engine :=
  e.mapLanes live fun _ l => l.setReg d v

end Sys2Proof.Machine
end

