-- ==== Sys2Proof/Machine/Symbols.lean ====
section
/-! DEFINITION. The symbol code that guards every memory, and what a read of a word in error does: correction, poison, records and failed
banks (R450 to R453, R455, R457, R458). -/

namespace Sys2Proof.Machine

/-! ## The code (R450 to R452) -/

/-- α times an element of GF(2⁸), with the field polynomial 0x11D. -/
def gfDouble (a : Nat) : Nat := if 256 ≤ 2 * a then Nat.xor (2 * a) 0x11D else 2 * a

/-- α^n times an element. -/
def gfShift : Nat → Nat → Nat
  | 0, v => v
  | n + 1, v => gfShift n (gfDouble v)

/-- The power of x at which a bank's symbol stands: i + 2 for data byte i, 0 and 1 for the check bytes. -/
def bankPower (bank : Nat) : Nat := if bank < 16 then bank + 2 else bank - 16

/-- S_0 and S_1 of 18 symbols. -/
def syndromes (w : List Nat) : Nat × Nat :=
  w.zipIdx.foldl (fun s p => (Nat.xor s.1 p.1, Nat.xor s.2 (gfShift (bankPower p.2) p.1))) (0, 0)

/-- What a read finds in a word. -/
inductive WordRead
  | clean (w : List Nat)
  | corrected (bank : Nat) (w : List Nat)
  | poisoned
  | bad
deriving DecidableEq, Repr

/-- A word read, with one bank read as an erasure where one has failed (R451, R453). -/
def readSymbols (w : List Nat) (erased : Option Nat) : WordRead :=
  let (s0, s1) := syndromes w
  let fix := fun (k : Nat) => w.set k (Nat.xor (w.getD k 0) s0)
  if s0 = 0 ∧ s1 = 0 then .clean w
  else if s0 = 0 ∧ s1 = 0x1C then .poisoned
  else match erased with
    | some k => if s1 = gfShift (bankPower k) s0 then .clean (fix k) else .bad
    | none =>
      match (List.range 18).find? fun k => s0 != 0 && s1 == gfShift (bankPower k) s0 with
      | some k => .corrected k (fix k)
      | none => .bad

/-! ## Memories and records (R458) -/

/-- The die, cluster and core of a place (R458). -/
def MemoryUnit.place (u : MemoryUnit) : Nat := u.die % 4 + u.cluster % 16 * 4 + u.core % 16 * 64

/-- The image of a record (R458). -/
def ErrorRecord.image (r : ErrorRecord) : List Byte :=
  leBytes 1 r.kind ++ leBytes 1 r.cls ++ leBytes 1 r.mem ++ leBytes 1 r.bank ++ leBytes 2 r.place ++ leBytes 2 0 ++ leBytes 8 r.addr
    ++ leBytes 8 r.cyc ++ leBytes 4 r.count ++ leBytes 4 0

/-- Whether a new event merges into a record: a corrected error in the same bank and word within 2^20 cycles. -/
def ErrorRecord.takes (r e : ErrorRecord) : Bool :=
  r.kind == 1 && e.kind == 1 && r.mem == e.mem && r.bank == e.bank && r.place == e.place && r.addr == e.addr
    && decide (e.cyc ≤ r.cyc + 2 ^ 20)

/-- ERROR_RECORD: an event recorded in its die's ring of 1,024 and posted to the host, or merged into its record (R458). -/
def State.record (s : State) (die : Nat) (r : ErrorRecord) : State :=
  let ring := Store.get [] s.repair.rings die
  match ring.findIdx? fun x => x.takes r with
  | some k =>
    let ring := ring.modify k fun x => { x with count := x.count + 1, cls := max x.cls r.cls }
    { s with repair := { s.repair with rings := s.repair.rings.put die ring } }
  | none =>
    let ring := (ring ++ [r]).drop (ring.length - 1023)
    { s with repair := { s.repair with rings := s.repair.rings.put die ring } }.notify r.image

/-- A record of an event in a memory. -/
def State.recordAt (s : State) (u : MemoryUnit) (kind cls bank addr : Nat) : State :=
  s.record u.die { kind, cls, mem := u.mem, bank, place := u.place, addr, cyc := s.clock.cyc, count := 1 }

/-- The banks of a memory; none has failed in one that is not listed. -/
def State.banksOf (s : State) (u : MemoryUnit) : BankState :=
  (s.repair.banks.find? fun b => b.unit == u).getD
    { unit := u, failed := [], spareUsed := false, replaced := 0, lasting := [], rebuild := none, retired := false }

def State.setBanks (s : State) (b : BankState) : State :=
  { s with repair := { s.repair with banks := b :: s.repair.banks.filter fun x => x.unit != b.unit } }

/-- The memory that supplies a location, and the address under which it names the word: DRAM or an L2 slice, a scratchpad, an accumulator
store. -/
def State.supplier (s : State) (loc : Nat) : Option (MemoryUnit × Nat) :=
  if isDram loc then
    let d := loc / 2 ^ 38
    if (s.mem.l2.find? (lineOf loc)).isSome then some (⟨4, d, homeOf s d loc % 16, 8⟩, loc) else some (⟨9, d, 0, 8⟩, loc)
  else if 2 ^ 60 ≤ loc ∧ loc < 2 ^ 61 then
    let h := homeOf s 0 loc
    some (⟨4, h / 16, h % 16, 8⟩, loc - 2 ^ 60)
  else if 2 ^ 61 ≤ loc ∧ loc < 2 ^ 62 then
    let core := (loc - 2 ^ 61) / 2 ^ 18
    some (⟨1, core / 128, core / 8 % 16, core % 8⟩, loc % 2 ^ 18)
  else if 2 ^ 62 ≤ loc ∧ loc < 2 ^ 63 then
    let c := (loc - 2 ^ 62) / 2 ^ 21
    some (⟨5, c / 16, c % 16, 8⟩, loc % 2 ^ 21)
  else none

/-! ## Reads in error (R451, R453, R455, R457) -/

/-- The bank that a read of a word takes as an erasure: a failed bank that the rebuild's walk has not replaced at this word yet
(R453, R454). -/
def BankState.erased (b : BankState) (word : Nat) : Option Nat :=
  match b.rebuild with
  | some (next, _) => if word < next then (b.failed.drop 1).head? else b.failed.head?
  | none => b.failed.head?

/-- How many words a memory has, by its kind (R450, R458). -/
def memoryWords (mem : Nat) : Nat := [32768, 16384, 8192, 4096, 786432, 131072, 2097152, 4096, 262144].getD mem 0

/-- BANK_FAILED: a fourth word with a lasting error fails a bank; the rebuild into the spare begins on the next cycle, and a third
failed bank retires the memory (R453, R454). -/
def State.bankFailed (s : State) (b : BankState) (bank addr : Nat) : State :=
  let failed := b.failed ++ [bank]
  let s := s.setBanks
    { b with
      failed
      lasting := b.lasting.filter fun p => p.1 != bank
      rebuild := if b.spareUsed then b.rebuild else some (0, s.clock.cyc + 1)
      spareUsed := true
      retired := b.retired || decide (3 ≤ b.replaced + failed.length) }
  s.recordAt b.unit 3 1 bank addr

/-- The bank of a DRAM layer and the row that hold a word (R456). -/
def rowOf (word : Nat) : Nat × Nat := (Config.dramBank (word * 16), Config.dramRow (word * 16))

/-- ROW_SPARE_START: lasting errors in two words of a row begin its copy to a free spare; without one the row is recorded with COUNT 0
(R456). -/
def State.rowErrs (s : State) (u : MemoryUnit) (lasting : List (Nat × Nat)) (addr : Nat) : State :=
  let row := rowOf (addr / 16)
  let words := ((lasting.map Prod.snd).filter fun w => rowOf w == row).dedup
  let mine := s.repair.rows.filter fun r => r.die == u.die && r.bank == row.1
  if words.length < 2 ∨ mine.any (fun r => r.row == row.2 && !r.done) then s
  else if mine.length < 64 then
    { s with repair := { s.repair with rows := s.repair.rows ++
      [{ die := u.die, bank := row.1, row := row.2, word := 0, nextAt := s.clock.cyc + 16, done := false }] } }
  else s.record u.die { kind := 5, cls := 1, mem := 9, bank := 0xFF, place := u.place, addr, cyc := s.clock.cyc, count := 0 }

/-- A lasting error in a bank's symbol of a word: it may fail the bank (R453), or in DRAM spare the row (R454, R456). -/
def State.lastingError (s : State) (u : MemoryUnit) (bank addr : Nat) : State :=
  let b := s.banksOf u
  let lasting := if b.lasting.contains (bank, addr / 16) then b.lasting else b.lasting ++ [(bank, addr / 16)]
  let b := { b with lasting }
  let s := s.setBanks b
  if u.mem = 9 then s.rowErrs u lasting addr
  else if !b.failed.contains bank ∧ 4 ≤ (lasting.filter fun p => p.1 == bank).length then s.bankFailed b bank addr
  else s

/-- A word's line poisoned at its read (R457). -/
def State.poisonWord (s : State) (loc : Nat) : State :=
  { s with mem := { s.mem with poison := if s.mem.poison.contains (lineOf loc) then s.mem.poison else lineOf loc :: s.mem.poison } }

/-- The data bytes of a word as they are delivered. -/
def State.deliverWord (s : State) (loc : Nat) (w : List Nat) : State :=
  let cells := (w.take 16).zipIdx.foldl (fun m b => Memory.write m (loc + b.2) (BitVec.ofNat 8 b.1)) s.mem.cells
  { s with mem := { s.mem with cells } }

/-- A read of a word in error: SYMBOL_CORRECTED delivers the corrected data and judges the fault by a second read; WORD_POISONED poisons
an uncorrectable word (R451, R455, R457). -/
def State.readWord (s : State) (u : MemoryUnit) (addr loc : Nat) (r : SymbolRead) : State :=
  let s := { s with repair := { s.repair with reads := s.repair.reads.erase r } }
  match readSymbols r.symbols ((s.banksOf u).erased (addr / 16)) with
  | .clean w => s.deliverWord loc w
  | .corrected k w =>
    let lasting := match readSymbols r.again none with
      | .corrected j _ => j == k
      | _ => false
    let s := (s.deliverWord loc w).recordAt u 1 (if lasting then 1 else 0) k addr
    if lasting then s.lastingError u k addr else s
  | .poisoned => s.poisonWord loc
  | .bad => (s.poisonWord loc).recordAt u 2 1 0xFF addr

/-- The words of a read that are in error are judged as they are read. -/
def State.readWords (s : State) (loc n : Nat) : State :=
  if s.repair.reads.isEmpty then s
  else ((List.range ((loc % 16 + n + 15) / 16)).map fun k => (loc / 16 + k) * 16).foldl (fun s l =>
    match s.supplier l with
    | none => s
    | some (u, addr) => match s.repair.reads.find? fun r => r.unit == u && r.addr / 16 == addr / 16 with
      | some r => s.readWord u addr l r
      | none => s) s

end Sys2Proof.Machine
end

