-- ==== Sys2Proof/Machine/Memory.lean ====
section
/-! DEFINITION. Access checks, loads and stores, prefetch and probe, and the region abort (R142 to R148, R307 to R315, R396,
R398, R399). -/

namespace Sys2Proof.Machine

/-! ## Access checks (R142 to R144) -/

/-- The rows of R144. -/
inductive AccessClass | load | store | far | signal
deriving DecidableEq, Repr

/-- Whether a region's kind permits an access (R144, R260).  DEDUCED (log entry 48): `sig.test` and `sig.wait`, which write nothing, take
the row of signals as the forms that write do, so a read-only region refuses them. -/
def Region.permits (r : Region) : AccessClass → Bool
  | .load => r.kind != .none
  | .store => r.kind == .exclusive && !r.readOnly
  | .far =>
    if spaceOf r.base = 0x6 then r.kind != .none && !r.readOnly
    else r.kind == .exclusive && !r.readOnly && spaceOf r.base != 0x2
  | .signal => r.kind != .none && !r.readOnly && spaceOf r.base == 0x6

/-- The byte offset that a lane forms: its index register, or 0 where the field is 0 (R142). -/
def Lane.offset (x : Nat) (l : Lane) : Nat := if x = 0 then 0 else (l.reg x).toNat

/-- The offsets of an instruction's live lanes, ascending. -/
def Engine.offsets (e : Engine) (live : Dword) (x : Nat) : List (Nat × Nat) :=
  (e.lanesOf live).map fun kl => (kl.1, kl.2.offset x)

/-- Whether bytes of a space exist (R142, R273, R275). -/
def State.placeOk (s : State) (e : Engine) (base o size : Nat) : Bool :=
  let a := base + o
  let z := a + size - 1
  decide (z / 2 ^ 60 = base / 2 ^ 60) && addressOk a && addressOk z &&
    (match spaceOf base with
    | 0x2 => (onChipLoc a).isSome && (onChipLoc z).isSome
    | 0x3 => (s.scratchOf e).isSome
    | _ => true)

/-- What a failed check raises. -/
structure Denial where
  cause : Cause
  faddr : Nat
  detail : Nat
deriving DecidableEq, Repr

/-- REFUSE for an access, with its reason and its lowest refused lane (R141). -/
def refusal (reason lane addr : Nat) : Denial := ⟨.refuse, addr, reason * 2 ^ 24 + lane⟩

/-- Steps 3 to 5 of R143 over the offsets of the live lanes: a frozen region refuses every access (R260); then the region's kind, its extent
and the alignment. -/
def State.deniedAt (s : State) (e : Engine) (r : Region) (c : AccessClass) (size : Nat) (offs : List (Nat × Nat)) :
    Option Denial :=
  match offs with
  | [] => none
  | (k0, o0) :: _ =>
    if r.kind != .none && (r.frozenChild || r.frozenSelf) then some (refusal 3 k0 (r.base + o0))
    else if !r.permits c then some (refusal 1 k0 (r.base + o0))
    else
      match offs.find? fun p => decide (r.extent < p.2 + size) || !s.placeOk e r.base p.2 size with
      | some (k, o) => some (refusal 2 k (r.base + o))
      | none =>
        (offs.find? fun p => (r.base + p.2) % size != 0).map fun p => ⟨.align, r.base + p.2, 0⟩

/-- The checks of R143, steps 1 to 5, over the offsets of the live lanes. -/
def State.denied (s : State) (e : Engine) (r : Region) (c : AccessClass) (size : Nat) (offs : List (Nat × Nat)) :
    Option Denial :=
  if offs.isEmpty then none
  else
    let sp := spaceOf r.base
    if 0x7 ≤ sp ∧ sp ≤ 0xE then some ⟨.illegal, 0, 0⟩
    else if sp = 0xF ∧ s.privileged e = false then some ⟨.priv, r.base, 0⟩
    else s.deniedAt e r c size offs

/-- A memory instruction: the gate, the checks of R143, and then its own effect on the lanes and their addresses. -/
def memory (f : Info) (s : State) (h x : Nat) (c : AccessClass) (size : Nat)
    (k : Issue → Engine → Dword → Region → List (Nat × Nat) → Out) : Out :=
  gated f s fun i e live =>
    if live = 0 then .next (s.setEngine i.eng (e.advance i))
    else match s.denied e (e.region h) c size (e.offsets live x) with
      | some d => .next (s.trap i d.cause live d.faddr d.detail)
      | none => k i e live (e.region h) ((e.offsets live x).map fun p => (p.1, (e.region h).base + p.2))

/-! ## Fault reports and the region abort (R313, R399) -/

/-- ACCESS of a report (R399). -/
def AccessKind.code : AccessKind → Nat
  | .load => 0 | .store => 1 | .far => 2 | .fetch => 3 | .engine => 4 | .inbound => 5 | .touch => 6

/-- DETAIL of PAGE (R315). -/
def pageDetail (a : AccessKind) (kind : Nat) : Nat :=
  (match a with
  | .store => 1
  | .far => 2
  | .fetch => 3
  | _ => 0) + (if kind = 2 then 4 else 0)

/-- The page of a report: an address's 4 KiB page within its context. -/
def reportPage (va : Nat) : Nat := va % 2 ^ 57 / 4096

/-- FAULT_REPORT (R399): a distinct page of a context is reported once, with the next number of the context; a further
fault on it joins the report.  The answer is the report's number. -/
def State.report (s : State) (ctx va kind level entry : Nat) (a : AccessKind) : Nat × State :=
  match s.xlat.reports.find? fun r => r.ctx == ctx && r.page == reportPage va with
  | some r => (r.seq, s)
  | none =>
    let seq := (s.context ctx).seq + 1
    let r : FaultReport := { ctx, seq, page := reportPage va, kind, access := a, va, perm := kind == 2 }
    let s := s.modContext ctx fun c => { c with seq }
    let s := { s with xlat := { s.xlat with reports := s.xlat.reports ++ [r] } }
    (seq, s.notify (leBytes 1 kind ++ leBytes 1 a.code ++ leBytes 1 level ++ leBytes 1 0 ++ leBytes 2 (ctx % 1024)
      ++ leBytes 2 0 ++ leBytes 8 va ++ leBytes 8 entry ++ leBytes 4 seq ++ leBytes 4 0))

/-- Whether a lane is moved back by an abort (R313): it has issued since its restart point, and it does not wait inside a
commit point. -/
def State.moves (s : State) (e : Engine) (k : Nat) (l : Lane) : Bool :=
  l.live && l.issued &&
    (match l.status with
    | .sleeping id => ((s.waitOf id).map fun w => !w.commit).getD true
    | .waiting => !(e.open_.any fun x => (x.arrived.find? k).isSome && (match x.op with
        | .bar _ _ => true
        | _ => false))
    | _ => true)

/-- The lanes that an abort moves. -/
def State.movedLanes (s : State) (e : Engine) : Dword := e.lanesWhere (s.moves e)

/-- Whether a lane's far operation at a program counter has issued and is still to be performed: it is on its way to its home or to
another package, or a DET launch holds it (R152, R311). -/
def State.farUnderWay (s : State) (eng k pc : Nat) : Bool :=
  (s.mem.mesh.any fun q => q.2.eng == eng && q.2.pc == pc && (match q.2.stage with
      | .held _ => false
      | _ => true) && q.2.parts.any fun p => p.lane == k && !p.done && (match p.op with
      | .load _ _ _ | .store _ => false
      | _ => true)) ||
    (s.mem.held.any fun d => d.eng == eng && d.lane == k && d.pc == pc) ||
    (s.host.remote.any fun r => r.eng == eng && r.lane == k && r.pc.toNat == pc && (r.kind == 1 || r.kind == 2))

/-- Where an abort takes a lane (R311, R313): its restart point, or the instruction after a far operation that is still to be performed,
which is performed once. -/
def State.restartOf (s : State) (eng k : Nat) (l : Lane) : Word :=
  if s.farUnderWay eng k l.restart.toNat then l.restart + 4 else l.restart

/-- A held far operation without the lanes that an abort takes back to it, which issue it again (R313, R314). -/
def MeshReq.without (q : MeshReq) (e : Engine) (m : Dword) : MeshReq :=
  match q.stage with
  | .held _ => { q with parts := q.parts.filter fun p => !(m.getLsbD p.lane && (e.lane p.lane).restart.toNat == q.pc) }
  | _ => q

/-- Steps 1 to 3 of R313: the uncommitted beats are discarded, and the moved lanes return to their restart points, withdraw from open
instances and leave the operations at which they wait.  No register changes: a re-executed stretch reads the registers as they then
stand, and nothing looks for a breach of R312. -/
def State.rewind (s : State) (eng : Nat) : State :=
  match s.engine eng with
  | none => s
  | some e =>
    let m := s.movedLanes e
    let left := fun (w : Wait) => if w.eng = eng ∧ w.commit = false then { w with lanes := w.lanes &&& ~~~m } else w
    let gone := (s.work.waits.filter fun w => w.eng == eng && (left w).lanes == 0).map Wait.id
    let mesh := (s.mem.mesh.mapKV fun _ q => if q.eng = eng then q.without e m else q)
    let dropped := ((mesh.filter fun kq => kq.2.eng == eng && kq.2.parts.isEmpty).map fun kq => kq.2.wait).filter fun t =>
      !(mesh.any fun kq => kq.2.eng == eng && kq.2.wait == t && !kq.2.parts.isEmpty)
    let e' := e.mapLanes m fun k l =>
      { l with pc := s.restartOf eng k l, restart := s.restartOf eng k l, issued := false, status := .ready }
    let e' := { e' with
      beats := []
      sb := e.sb.filter fun x => x.due.isSome || !((gone ++ dropped).contains x.tag)
      open_ := e.open_.map fun x => { x with
        arrived := x.arrived.filter fun p => !m.getLsbD p.1
        absent := x.absent &&& ~~~m } }
    let deferred := s.work.traps.filter s.deferred
    let s := s.setEngine eng e'
    { s with
      mem := { s.mem with mesh := mesh.filter fun kq => kq.2.eng != eng || !kq.2.parts.isEmpty }
      work :=
        { s.work with
          traps := s.work.traps.filter fun t => t.eng != eng || (deferred.contains t && t.lanes &&& m == 0)
          waits := (s.work.waits.map left).filter fun w => w.eng != eng || w.lanes != 0 } }

/-- The first fault that a pending translation of an engine meets: its address, kind, level and entry. -/
def State.faultOf (s : State) (e : Engine) (p : PendingXlat) : Option (Nat × Nat × Nat × Nat) :=
  firstSome (fun (q : Nat × Nat) =>
    match resolve s (e.asker q.1) (s.scratchOf e) (if p.work = .fetch then .fetch else .load) q.2 with
    | .fault k l n _ => some (q.2, k, l, n)
    | _ => none) p.parts

/-- The loads of an engine whose translation completes in this cycle and meets a fault (R313). -/
def State.faultingXlats (s : State) (eng : Nat) (e : Engine) : List PendingXlat :=
  s.xlat.pending.filter fun p => p.eng == eng && p.work != .fetch && ((p.due.map fun t => decide (t ≤ s.clock.cyc)).getD false) &&
    (s.faultOf e p).isSome

/-- A gang asleep until a page is resident (R313). -/
def State.pageSleep (s : State) (i : Issue) (lanes : Dword) (seq va detail : Nat) : State :=
  let (id, s) := s.fresh
  { s with work := { s.work with waits := s.work.waits ++
    [{ id, eng := i.eng, lanes, pc := i.pc, insn := i.insn, len := i.len, commit := false, kind := .page seq va detail }] } }

/-- A further load of an aborted region whose page faulted in the same cycle: its page is reported, and the gang sleeps until that page is
resident too (R313, R399). -/
def State.alsoFaults (s : State) (e : Engine) (i : Issue) (first : Nat) (p : PendingXlat) : State :=
  match s.faultOf e p with
  | none => s
  | some (va, k, l, n) =>
    if reportPage va = reportPage first then s
    else
      let (seq, s) := s.report e.ctx va k l n .load
      s.pageSleep { i with pc := p.pc, insn := p.insn, len := p.len } (listMask (p.parts.map Prod.fst)) seq va (pageDetail .load k)

/-- REGION_ABORT (R313) for a fault of an instruction: the reports, the rewind, the cleared entries of the loads whose pages
faulted, the gang asleep, and the trace record with cause PAGE and RESTART; loads whose translation is not complete go on. -/
def State.abortRegion (s : State) (i : Issue) (lanes : Dword) (va kind level entry : Nat) (a : AccessKind) : State :=
  match s.engine i.eng with
  | none => s
  | some e =>
    let (seq, s) := s.report e.ctx va kind level entry a
    let gone := s.faultingXlats i.eng e
    let t : TrapReq :=
      { eng := i.eng, cause := .page, lanes, pc := i.pc, insn := i.insn, faddr := va, detail := pageDetail a kind }
    let s := s.trace e.ctx 2 (e.frame t (e.frameFlags e.inHandler true false))
    let s := s.rewind i.eng
    let s := { s with
      agenda := s.agenda.filter fun j => j.eng != i.eng
      xlat := { s.xlat with pending := s.xlat.pending.filter fun p => !gone.contains p } }
    let s := s.modEngine i.eng fun e => { e with
      asleep := true
      sb := e.sb.filter fun x => x.due.isSome || !(gone.any fun p => p.id == x.tag) }
    gone.foldl (fun s p => s.alsoFaults e i va p) (s.pageSleep i lanes seq va (pageDetail a kind))

/-! ## Host lines (R427, R428) -/

/-- The CXL state of a line of host memory in a die. -/
def State.lineState (s : State) (die line : Nat) : LineState :=
  (((Store.get [] s.host.lines die).find? fun p => p.1 == line).map Prod.snd).getD .i

/-- The state with a line's CXL state in a die set; a line not held is not listed. -/
def State.setLineState (s : State) (die line : Nat) (x : LineState) : State :=
  let rest := (Store.get [] s.host.lines die).filter fun p => p.1 != line
  { s with host := { s.host with lines := s.host.lines.put die (if x = .i then rest else (line, x) :: rest) } }

/-- Whether some die of the package holds a line of host memory. -/
def State.lineHeld (s : State) (line : Nat) : Bool := (List.range 4).any fun d => s.lineState d line != .i

/-- Whether the package may write a line of host memory: it is E or M towards the host (R427). -/
def State.lineOwned (s : State) (line : Nat) : Bool :=
  (List.range 4).any fun d => match s.lineState d line with
    | .m | .o | .e => true
    | _ => false

/-- Whether a location is host or pool memory. -/
def isHost (loc : Nat) : Bool := decide (2 ^ 60 ≤ loc) && decide (loc < 2 ^ 61)

/-- Whether a location's bytes are at hand: a host line where some die holds it, device memory unless a flip or the
back-invalidation of a fill holds it back. -/
def State.atHand (s : State) (loc : Nat) : Bool :=
  if isHost loc then s.lineHeld (lineOf loc)
  else !s.flipping loc &&
    (!s.hostBiased loc || (s.mem.l2.find? (lineOf loc)).isSome || s.snoopDone (lineOf loc))

/-- A die reads a host line that the package holds: M elsewhere becomes O, E elsewhere S, and the reader takes S (R427). -/
def State.shareLine (s : State) (die line : Nat) : State :=
  if s.lineState die line = .i ∧ s.lineHeld line then
    let s := (List.range 4).foldl (fun s d =>
      match s.lineState d line with
      | .m => s.setLineState d line .o
      | .e => s.setLineState d line .s
      | _ => s) s
    s.setLineState die line .s
  else s

/-- The link to which a host address is assigned (R426). -/
def State.linkOf (s : State) (hpa : Nat) : Option Nat :=
  (s.host.ranges.vals.find? fun r => decide (r.base ≤ hpa) && decide (hpa < r.base + r.len)).map HostRange.link

/-- Whether the range of a host location can be reached (R430). -/
def State.hostReachable (s : State) (loc : Nat) : Bool :=
  match s.linkOf (loc - 2 ^ 60) with
  | some n => !(Store.get .down s.host.cxl n).failed
  | none => false

/-- A request for a host line, unless one of the same right is outstanding (R426). -/
def State.requestLine (s : State) (line : Nat) (own : Bool) : State :=
  let hpa := line * 128 - 2 ^ 60
  if s.host.cxlReqs.any fun r => r.hpa == hpa && (r.own || !own) then s
  else { s with host :=
    { s.host with
      cxlReqs := s.host.cxlReqs ++ [{ hpa, sent := s.clock.cyc, own, waiters := [] }]
      out := s.host.out ++ [.cxlRead hpa own] } }

/-- A line that is not at hand asked for: by a back-invalidation in device memory, over CXL in host memory; a page whose bias
is being flipped is awaited (R405, R406, R427). -/
def State.askFor (s : State) (line : Nat) (own : Bool) : State :=
  if isHost (line * 128) then s.requestLine line own
  else if s.flipping (line * 128) then s
  else if s.hostBiased (line * 128) then s.askSnoop line
  else s

/-- Whether a host location can neither be found in the package nor be reached (R430). -/
def State.unreachable (s : State) (loc : Nat) : Bool := isHost loc && !s.atHand loc && !s.hostReachable loc

/-- An ATS request for an I/O virtual page, unless one is outstanding (R403). -/
def State.requestAts (s : State) (iova : Nat) : State :=
  if s.xlat.atsPending.contains iova then s
  else { s with
    xlat := { s.xlat with atsPending := s.xlat.atsPending ++ [iova] }
    host := { s.host with out := s.host.out ++ [.ats iova] } }

/-! ## Loads (R145 to R147) -/

/-- The words of a list of bytes, little-endian. -/
def wordsOf : List Byte → List Word
  | a :: b :: c :: d :: r => BitVec.ofNat 32 (leValue [a, b, c, d]) :: wordsOf r
  | [] => []
  | l => [BitVec.ofNat 32 (leValue l)]

/-- Registers from `d` upward take words. -/
def Lane.setRegs (l : Lane) (d : Nat) : List Word → Lane
  | [] => l
  | w :: r => (l.setReg d w).setRegs (d + 1) r

/-- A distribution register from the bytes of its image (R172). -/
def distOfBytes (bs : List Byte) : Dist :=
  let at_ := fun (o n : Nat) => leValue ((bs.drop o).take n)
  { pts := (List.range 8).map fun k => (at_ (8 * k) 4, at_ (8 * k + 4) 4), tags := at_ 64 2, lineage := at_ 66 1 }

/-- The registers of a load take its bytes: a narrow value is extended (R145); size code 7 fills a distribution register
(R186). -/
def Lane.loadValue (l : Lane) (d z : Nat) (signed : Bool) (bs : List Byte) : Lane :=
  match z with
  | 0 =>
    let v := BitVec.ofNat 8 (leValue bs)
    l.setReg d (if signed then v.signExtend 32 else v.setWidth 32)
  | 1 =>
    let v := BitVec.ofNat 16 (leValue bs)
    l.setReg d (if signed then v.signExtend 32 else v.setWidth 32)
  | 7 => l.setDist d (distOfBytes bs)
  | _ => l.setRegs d (wordsOf bs)

/-- Bytes of an access's lane, with its size code, its extension and its destination. -/
def XlatWork.size : XlatWork → Nat
  | .load _ z _ => sizeBytes z
  | .fetch => 2
def XlatWork.code : XlatWork → Nat
  | .load _ z _ => z
  | .fetch => 1
def XlatWork.signed : XlatWork → Bool
  | .load _ _ signed => signed
  | .fetch => false
def XlatWork.dest : XlatWork → Nat
  | .load d _ _ => d
  | .fetch => 0

/-- The cycles until a line of a migration's new frame has been pulled (R408). -/
def State.pullCycles (s : State) (loc : Nat) : Nat :=
  match s.xlat.migrations.find? fun m => m.holds loc && !m.pulled loc with
  | none => 0
  | some m =>
    match m.pulling.find? fun p => p.1 == (loc - m.new) / 128 with
    | some p => p.2 - s.clock.cyc
    | none =>
      let old := m.old + (loc - m.new)
      l2Latency (homeOf s (old / 2 ^ 38) old) (homeOf s (loc / 2 ^ 38) loc)
        + (if (s.mem.l2.find? (lineOf old)).isSome then 0 else dramCycles)

/-- The pull of a line started, if its bit is clear and no pull of it runs (R408, R409). -/
def State.startPull (s : State) (loc : Nat) : State :=
  let n := s.pullCycles loc
  { s with xlat := { s.xlat with migrations := s.xlat.migrations.map fun m =>
    if (m.holds loc && !m.pulled loc && !(m.pulling.any fun p => p.1 == (loc - m.new) / 128)) then
      { m with pulling := m.pulling ++ [((loc - m.new) / 128, s.clock.cyc + n)] }
    else m } }

/-- The reconfiguration that moves a location's home, with its new home (R460). -/
def State.movingTo (s : State) (loc : Nat) : Option (L2Cfg × Nat) :=
  firstSome (fun (c : L2Cfg) =>
    let die := if isDram loc then loc / 2 ^ 38 else c.die
    let new := homeOf { s with repair := { s.repair with domains := c.domains } } die loc
    if die = c.die ∧ new ≠ homeOf s die loc then some (c, new) else none) s.repair.cfgs

/-- The latency of an L2 request to a location's home: a moving line answers REPLAY at the switch, and the request is sent
again to the new home, where the line stands in no slice (R460). -/
def State.homeLatency (s : State) (e : Engine) (loc : Nat) : Nat :=
  let home := homeOf s e.place.die loc
  let plain := l2Latency e.place.clusterId home
  match s.movingTo loc with
  | some (c, new) => match c.due with
    | some t => (t - s.clock.cyc) + 4 * hops e.place.clusterId home + l2Latency e.place.clusterId new
    | none => plain
  | none => plain

/-- The latency of a load from a location (R77, R274, R428). -/
def State.loadLatency (s : State) (e : Engine) (obj ver space addr loc : Nat) : Nat :=
  if space = 0x3 then 24
  else if cachedSpace space && s.mem.l1Has e.l1 obj ver (lineOf loc) then 32
  else if space = 0x2 then
    if addr / 2 ^ 28 % 256 = 0x82 ∧ addr / 2 ^ 36 % 64 = e.place.clusterId then 48
    else l2Latency e.place.clusterId (addr / 2 ^ 36 % 64)
  else
    let l2 := s.homeLatency e loc
    let pull := s.pullCycles loc
    if pull ≠ 0 then pull + l2
    else if isHost loc || ((s.mem.l2.find? (lineOf loc)).isSome && (s.movingTo loc).isNone) then l2
    else l2 + dramCycles

/-- What a load leaves in the caches: its line in L2, and in the core's L1 where the space is cached and the load is not
streaming (R147, R257). -/
def State.cacheLine (s : State) (e : Engine) (obj ver space loc : Nat) (stream : Bool) : State :=
  let line := lineOf loc
  let s := s.startPull loc
  let s := if s.hostBiased loc && (s.mem.l2.find? line).isNone then s.useSnoop line else s
  let m := s.mem
  let m := if decide (loc < 2 ^ 61) && (m.l2.find? line).isNone then { m with l2 := m.l2.put line false } else m
  let m := if cachedSpace space && !stream then m.l1Fill e.l1 obj ver line else m
  { s with mem := m }

/-- What a lane's register takes. -/
def Lane.take (l : Lane) (w : XlatWork) (bs : List Byte) : Lane :=
  match w with
  | .load d z signed => l.loadValue d z signed bs
  | .fetch => l

/-- One lane's access of a load with its address and location. -/
structure Place1 where
  lane : Nat
  addr : Nat
  loc : Nat
deriving DecidableEq, Repr

/-- A load from an accumulator tile returns in a cycle: a return of its region releases the tile no sooner (R301). -/
def State.tileLoads (s : State) (until_ : Nat) (ps : List Place1) : State :=
  ps.foldl (fun s p =>
    if p.loc < 2 ^ 62 ∨ 2 ^ 63 ≤ p.loc then s
    else
      let c := (p.loc - 2 ^ 62) / 2 ^ 21
      let t := p.loc % 2 ^ 21 / 2 ^ 18
      let m := s.matrix c
      let loads := m.loads.put t (max until_ (Store.get 0 m.loads t))
      { s with work := { s.work with matrix := s.work.matrix.put c { m with loads } } }) s

/-- Loads performed: every lane takes its bytes, and the lines are cached; with the largest latency. -/
def State.performLoad (s : State) (eng : Nat) (e : Engine) (w : XlatWork) (obj ver : Nat) (stream : Bool)
    (ps : List Place1) : State × Nat :=
  let lat := (ps.map fun p => s.loadLatency e obj ver (spaceOf p.addr) p.addr p.loc).foldl max 0
  let s' := ps.foldl (fun t p =>
    let bs := s.loadBytes e obj ver (spaceOf p.addr) p.loc w.size
    let t := if isHost p.loc then t.shareLine e.place.die (lineOf p.loc) else t
    (t.modEngine eng fun e => e.setLane p.lane ((e.lane p.lane).take w bs)).cacheLine e obj ver (spaceOf p.addr) p.loc
      stream) s
  (s'.tileLoads (s.clock.cyc + lat) ps, lat)

/-- How far the accesses of a load have come. -/
inductive LoadGo
  | go (ps : List Place1)
  | fault (addr kind level entry : Nat)
  | ats (iovas : List Nat)
  | lines (ls : List Nat)
  | dead (addr : Nat)
deriving DecidableEq, Repr

/-- The translations of a load's parts, in ascending lane order: a fault of the lowest lane first, then what is missing. -/
def State.loadGo (s : State) (e : Engine) (kind : AccessKind) (parts : List (Nat × Nat)) : LoadGo :=
  let rs := parts.map fun p => (p, resolve s (e.asker p.1) (s.scratchOf e) kind p.2)
  match firstSome (fun r => match r.2 with
      | XRes.fault k l x _ => some (LoadGo.fault r.1.2 k l x)
      | _ => none) rs with
  | some f => f
  | none =>
    match rs.filterMap fun r => match r.2 with
      | .ats v _ => some v
      | _ => none with
    | [] =>
      let ps := rs.filterMap fun r => match r.2 with
        | .at_ l _ _ => some (⟨r.1.1, r.1.2, l⟩ : Place1)
        | _ => none
      match ps.find? fun p => s.unreachable p.loc with
      | some p => .dead p.addr
      | none =>
        match (ps.filter fun p => !s.atHand p.loc).map fun p => lineOf p.loc with
        | [] => .go ps
        | ls => .lines ls.dedup
    | vs => .ats vs.dedup

/-- Where the lanes of an access lead. -/
inductive Reached
  | go (ps : List Place1)
  | fault (addr kind level entry : Nat)
  | ats (iovas : List Nat)
deriving DecidableEq, Repr

/-- The translations of an access's parts, in ascending lane order (R313): an access to another package is translated there. -/
def State.reached (s : State) (e : Engine) (kind : AccessKind) (parts : List (Nat × Nat)) : Reached :=
  let rs := parts.map fun p => (p, resolve s (e.asker p.1) (s.scratchOf e) kind p.2)
  match firstSome (fun r => match r.2 with
      | XRes.fault k l x _ => some (Reached.fault r.1.2 k l x)
      | _ => none) rs with
  | some f => f
  | none =>
    match rs.filterMap fun r => match r.2 with
      | .ats v _ => some v
      | _ => none with
    | [] => .go (rs.filterMap fun r => match r.2 with
        | .at_ l _ _ => some (⟨r.1.1, r.1.2, l⟩ : Place1)
        | .remote _ _ => some ⟨r.1.1, r.1.2, remoteLoc r.1.2⟩
        | _ => none)
    | vs => .ats vs.dedup

/-- The cycles that the translations of a load's parts add (R396). -/
def State.xlatCycles (s : State) (e : Engine) (kind : AccessKind) (parts : List (Nat × Nat)) : Nat :=
  (parts.map fun p => match resolve s (e.asker p.1) (s.scratchOf e) kind p.2 with
    | .at_ _ n _ | .fault _ _ _ n | .ats _ n => n
    | _ => 0).foldl max 0

/-- The TLBs and last-page registers after a load's translations (R395). -/
def State.installAll (s : State) (eng : Nat) (e : Engine) (kind : AccessKind) (parts : List (Nat × Nat)) : State :=
  parts.foldl (fun t p =>
    match resolve s (e.asker p.1) (s.scratchOf e) kind p.2 with
    | .at_ _ _ (some x) =>
      (install t (e.asker p.1) (p.2 % 2 ^ 57) x).modEngine eng fun e =>
        e.setLane p.1 { e.lane p.1 with lastPage := some x }
    | _ => t) s

/-- The first poisoned byte of a load's parts, or the first that cannot be reached (R318, R430). -/
def State.poisoned (s : State) (ps : List Place1) (size : Nat) : Option Nat :=
  firstSome (fun p => if s.unreachable p.loc then some p.addr else (s.poisonAt p.loc size).map fun n => p.addr + n) ps

/-- The entry that holds the later accesses of some lanes behind an acquire (R146, R285). -/
def Engine.holdMem (e : Engine) (acq : Bool) (lanes : Dword) (due : Option Nat) (tag : Nat) : Engine :=
  if acq then { e with sb := e.sb ++ [{ key := .mem lanes, due, tag }] } else e

/-- The bytes of an access that its own core supplies, by their place in it (R145). -/
def State.supplied (s : State) (e : Engine) (obj ver space loc n : Nat) : List (Nat × Byte) :=
  (List.range n).filterMap fun j => (s.coreByte e obj ver space (loc + j)).map fun v => (j, v)

/-- The bytes of a load from another package that its own core supplies: of its uncommitted stores, or of posted writes that the home has
not acknowledged (R145, R281). -/
def State.suppliedAway (s : State) (eng : Nat) (e : Engine) (addr n : Nat) : List (Nat × Byte) :=
  let sent := (s.host.remote.filter fun r => r.kind == 4 && r.eng == eng).reverse
  (List.range n).filterMap fun j =>
    let a := addr + j
    ((e.forwarded (remoteLoc a)).or (firstSome (fun (r : RemoteReq) =>
      if r.addr ≤ a ∧ a < r.addr + 128 then r.packet.data.getD (a - r.addr) none else none) sent)).map fun v => (j, v)

/-- Whether a load reads its bytes in its own core, with no request to a home (R77, R278): in the scratchpad, the on-chip map, or an L1
line that no request of the engine is on its way to (R281, R286). -/
def State.loadsHere (s : State) (eng : Nat) (e : Engine) (obj ver : Nat) (p : Place1) : Bool :=
  match spaceOf p.addr with
  | 0x2 | 0x3 => true
  | sp => cachedSpace sp && s.mem.l1Has e.l1 obj ver (lineOf p.loc) && s.atHand p.loc &&
      !(s.mem.mesh.any fun q => q.2.eng == eng && q.2.parts.any fun x => lineOf x.loc == lineOf p.loc)

/-- A load's part that is sent to its home (R476). -/
def State.loadPart (s : State) (e : Engine) (w : XlatWork) (obj ver : Nat) (stream : Bool) (p : Place1) : MeshPart :=
  let sp := spaceOf p.addr
  let src : LoadFrom := { obj, version := ver, fill := cachedSpace sp && !stream, given := s.supplied e obj ver sp p.loc w.size }
  { lane := p.lane, addr := p.addr, loc := p.loc, op := .load w.code w.signed src, value := none, done := false }

/-- A translated load: the parts that its core serves take their bytes, with their latency, and the others go to their homes under a tag
(R476). -/
def State.startLoad (s : State) (eng : Nat) (e : Engine) (pc : Word) (w : XlatWork) (obj ver tag : Nat) (stream : Bool) (ps : List Place1) :
    State × Nat :=
  let away := (ps.filter fun p => !s.loadsHere eng e obj ver p).map (s.loadPart e w obj ver stream)
  let (t, lat) := s.performLoad eng e w obj ver stream (ps.filter (s.loadsHere eng e obj ver))
  (t.meshSend eng e pc.toNat w.dest tag obj false away, lat)

/-- A load from another package: a read request for each lane (R418, R421). -/
def loadRemote (f : Info) (s : State) (i : Issue) (e : Engine) (live : Dword) (obj d z : Nat) (signed acq : Bool)
    (parts : List (Nat × Nat)) : Out :=
  let (tag, s) := s.fresh
  let s := s.setEngine i.eng (((e.advance i).bookTag f tag).holdMem acq live none tag)
  .next (parts.foldl (fun s p =>
    let (id, s) := s.fresh
    let pkg := p.2 / 2 ^ 48 % 2 ^ 12
    let k : Packet :=
      { s.packet id (p.2 % 2 ^ 48) (sizeBytes z) with key := (s.importKey e.ctx pkg obj).getD 0, obj }
    let r : RemoteReq :=
      { id, pkg, port := 17, sent := s.clock.cyc, kind := 0, eng := i.eng, pc := i.pc, lane := p.1, dest := d, size := z, signed,
        addr := p.2, wait := tag, resendAt := none, packet := k, given := s.suppliedAway i.eng e p.2 (sizeBytes z) }
    { s with host := { s.host with remote := s.host.remote ++ [r] } }.sendPacket pkg 0 k) s)

/-- The scoreboard of a load that has issued: its entries clear after its latency, or with its tag where some of its parts went to their
homes; meanwhile it counts as a load of its lanes that has not returned (R73, R280), and an acquire holds their later accesses (R146). -/
def Engine.bookLoad (e : Engine) (f : Info) (live : Dword) (acq sent : Bool) (cyc lat tag : Nat) : Engine :=
  if sent then (e.bookTag f tag).holdMem acq live none tag
  else
    let e := (e.book f cyc lat).holdMem acq live (some (cyc + lat)) 0
    { e with sb := e.sb ++ [{ key := .load live, due := some (cyc + lat), tag }] }

/-- A load or `dld` of any other space: performed or sent to its homes at its issue where its lanes are translated there, otherwise when its
translation completes (R396). -/
def loadNear (f : Info) (s : State) (i : Issue) (e : Engine) (live : Dword) (r : Region) (w : XlatWork) (acq stream : Bool)
    (parts : List (Nat × Nat)) : Out :=
  let (tag, t) := s.fresh
  let pend :=
    let t := t.setEngine i.eng ((e.advance i).bookLoad f live acq true 0 0 tag)
    { t with xlat :=
      { t.xlat with pending := t.xlat.pending ++
        [{ id := tag, eng := i.eng, pc := i.pc, insn := i.insn, len := i.len, work := w, obj := r.obj, version := r.version,
           parts, due := some (s.clock.cyc + s.xlatCycles e .load parts), seen := e.beats.length, stream, root := ptbOf s e.ctx }] } }
  match s.reached e .load parts with
  | .go ps =>
    if s.xlatCycles e .load parts = 0 then
      let t := ps.foldl (fun t p => t.readWords p.loc w.size) t
      match t.poisoned ps w.size with
      | some a => .next (t.trap i .poison live a 0)
      | none =>
        let sent := ps.any fun p => !t.loadsHere i.eng e r.obj r.version p
        let t := t.installAll i.eng e .load parts
        let (t, lat) := t.startLoad i.eng ((t.engine i.eng).getD e) i.pc w r.obj r.version tag stream ps
        .next (t.modEngine i.eng fun e => (e.advance i).bookLoad f live acq sent t.clock.cyc lat tag)
    else .next pend
  | _ => .next pend

/-- LD, LDI and LDV in every space. -/
def loadAny (f : Info) (s : State) (h x d z imm : Nat) (signed acq stream : Bool) : Out :=
  gated f s fun i e live =>
    if live = 0 then .next (s.setEngine i.eng (e.advance i))
    else
      let r := e.region h
      let offs := (e.offsets live x).map fun p => (p.1, p.2 + imm)
      match s.denied e r .load (sizeBytes z) offs with
      | some c => .next (s.trap i c.cause live c.faddr c.detail)
      | none =>
        let parts := offs.map fun p => (p.1, r.base + p.2)
        match spaceOf r.base with
        | 0x4 =>
          if s.reachable (r.base / 2 ^ 48 % 2 ^ 12) then loadRemote f s i e live r.obj d z signed acq parts
          else .next (s.trap i .poison live (parts.headD (0, 0)).2 0)
        | _ => loadNear f s i e live r (.load d z signed) acq stream parts

/-! ## Stores (R145, R307 to R309, R313) -/

/-- The bytes that a store of a size code takes from a lane (R145). -/
def Lane.storeBytes (l : Lane) (d z : Nat) : List Byte :=
  match z with
  | 0 => leBytes 1 (l.reg d).toNat
  | 1 => leBytes 2 (l.reg d).toNat
  | _ => ((List.range (sizeRegs z)).map fun k => leBytes 4 (l.reg (d + k)).toNat).flatten

/-- Whether an operation returns a value to its lane (R146, R149, R151, R153). -/
def MeshOp.returns : MeshOp → Bool
  | .load _ _ _ | .faro _ _ _ _ _ | .sigTest | .sigWaitGe _ | .sigWaitEq _ => true
  | .far _ ret _ _ _ => ret
  | .store _ | .sigAdd _ | .sigMax _ => false

/-- Whether a request's operation for a lane of a mask, or a store of its gang, is still to be performed (R280): a load until its value has
returned; a store until its home has it; a far operation or signal too, but at .gang, .blk and .core (`near`) only until it enters the
core request port. -/
def MeshReq.unperformed (q : MeshReq) (lanes : Dword) (near : Bool) : Bool :=
  q.parts.any fun p => match p.op with
    | .load _ _ _ => lanes.getLsbD p.lane
    | .store _ => !p.done
    | _ => lanes.getLsbD p.lane && !p.done && (!near || (match q.stage with
        | .after | .held _ => true
        | _ => false))

/-- The same for a request to another package, which its answer ends (R280). -/
def RemoteReq.unperformed (r : RemoteReq) (lanes : Dword) (near : Bool) : Bool :=
  match r.kind with
  | 0 => lanes.getLsbD r.lane
  | 4 => !near
  | _ => lanes.getLsbD r.lane && (!near || r.port == 16)

/-- The entries that hold later accesses of some lanes behind the engine's accesses in flight: its loads and returning far operations until
they return, and for a release also what is still to be performed at the scope (R285). -/
def State.holds (s : State) (eng : Nat) (e : Engine) (lanes : Dword) (rel near : Bool) : List SbEntry :=
  let tags := ((s.mem.mesh.filter fun q => q.2.eng == eng &&
        (q.2.parts.any (fun p => p.op.returns && lanes.getLsbD p.lane) || (rel && q.2.unperformed lanes near))).map fun q => q.2.wait)
    ++ ((s.xlat.pending.filter fun p => p.eng == eng && p.parts.any fun q => lanes.getLsbD q.1).map fun p => p.id)
    ++ ((s.host.remote.filter fun r => r.eng == eng &&
      (((r.kind == 0 || r.signed) && lanes.getLsbD r.lane) || (rel && r.unperformed lanes near))).map fun r => r.wait)
  (tags.dedup.map fun t => { key := .mem lanes, due := none, tag := t }) ++ e.sb.filterMap fun x => match x.key with
    | .load l => if l &&& lanes = 0 then none else some { key := .mem lanes, due := x.due, tag := 0 }
    | _ => none

/-- The engine with later accesses of some lanes held. -/
def Engine.hold (e : Engine) (l : List SbEntry) : Engine := { e with sb := e.sb ++ l }

/-- Whether buffered stores stand before a release that their commit does not perform: those of space 0x6, and those of space 0x4 unless the
scope is .gang, .blk or .core (R280). -/
def Engine.buffersAway (e : Engine) (near : Bool) : Bool := e.beats.any fun b => b.space == 0x6 || (b.space == 0x4 && !near)

/-- Whether accesses of some lanes of an engine that are older than a number are still to be performed, at .gang, .blk and .core (`near`) or
at a wider scope (R280, R285). -/
def State.outstanding (s : State) (eng : Nat) (lanes : Dword) (near : Bool) (before : Nat) : Bool :=
  (s.mem.mesh.any fun q => q.2.eng == eng && decide (q.2.id < before) && q.2.unperformed lanes near) ||
    (s.xlat.pending.any fun p => p.eng == eng && decide (p.id < before) && p.parts.any fun q => lanes.getLsbD q.1) ||
    (s.host.remote.any fun r => r.eng == eng && decide (r.id < before) && r.unperformed lanes near) ||
    ((s.engine eng).map fun e => e.sb.any fun x => decide (x.tag < before) && (match x.key with
      | .load l => l &&& lanes != 0
      | _ => false)).getD false

/-- Whether a gang's store buffer takes `n` further beats, raises STOREBUF, or must wait for draining beats (R309). -/
inductive BufferRoom | fits | over | wait
deriving DecidableEq, Repr

def Engine.room (e : Engine) (n : Nat) : BufferRoom :=
  if 256 < e.beats.length + n then .over
  else if 256 < e.beats.length + e.draining.length + n then .wait
  else .fits

/-- STOREBUF with its detail (R318). -/
def State.storebuf (s : State) (i : Issue) (e : Engine) (live : Dword) (addr n : Nat) : State :=
  s.trap i .storebuf live addr (n * 2 ^ 16 + e.beats.length)

/-- What a store meets at its issue (R143, R146, R307, R309, R313): what a check raises, the wait of a release or for draining beats, a
fault, ATS requests, a buffer that `n` beats overrun, or the beats that it enters. -/
inductive StoreStart
  | denied (d : Denial)
  | waits
  | fault (addr kind level entry : Nat)
  | ats (iovas : List Nat)
  | over (n : Nat)
  | enters (beats : List Beat)
deriving DecidableEq, Repr

/-- A store of an engine's live lanes through a region: `merge` groups the lanes' bytes by line, where a `dst` enters one beat per lane
(R307). -/
def State.storeStart (s : State) (eng : Nat) (e : Engine) (live : Dword) (h : Nat) (offs : List (Nat × Nat)) (size : Nat)
    (rel merge : Bool) (bytes : Lane → List Byte) : StoreStart :=
  let r := e.region h
  match s.denied e r .store size offs with
  | some c => .denied c
  | none =>
    if rel && s.outstanding eng live false s.nextId then .waits
    else match s.reached e .store (offs.map fun p => (p.1, r.base + p.2)) with
      | .fault a k l x => .fault a k l x
      | .ats vs => .ats vs
      | .go ps =>
        let cells := ps.map fun p => (p.addr, cellsAt p.loc (bytes (e.lane p.lane)))
        let bs :=
          if merge then storeBeats (spaceOf r.base) r.obj r.version cells
          else cells.flatMap fun c => storeBeats (spaceOf r.base) r.obj r.version [c]
        match e.room bs.length with
        | .over => .over bs.length
        | .wait => .waits
        | .fits => .enters bs

/-- A store: its beats enter the buffer and its lanes go on. -/
def storeAny (f : Info) (s : State) (h : Nat) (offs : Engine → Dword → List (Nat × Nat)) (size : Nat) (rel merge : Bool)
    (bytes : Lane → List Byte) : Out :=
  gated f s fun i e live =>
    if live = 0 then .next (s.setEngine i.eng (e.advance i))
    else
      let parts := (offs e live).map fun p => (p.1, (e.region h).base + p.2)
      match s.storeStart i.eng e live h (offs e live) size rel merge bytes with
      | .denied c => .next (s.trap i c.cause live c.faddr c.detail)
      | .waits => .next s
      | .fault a k l x => .next (s.abortRegion i live a k l x .store)
      | .ats vs => .next (vs.foldl State.requestAts s)
      | .over n => .next (s.storebuf i e live (parts.headD (0, 0)).2 n)
      | .enters bs =>
        .next ((s.installAll i.eng e .store parts).modEngine i.eng fun e =>
          { e.advance i with beats := e.beats ++ bs.map fun b => { b with rel } })

/-! ## The instructions -/

/-- LD: `ld.type gD, [hK + gJ]`, sign-extended for s, an acquire for q (R145, R146). -/
def execLd (g : Guard) (z : Fin 8) (s : Fin 2) (q : Fin 2) (x : Fin 64) (h : Fin 16) (d : Fin 64) (st : State) : Out :=
  loadAny (infoLd g z s q x h d) st h x d z 0 (s.val == 1) (q.val == 1) false

/-- LDI: `ld.type gD, [hK + imm8 × size]` (R145, R52). -/
def execLdi (g : Guard) (z : Fin 8) (i : Fin 256) (h : Fin 16) (d : Fin 64) (s : State) : Out :=
  loadAny (infoLdi g z i h d) s h 0 d (ldiSize z) (i.val * sizeBytes (ldiSize z)) (decide (6 ≤ z.val)) false false

/-- LDV: `ldv.inv` or `ldv.str` (R147). -/
def execLdv (g : Guard) (z : Fin 8) (v : Fin 2) (x : Fin 64) (h : Fin 16) (d : Fin 64) (s : State) : Out :=
  loadAny (infoLdv g z v x h d) s h x d z 0 false false (v.val == 1)

/-- ST: `st.type [hK + gJ], gD`, with release for r (R145, R146). -/
def execSt (g : Guard) (z : Fin 8) (r : Fin 2) (x : Fin 64) (h : Fin 16) (d : Fin 64) (s : State) : Out :=
  storeAny (infoSt g z r x h d) s h (fun e live => e.offsets live x) (sizeBytes z) (r.val == 1) true
    fun l => l.storeBytes d z

/-- STI: `st.type [hK + imm8 × size], gD` (R145, R52). -/
def execSti (g : Guard) (z : Fin 8) (i : Fin 256) (h : Fin 16) (d : Fin 64) (s : State) : Out :=
  storeAny (infoSti g z i h d) s h (fun e live => (e.offsets live 0).map fun p => (p.1, p.2 + i.val * sizeBytes z))
    (sizeBytes z) false true fun l => l.storeBytes d z

/-- PREF: brings the lines into L1 and L2 as a cached load would, and never traps; nothing where a check or a translation
fails (R148).  DESIGN CHOICE (log entry 47): no rule gives the access a size, and the checks of R143 take 1 byte. -/
def execPref (g : Guard) (x : Fin 64) (h : Fin 16) (s : State) : Out :=
  gated (infoPref g x h) s fun i e live =>
    let r := e.region h
    let offs := e.offsets live x
    let s' := s.setEngine i.eng (e.advance i)
    if (s.denied e r .load 1 offs).isSome then .next s'
    else
      let parts := offs.map fun p => (p.1, r.base + p.2)
      match s.loadGo e .load parts with
      | .go ps =>
        .next ((ps.foldl (fun t p => t.cacheLine e r.obj r.version (spaceOf p.addr) p.loc false) (s'.installAll i.eng e .load parts)))
      | .lines ls => .next (ls.foldl (fun t l => t.askFor l false) s')
      | _ => .next s'

/-- TOUCH: starts the translation, and reports an absent page with ACCESS 6 without waiting (R148). -/
def execTouch (g : Guard) (x : Fin 64) (h : Fin 16) (s : State) : Out :=
  gated (infoTouch g x h) s fun i e live =>
    let r := e.region h
    let offs := e.offsets live x
    let s' := s.setEngine i.eng (e.advance i)
    if (s.denied e r .load 1 offs).isSome then .next s'
    else
      let parts := offs.map fun p => (p.1, r.base + p.2)
      .next (parts.foldl (fun t p =>
        match resolve s (e.asker p.1) (s.scratchOf e) .touch p.2 with
        | .fault k l n _ => if k = 1 then (t.report e.ctx p.2 k l n .touch).2 else t
        | .ats v _ => t.requestAts v
        | _ => t) (s'.installAll i.eng e .load parts))

/-- The status word of `probe` for a lane (R148). -/
def State.probeWord (s : State) (e : Engine) (r : Region) (k o : Nat) : Word :=
  let a := r.base + o
  let judge := fun c => s.deniedAt e r c 4 [(k, o)]
  let isAlign := fun (d : Option Denial) => match d with
    | some x => x.cause == .align
    | none => false
  let place := resolve s (e.asker k) (s.scratchOf e) .load a
  let res := match place with
    | .at_ _ _ _ => true
    | _ => false
  let poison := match place with
    | .at_ l _ _ => s.mem.poison.contains (lineOf (s.cellOf l))
    | _ => false
  BitVec.ofNat 32
    ((if isAlign (judge .load) then 16 else 0) + (if poison then 8 else 0) + (if res then 4 else 0)
      + (if (judge .store).isNone || isAlign (judge .store) then 2 else 0)
      + (if (judge .load).isNone || isAlign (judge .load) then 1 else 0))

/-- PROBE: a status word in each lane, without any trap; steps 1 and 2 of R143 are not among its checks (R148). -/
def execProbe (g : Guard) (x : Fin 64) (h : Fin 16) (d : Fin 64) (s : State) : Out :=
  gated (infoProbe g x h d) s fun i e live =>
    let r := e.region h
    let lat := 32 + s.xlatCycles e .load ((e.offsets live x).map fun p => (p.1, r.base + p.2))
    let e' := (e.mapLanes live fun k l => l.setReg d (s.probeWord e r k (l.offset x))).advance i
    .next (s.setEngine i.eng (if live = 0 then e' else e'.book (infoProbe g x h d) s.clock.cyc lat))

end Sys2Proof.Machine
end

