-- ==== Sys2Proof/Machine/Tensor.lean ====
section
/-! DEFINITION. Tensor records and the tensor-table instructions (R205 to R211). -/

namespace Sys2Proof.Machine

/-! ## Records (R205 to R208) -/

/-- A tensor record as an instruction reads it (R205). -/
structure TRec where
  base : Nat
  blksc : Nat
  bandsc : Nat
  obj : Nat
  fmt : Nat
  rank : Nat
  flags : Nat
  ext : List Nat
  str : List Nat
  rsv : Nat
deriving DecidableEq, Repr

/-- A record from its 128 bytes. -/
def TRec.ofBytes (b : List Byte) : TRec :=
  let at_ := fun (o n : Nat) => leValue ((b.drop o).take n)
  { base := at_ 0 8, blksc := at_ 8 8, bandsc := at_ 16 8, obj := at_ 24 4, fmt := at_ 28 1, rank := at_ 29 1,
    flags := at_ 30 2, ext := (List.range 5).map fun i => at_ (32 + 4 * i) 4,
    str := (List.range 5).map fun i => at_ (56 + 8 * i) 8, rsv := at_ 52 4 + at_ 96 32 }

/-- The bytes of tensor record t of a context. -/
def State.tensorBytes (s : State) (ctx t : Nat) : List Byte :=
  let m := (s.context ctx).tensors
  (List.range 128).map fun i => Store.get (α := Byte) 0 m (128 * t + i)

/-- Tensor record t of a context. -/
def State.tensor (s : State) (ctx t : Nat) : TRec := TRec.ofBytes (s.tensorBytes ctx (t % 4096))

/-- The context with bytes of its tensor table written; a zero byte is not listed. -/
def Context.writeTensors (c : Context) (cells : List Host.Cell) : Context :=
  { c with tensors := cells.foldl (fun m x => Store.set (0 : Byte) m x.1 x.2) c.tensors }

namespace TRec

/-- VALID and OBJECT (R206). -/
def valid (r : TRec) : Bool := bit r.flags 0
def object (r : TRec) : Bool := bit r.flags 1

/-- Twice the element size in bytes of a format code (R207). -/
def size2 (r : TRec) : Nat :=
  match r.fmt with
  | 0 | 6 | 7 => 8
  | 1 | 2 => 4
  | 5 => 1
  | _ => 2

/-- The footprint's length in bytes (R205). -/
def span (r : TRec) : Nat :=
  let outer := ((List.range r.rank).drop 1).map fun i => (r.ext.getD i 0 - 1) * r.str.getD i 0
  outer.sum + (r.ext.getD 0 0 * r.size2 + 1) / 2

/-- The first condition of R208 that makes a record malformed, by its detail. -/
def malformed (r : TRec) : Option Nat :=
  let dims := List.range 5
  let unit := if r.fmt = 5 then 4 else r.size2 / 2
  if r.rsv ≠ 0 ∨ 4 ≤ r.flags ∨ (dims.any fun i => decide (r.rank ≤ i) && (r.ext.getD i 0 != 0 || r.str.getD i 0 != 0)) then
    some 1
  else if 10 ≤ r.fmt then some 2
  else if r.rank = 0 ∨ 5 < r.rank ∨ (dims.any fun i => decide (i < r.rank) && r.ext.getD i 0 == 0) then some 3
  else if r.str.getD 0 0 ≠ 0 ∨ (dims.any fun i => decide (0 < i) && decide (i < r.rank) && r.str.getD i 0 % unit != 0) then
    some 4
  else if r.fmt = 5 ∧ r.ext.getD 0 0 % 8 ≠ 0 then some 5
  else if r.fmt = 5 ∧ r.blksc = 0 then some 6
  else if spaceOf (r.base + r.span - 1) ≠ spaceOf r.base ∨ 2 ^ 64 < r.base + r.span then some 7
  else none

/-- The detail that a use by an engine, or by a copy of kind 1, raises: 9 for VALID clear, else that of R208. -/
def useDetail (r : TRec) : Option Nat := if r.valid then r.malformed else some 9

/-- Elements of the record. -/
def count (r : TRec) : Nat := ((r.ext.take r.rank).foldl (· * ·) 1)

/-- The coordinates of element n in dense order, innermost first. -/
def coords (r : TRec) (n : Nat) : List Nat :=
  ((r.ext.take r.rank).foldl (fun (acc : List Nat × Nat) e => (acc.1 ++ [acc.2 % e], acc.2 / e)) ([], n)).1

/-- The address of an element's byte, by its coordinates (R205). -/
def addr (r : TRec) (xs : List Nat) : Nat :=
  r.base + (((xs.zip r.str).drop 1).map fun p => p.1 * p.2).sum + xs.headD 0 * r.size2 / 2

end TRec

/-! ## The instructions (R209 to R211) -/

/-- A write of the tensor table: the issuing lanes wait until it completes, 132 cycles later (R210). -/
def tensorWrite (s : State) (i : Issue) (live : Dword) (cells : List Host.Cell) : Out :=
  .next ((s.passAway i).sleep i.eng live i.pc i.insn i.len false (.tensorWrite (s.clock.cyc + 132) cells)).2

/-- TSET: word w of the record := gV; a BASE in space 0xF from unprivileged code raises PRIV (R209, R210). -/
def execTset (g : Guard) (b : Fin 64) (a : Fin 64) (s : State) : Out :=
  gang (infoTset g b a) s fun i e live =>
    let l := e.low live
    let t := (l.reg a).toNat % 4096
    let w := bits (l.reg a).toNat 20 16
    let v := leBytes 4 (l.reg b).toNat
    let old := (s.tensorBytes e.ctx t).take 8
    let base := leValue (if w = 0 then v ++ old.drop 4 else old.take 4 ++ v)
    if w < 2 ∧ spaceOf base = 0xF ∧ s.privileged e = false then .next (s.trap i .priv live base 0)
    else tensorWrite s i live (cellsAt (128 * t + 4 * w) v)

/-- TGET: gD := word w of the record (R209). -/
def execTget (g : Guard) (a : Fin 64) (d : Fin 64) (s : State) : Out :=
  gang (infoTget g a d) s fun i e live =>
    let v := (e.low live).reg a
    let w := leValue (((s.tensorBytes e.ctx (v.toNat % 4096)).drop (4 * bits v.toNat 20 16)).take 4)
    .next (s.setEngine i.eng ((e.setAll live d (BitVec.ofNat 32 w)).retire (infoTget g a d) i live s.clock.cyc))

/-- TBIND: BASE, OBJ, OBJECT and VALID of the record from a region register (R209). -/
def execTbind (g : Guard) (b : Fin 64) (a : Fin 64) (s : State) : Out :=
  gang (infoTbind g b a) s fun i e live =>
    let t := ((e.low live).reg a).toNat % 4096
    let r := e.region b
    if r.kind = .none then .next (s.refuse i live r.base 1 0 0)
    else if spaceOf r.base = 0xF ∧ s.privileged e = false then .next (s.trap i .priv live r.base 0)
    else
      let flags := leValue (((s.tensorBytes e.ctx t).drop 30).take 2)
      tensorWrite s i live (cellsAt (128 * t) (leBytes 8 r.base) ++ cellsAt (128 * t + 24) (leBytes 4 r.obj)
        ++ cellsAt (128 * t + 30) (leBytes 2 (Nat.lor flags 3)))

/-- TDROP: VALID of the record := 0 (R209). -/
def execTdrop (g : Guard) (a : Fin 64) (s : State) : Out :=
  gang (infoTdrop g a) s fun i e live =>
    let t := ((e.low live).reg a).toNat % 4096
    let flags := leValue (((s.tensorBytes e.ctx t).drop 30).take 2)
    tensorWrite s i live (cellsAt (128 * t + 30) (leBytes 2 (flags / 2 * 2)))

/-- TCHK: gD := 0 for a record that is not valid, the footprint's length for a well-formed one; FORMAT otherwise (R211). -/
def execTchk (g : Guard) (a : Fin 64) (d : Fin 64) (s : State) : Out :=
  gang (infoTchk g a d) s fun i e live =>
    let r := s.tensor e.ctx ((e.low live).reg a).toNat
    let put := fun (n : Nat) =>
      Host.Outcome.next (s.setEngine i.eng ((e.setAll live d (BitVec.ofNat 32 n)).retire (infoTchk g a d) i live s.clock.cyc))
    if !r.valid then put 0
    else match r.malformed with
      | some n => .next (s.trap i .format live r.base n)
      | none => put (min r.span (2 ^ 32 - 1))

end Sys2Proof.Machine
end

