-- ==== Sys2Proof/Machine/Borrow.lean ====
section
/-! DEFINITION. Ownership: borrow requests, grants, versions, write-backs, returns and the borrow tree (R154 to R160, R251 to
R271, R275, R276, R411 to R416). -/

namespace Sys2Proof.Machine

/-! ## Objects and their homes -/

/-- The package of an object's entry, none for this package: bits [59:48] of a space 0x4 base (R251). -/
def objPkg (base : Nat) : Option Nat := if spaceOf base = 0x4 then some (base / 2 ^ 48 % 2 ^ 12) else none

/-- The die whose table holds an entry of this package (R251). -/
def objDie (obj : Nat) : Nat := obj / 2 ^ 16 % 4

/-- Whether an object's entry stands on a die of this package. -/
def localObj (die : Nat) (pkg : Option Nat) (obj : Nat) : Bool := pkg.isNone && objDie obj == die

/-- The block index of an engine for XBLOCK and SBLOCK; 0 on a sequencer. -/
def Engine.blockIndex (e : Engine) (s : State) : Nat :=
  ((e.block.bind s.work.blocks.find?).map Block.index).getD 0

/-- The block of the requester of a DET launch, which R270 judges. -/
def Engine.detBlock (e : Engine) (s : State) : Option Nat := (e.block.bind s.work.blocks.find?).map Block.index

/-! ## Judging a record (R254, R273, R275) -/

/-- What a borrow instruction's record gives at issue. -/
inductive Judged
  | trap (c : Cause) (faddr detail : Nat)
  | status (n : Nat)
  | ok
deriving DecidableEq, Repr

/-- Whether a footprint keeps the address rules of its space, and the space permits objects (R272, R273). -/
def footprintOk (base span : Nat) : Bool :=
  let z := base + span - 1
  let sp := spaceOf base
  !(sp == 0x3 || (decide (0x7 ≤ sp) && decide (sp ≤ 0xE))) && addressOk base && addressOk z && spaceOf z == sp &&
    (sp != 0x2 || ((onChipLoc base).isSome && (onChipLoc z).isSome && base / 2 ^ 28 == z / 2 ^ 28))

/-- The part of R254 that the record alone decides. -/
def State.judgeRecord (s : State) (e : Engine) (r : TRec) : Judged :=
  if !r.valid || !r.object then .status 5
  else match r.malformed with
    | some n => .trap .format r.base n
    | none =>
      if spaceOf r.base = 0xF ∧ s.privileged e = false then .trap .priv r.base 0
      else if r.obj / 2 ^ 18 ≠ 0 ∨ footprintOk r.base r.span = false then .status 7
      else .ok

/-- Whether the on-chip window of a footprint may be granted to an engine (R275). -/
def State.windowGrants (s : State) (eng : Nat) (e : Engine) (exclusive : Bool) (obj base span : Nat) : Bool :=
  if spaceOf base ≠ 0x2 then true
  else
    let cl := base / 2 ^ 36 % 64
    let unit := base / 2 ^ 32 % 16
    let off := base % 2 ^ 28
    let priv := s.privileged e
    let x := s.entry obj
    let isOffered := x.kind == .offered && exclusive && x.ctx == e.ctx && decide (x.base ≤ base) && decide (base + span ≤ x.base + x.span)
    let owns := match s.streamOf cl with
      | some (_, q) => q.ctx == e.ctx
      | none => false
    match base / 2 ^ 28 % 16 with
    | 0 => priv || isOffered || (List.range ((off + span + 3) / 4 - off / 4)).all fun k =>
        (s.windowOwner (cl * 8 + unit) ((off / 4 + k) / 2048) ((off / 4 + k) % 2048)).map (fun x => x.1) == some eng
    | 1 => priv || isOffered || (match e.block.bind s.work.blocks.find? with
        | some b => e.place.coreId == cl * 8 + unit && decide (b.scratchOff ≤ off)
            && decide (off + span ≤ b.scratchOff + b.scratchLen)
        | none => false)
    | 2 => !e.isSeq && owns
    | 3 => if exclusive then priv else owns
    | _ => priv && !exclusive

/-! ## Grants (R255 to R258, R263, R265, R268, R270, R271) -/

/-- The L1, die and launch of a requester. -/
structure Party where
  l1 : Option Nat
  die : Option Nat
  launch : Nat
  block : Option Nat
  det : Bool
deriving DecidableEq, Repr

/-- Who a request comes from. -/
def State.party (s : State) (r : BorrowReq) : Party :=
  match r.who with
  | .eng id => match s.engine id with
    | some e => ⟨some e.l1, some e.place.die, e.launch, e.detBlock s, s.isDet e⟩
    | none => ⟨none, none, 0, none, false⟩
  | .package _ _ _ => ⟨none, none, 0, none, false⟩

/-- Whether a requester lies within the reach of an entry's lines: the returning core while they are written back or after
a .blk or .core return, every party of the package after .die or .dev, every party after .sys (R263). -/
def OwnEntry.reaches (x : OwnEntry) (p : Party) : Bool :=
  if x.writing || x.scope == 1 || x.scope == 3 then p.l1 == some x.reachCore
  else x.scope == 0 || x.scope == 7 || p.die.isSome

/-- The scope code that brings an entry's lines within a requester's reach (R263). -/
def Party.needs (p : Party) : Nat := if p.die.isSome then 5 else 7

/-- Whether a borrow permits far operations (R144, R271). -/
def permitsFar (exclusive : Bool) (base : Nat) : Bool := exclusive || spaceOf base == 0x6

/-- Whether an object of this package has been granted to a request whose answer is still on its way. -/
def BorrowReq.granted (r : BorrowReq) : Bool :=
  r.pkg.isNone && (match r.stage with
    | .answered _ n => n == 0 || n == 3 || n == 4
    | .sent => r.version != 0
    | _ => false)

/-- Whether a party outside a launch holds a borrow of the object that permits far operations, its answer being perhaps still on its way
(R271). -/
def State.farHeldOutside (s : State) (obj launch : Nat) : Bool :=
  (s.work.engines.any fun kv => kv.2.launch != launch && kv.2.regions.any fun hr =>
    hr.2.kind != .none && hr.2.obj == obj && (objPkg hr.2.base).isNone && permitsFar (hr.2.kind == .exclusive) hr.2.base) ||
    s.own.requests.any fun r => r.granted && r.obj == obj && (s.party r).launch != launch && permitsFar r.exclusive r.base

/-- Whether an entry refuses a request with DETORDER (R270, R271). -/
def State.detRefuses (x : OwnEntry) (p : Party) (r : BorrowReq) : Bool :=
  let order := match p.block with
    | some i => p.det &&
        ((x.xlaunch == p.launch && decide (i < x.xblock))
          || (r.exclusive && x.slaunch == p.launch && decide (i < x.sblock)))
    | none => false
  order || (x.detRed && x.detLaunch != p.launch && permitsFar r.exclusive r.base)

/-- The tiles, as a mask, whose window bytes a range of addresses meets in a cluster (R201). -/
def tilesOf (cluster base span : Nat) : Nat :=
  if spaceOf base = 0x2 ∧ base / 2 ^ 28 % 2 ^ 14 = cluster * 256 + 0x82 then
    ((List.range 8).map fun k =>
      if base % 2 ^ 28 < (k + 1) * 2 ^ 18 ∧ k * 2 ^ 18 < base % 2 ^ 28 + span then 2 ^ k else 0).sum
  else 0

/-- Whether an operation that writes one of the tiles of a range of accumulator bytes is queued or in progress, or an `mcommit` waits
(R199, R201, R306). -/
def State.tilesWritten (s : State) (base span : Nat) : Bool :=
  let c := base / 2 ^ 36 % 64
  let m := s.matrix c
  let t := tilesOf c base span
  t != 0 && (m.commitWait || m.queue.any fun o => Nat.land o.tiles t != 0)

/-- Whether a borrow of accumulator bytes must wait: for the engine, or for a copy into one of its tiles (R199, R201, R306). -/
def State.tilesBusy (s : State) (base span : Nat) : Bool :=
  let t := tilesOf (base / 2 ^ 36 % 64) base span
  s.tilesWritten base span || (t != 0 && s.work.copies.any fun c =>
    (c.status == .inFlight || c.status == .stalled) && Nat.land (tilesOf (base / 2 ^ 36 % 64) c.dest.base c.dest.extent) t != 0)

/-- Whether a range of accumulator bytes meets a tile with PSN set (R299). -/
def State.tilesPoisoned (s : State) (base span : Nat) : Bool :=
  let c := base / 2 ^ 36 % 64
  let t := tilesOf c base span
  t != 0 && (List.range 8).any fun k => t.testBit k && bit (Store.get 0 (s.matrix c).records k) 7

/-- Whether the kind of an entry, its shadow and the rules of a DET launch let a request be granted (R255, R268, R271). -/
def State.grantable (s : State) (x : OwnEntry) (p : Party) (r : BorrowReq) : Bool :=
  (match x.kind with
  | .free | .idle => true
  | .excl => false
  | .shared => !r.exclusive && decide (x.holders < 65535)
  | .offered => r.exclusive)
  && !(r.exclusive && x.shadow)
  && !s.tilesBusy r.base r.extent
  && !(p.det && permitsFar r.exclusive r.base && s.farHeldOutside r.obj p.launch)

/-- Whether a store, far operation or signal to an object's bytes is under way from an engine that holds no borrow of it any more: what it
writes belongs before the next borrow (R282, R283).  DEDUCED (log entry 52): the next grant waits for it. -/
def State.landing (s : State) (obj : Nat) : Bool :=
  s.mem.mesh.any fun kq => kq.2.obj == obj && (kq.2.parts.any fun p => !p.done && (match p.op with
      | .load _ _ _ => false
      | _ => true)) &&
    !(((s.engine kq.2.eng).map fun e => (Store.vals e.regions).any fun r =>
        r.kind != .none && r.obj == obj && (objPkg r.base).isNone).getD true)

/-- The requests that wait at an entry, in arrival order. -/
def State.waitingAt (s : State) (obj : Nat) : List BorrowReq :=
  s.own.requests.filter fun r => r.stage == .queued && r.pkg.isNone && r.obj == obj

/-- Whether a waiting request may be granted now: nothing waits before it, or it is shared and only shared requests that
wait for write-back stand before it (R256). -/
def State.mayGrant (s : State) (r : BorrowReq) : Bool :=
  let x := s.entry r.obj
  let before := (s.waitingAt r.obj).takeWhile fun q => q.id != r.id
  s.grantable x (s.party r) r && x.reaches (s.party r) && (x.kind == .shared || !s.landing r.obj) &&
    (before.isEmpty || (!r.exclusive && before.all fun q => !q.exclusive && s.grantable x (s.party q) q))

/-- A version one higher; it is never 0 (R258). -/
def nextVersion (v : Nat) : Nat := if v = 2 ^ 32 - 1 then 1 else v + 1

/-- The L1 tags after a version advance granted to a core: its lines follow; at a wrap every line of the object goes
(R258). -/
def Mem.retag (m : Mem) (core obj v : Nat) : Mem :=
  if v = 2 ^ 32 - 1 then { m with l1 := m.l1.filter fun t => t.obj != obj }
  else { m with l1 := m.l1.map fun t =>
    if t.core == core && t.obj == obj && t.version == v then { t with version := v + 1 } else t }

/-- Whether two address ranges meet. -/
def rangesMeet (a n b m : Nat) : Bool := decide (a < b + m) && decide (b < a + n)

/-- Those of some lines that hold bytes of a range of a context's addresses, where it is mapped. -/
def State.linesWithin (s : State) (ctx base span : Nat) (lines : List Nat) : List Nat :=
  let pages := (List.range ((base % 4096 + span + 4095) / 4096)).filterMap fun k =>
    (s.quietLoc ctx .load (base / 4096 * 4096 + 4096 * k)).map fun l => (base / 4096 * 4096 + 4096 * k, l)
  lines.filter fun l => pages.any fun p =>
    decide (p.2 ≤ l * 128) && decide (l * 128 < p.2 + 4096) && rangesMeet (p.1 + (l * 128 - p.2)) 128 base span

/-- Whether a range of a context covers a poisoned line (R255). -/
def State.coversPoison (s : State) (ctx base span : Nat) : Bool := !(s.linesWithin ctx base span s.mem.poison).isEmpty

/-- The status with which a request is granted: POISON before ABANDONED (R255). -/
def State.grantStatus (s : State) (r : BorrowReq) : Nat :=
  let sick := match r.pkg with
    | none => s.coversPoison (s.entry r.obj).ctx r.base r.extent || s.tilesPoisoned r.base r.extent
    | some _ => s.mem.poison.any fun l => rangesMeet (l * 128) 128 (remoteLoc r.base) r.extent
  if sick then 3 else if r.pkg.isNone && (s.entry r.obj).abandoned then 4 else 0

/-- The state with a request replaced. -/
def State.setRequest (s : State) (r : BorrowReq) : State :=
  { s with own := { s.own with requests := s.own.requests.map fun q => if q.id == r.id then r else q } }

/-- A request that waits at its entry, behind those that came before it (R256). -/
def State.queueRequest (s : State) (r : BorrowReq) : State :=
  { s with own := { s.own with requests := (s.own.requests.filter fun q => q.id != r.id) ++ [{ r with stage := .queued }] } }

/-- A message between two dies of this package, which arrives after 36 cycles for each boundary (R412). -/
def State.sendInner (s : State) (delay : Nat) (m : OwnMsg) : State :=
  { s with own := { s.own with messages := s.own.messages ++
    [(s.clock.cyc + delay + 36 * dieCrossings m.srcDie m.dstDie, m)] } }

/-- A message to another package: it takes the first listed port, where channel 0 has credit for its flit, and waits behind
earlier ones otherwise (R419, R420). -/
def State.sendOuter (s : State) (m : OwnMsg) : State :=
  let hold := { s with host := { s.host with unsentOwn := s.host.unsentOwn ++ [m] } }
  match (Store.get [] s.host.routes m.dstPkg).head? with
  | none => hold
  | some port =>
    if s.credit port 0 = 0 ∨ (s.host.unsentOwn.any fun u => u.dstPkg == m.dstPkg) then hold
    else { s with host :=
      { s.host with
        ports := s.host.ports.modify port fun l => { l with credits := l.credits.put 0 (s.credit port 0 - 1) }
        out := s.host.out ++ [.own m] } }

/-- The messages that wait for credit or a route, sent again in order. -/
def State.flushOwn (s : State) : State :=
  s.host.unsentOwn.foldl State.sendOuter { s with host := { s.host with unsentOwn := [] } }

/-- A message of this package. -/
def State.ownMsg (s : State) (type tag srcDie dstPkg dstDie obj : Nat) : OwnMsg :=
  { type, status := 0, tag, srcPkg := s.pkgId, srcDie, dstPkg, dstDie, obj, version := 0, lease := 0, key := 0 }

/-- The answer of an entry to a request: to an engine of the entry's die after 60 cycles, otherwise by a GRANT or DENY that
leaves after 60 cycles (R77, R412). -/
def State.answerRequest (s : State) (r : BorrowReq) (status version lease : Nat) : State :=
  let granted := status == 0 || status == 3 || status == 4
  let d := objDie r.obj
  match r.who with
  | .eng id =>
    let die := ((s.engine id).map fun e => e.place.die).getD d
    if die = d then s.setRequest { r with stage := .answered (s.clock.cyc + 60) status, version }
    else
      (s.setRequest { r with stage := .sent, version }).sendInner 60
        { s.ownMsg (if granted then 3 else 4) (r.id % 2 ^ 16) d s.pkgId die r.obj with status, version, lease }
  | .package pkg die tag =>
    { s with own := { s.own with requests := s.own.requests.filter fun q => q.id != r.id } }.sendOuter
      { s.ownMsg (if granted then 3 else 4) tag d pkg die r.obj with status, version, lease }

/-- The Gauze length of an entry (R414). -/
def State.gauzeOf (s : State) (obj : Nat) : Nat := Store.get 4096 s.own.gauze obj

/-- Whether a request is a lease: it comes from another die or package (R267). -/
def State.leaseOf (s : State) (r : BorrowReq) : Option (Nat × Nat) :=
  match r.who with
  | .eng id =>
    let die := ((s.engine id).map fun e => e.place.die).getD (objDie r.obj)
    if die = objDie r.obj then none else some (s.pkgId, die)
  | .package pkg die _ => some (pkg, die)

/-- What an entry names as the block of its exclusive holder: a block, or for another package, whose launch is 0, the package. -/
def BorrowReq.holder (r : BorrowReq) (p : Party) : Nat :=
  match r.who with
  | .package pkg _ _ => pkg
  | .eng _ => p.block.getD 0

/-- What a DET launch's granted borrow leaves in its entry (R270, R271). -/
def OwnEntry.detNote (x : OwnEntry) (p : Party) (r : BorrowReq) : OwnEntry :=
  let x := if p.det && permitsFar r.exclusive r.base then { x with detRed := true, detLaunch := p.launch } else x
  if p.det && !r.exclusive then
    { x with
      slaunch := p.launch
      sblock := if x.slaunch = p.launch then max x.sblock (p.block.getD 0) else p.block.getD 0 }
  else x

/-- A GRANT to a proxy counted under its lease, which the first of them opens (R413). -/
def grantLease (ls : List Lease) (pkg die cyc : Nat) : List Lease :=
  if ls.any fun l => l.pkg == pkg && l.die == die then
    ls.map fun l => if l.pkg = pkg ∧ l.die = die then { l with since := cyc, count := l.count + 1 } else l
  else ls ++ [{ pkg, die, since := cyc, recalled := false, count := 1 }]

/-- BORROW_GRANT (R255): the entry's new state and version, the lease of a shared grant to another die or package (R413),
and the answer; loads that are on their way keep the bytes that they are to return (R283). -/
def State.grant (s : State) (r : BorrowReq) : State :=
  let p := s.party r
  let status := s.grantStatus r
  let x := (s.entry r.obj).detNote p r
  if r.exclusive then
    let s := s.keepLoads (fun q => q.obj == r.obj) fun src _ => src.obj == r.obj
    let keep := x.kind == .offered
    let v := if keep then x.version else nextVersion x.version
    let s := if keep then s else { s with mem := s.mem.retag (p.l1.getD 2048) r.obj x.version }
    let s := s.setEntry r.obj { x with
      kind := .excl, version := v, xlaunch := p.launch, xblock := r.holder p, abandoned := false, slaunch := 0,
      sblock := 0 }
    let s := { s with own := { s.own with gauze := s.own.gauze.put r.obj 4096 } }
    s.answerRequest r status v 0
  else
    let s := s.setEntry r.obj { x with kind := .shared, holders := x.holders + 1 }
    match s.leaseOf r with
    | none => s.answerRequest r status x.version 0
    | some (pkg, die) =>
      let ls := grantLease (Store.get [] s.own.leases r.obj) pkg die s.clock.cyc
      let s := { s with own := { s.own with leases := s.own.leases.put r.obj ls } }
      s.answerRequest r status x.version (s.gauzeOf r.obj)

/-! ## Write-back (R263 to R265) -/

/-- The cluster of an L1: a core's, or a sequencer's own. -/
def l1Cluster (l1 : Nat) : Nat := if l1 < 512 then l1 / 8 else l1 - 512

/-- The dirty lines of an object's version in an L1. -/
def State.dirtyLines (s : State) (core obj ver : Nat) : List Nat :=
  ((s.mem.l1Dirty core obj ver).map fun c => lineOf c.1).dedup

/-- The dirty L2 lines of an object's bytes. -/
def State.dirtyL2 (s : State) (x : OwnEntry) : List Nat :=
  s.linesWithin x.ctx x.base x.span ((s.mem.l2.filter fun kv => kv.2).map Prod.fst)

/-- W of R264 for lines written back from a core to a scope. -/
def State.writeBackCycles (s : State) (core scope : Nat) (lines : List Nat) : Nat :=
  let c := l1Cluster core
  let far := (lines.map fun l => l2Latency c (homeOf s (c / 16) (l * 128))).foldl max 96
  far + (lines.length - 1) + (if scope = 7 ∧ lines.any fun l => isDram (l * 128) then dramCycles else 0)

/-- Lines carried beyond L2 by a return at .sys: they are clean in L2, and those of host memory are written over CXL
(R263). -/
def State.writeThrough (s : State) (lines : List Nat) : State :=
  let s := { s with mem := { s.mem with l2 := s.mem.l2.mapKV fun k d => if lines.contains k then false else d } }
  lines.foldl (fun s l =>
    if isHost (l * 128) then
      { s with host := { s.host with out := s.host.out ++
        [.cxlWrite (l * 128 - 2 ^ 60) (s.readHomeBytes (l * 128) 128) (s.mem.poison.contains l)] } }
    else s) s

/-- A host line taken by a die for writing: the other dies' copies go, and this die holds it M (R427). -/
def State.ownLine (s : State) (die line : Nat) : State :=
  ((List.range 4).foldl (fun s d => if d = die then s else s.setLineState d line .i) s).setLineState die line .m

/-- Dirty bytes of an object that an L1 holds no longer: those whose value has been written to their homes. -/
def Mem.cleanCells (m : Mem) (core obj : Nat) (cells : List (Nat × Byte)) : Mem :=
  { m with l1 := (m.l1.map fun t =>
    if t.core = core ∧ t.obj = obj then { t with bytes := t.bytes.filter fun c => !cells.contains c } else t).filter fun t =>
      !(t.lines.isEmpty && t.bytes.isEmpty) }

/-- Captured bytes of a write-back written to their homes. -/
def State.writeCaptured (s : State) (core obj : Nat) (cells : List (Nat × Byte)) : State :=
  let lines := (cells.map fun c => lineOf c.1).dedup
  let s := lines.foldl (fun s l => if isHost (l * 128) then s.ownLine (l1Cluster core / 16) l else s) s
  let s := s.performL2 cells
  { s with mem := s.mem.cleanCells core obj cells }

/-- The dirty lines of an object's version in an L1 written to their home slices. -/
def State.flushObject (s : State) (core obj ver : Nat) : State := s.writeCaptured core obj (s.mem.l1Dirty core obj ver)

/-- An entry's lines brought to a wider scope: at once where none is dirty, otherwise by a write-back that completes W cycles
later (R264, R265).  DEDUCED (log entry 53): it carries the bytes of its start, which stand at their homes when it completes; of an earlier one that still runs it
takes the bytes over that have changed since. -/
def State.startWriteBack (s : State) (obj scope : Nat) (origin : Option (Nat × Nat × Word)) : State :=
  let x := s.entry obj
  let cells := s.mem.l1Dirty x.reachCore obj x.version
  let lines := s.dirtyLines x.reachCore obj x.version ++ (if scope = 7 then s.dirtyL2 x else [])
  if lines.isEmpty then s.setEntry obj { x with scope, writing := false }
  else
    let w : WriteBack :=
      { obj, version := x.version, core := x.reachCore, scope, due := s.clock.cyc + s.writeBackCycles x.reachCore scope lines,
        origin, away := none, fail := 0, lines, cells, blame := x.returned }
    let older := s.own.writeBacks.map fun y =>
      if y.obj = obj then { y with cells := y.cells.filter fun c => !cells.any fun d => d.1 == c.1 } else y
    let s := { s with own := { s.own with writeBacks := older ++ [w] } }
    let s := match origin with
      | some (g, h, _) => s.modEngine g fun e => e.setRegion h { e.region h with writingBack := true }
      | none => s
    if origin.isSome then s.setEntry obj { x with writing := true } else s

/-- WRITEBACK_START (R265): a request from outside the reach, unless a write-back that suffices runs. -/
def State.reachFor (s : State) (obj : Nat) (p : Party) : State :=
  let x := s.entry obj
  if x.reaches p || x.kind == .excl then s
  else if s.own.writeBacks.any (fun w => w.obj == obj && w.away.isNone && decide (p.needs ≤ w.scope)) then s
  else s.startWriteBack obj p.needs none

/-- The same for every request that waits at an entry, when its exclusive borrow has come back: what they need could not be known to be
dirty before (R265). -/
def State.reachWaiting (s : State) (obj : Nat) : State := (s.waitingAt obj).foldl (fun s r => s.reachFor obj (s.party r)) s

/-! ## Arrival at the entry (R254, R256, R267, R416) -/

/-- RECALL to each proxy that holds a lease of an object, once (R416). -/
def State.recallLeases (s : State) (obj : Nat) : State :=
  let ls := Store.get [] s.own.leases obj
  let s := ls.foldl (fun s (l : Lease) =>
    if l.recalled then s
    else
      let m := s.ownMsg 9 0 (objDie obj) l.pkg l.die obj
      if (s.own.proxies.any fun p => p.die == l.die && p.pkg.isNone && p.obj == obj) then s.sendInner 0 m else s.sendOuter m) s
  { s with own := { s.own with leases := s.own.leases.put obj (ls.map fun l => { l with recalled := true }) } }

/-- The status with which an entry refuses a request at once, by the order of R254 and then R270 and R271. -/
def State.entryRefuses (s : State) (r : BorrowReq) (x : OwnEntry) : Option Nat :=
  let ctx := match r.who with
    | .eng id => ((s.engine id).map Engine.ctx).getD 0
    | .package _ _ _ => x.ctx
  let window := match r.who with
    | .eng id => (s.engine id).any fun e => s.windowGrants id e r.exclusive r.obj r.base r.extent
    | .package _ _ _ => true
  if !window then some 7
  else if x.ctx ≠ ctx then some 5
  else if r.base < x.base ∨ x.base + x.span < r.base + r.extent ∨ (x.layerEntry ∧ r.layer.isNone) then some 7
  else if State.detRefuses x (s.party r) r then some 2
  else none

/-- An entry as a request finds it: a free one is claimed (R254). -/
def State.claimed (s : State) (r : BorrowReq) : OwnEntry :=
  let x := s.entry r.obj
  let ctx := match r.who with
    | .eng id => ((s.engine id).map Engine.ctx).getD 0
    | .package _ _ _ => x.ctx
  if x.kind = .free then { OwnEntry.blank with kind := .idle, ctx, base := r.base, span := r.extent, version := 1 } else x

/-- A request at its entry (R254 to R256): judged, claimed, answered or queued. -/
def State.atEntry (s : State) (r : BorrowReq) : State :=
  let x := s.claimed r
  match s.entryRefuses r x with
  | some n => s.answerRequest r n 0 0
  | none =>
    let p := s.party r
    let s := (s.setEntry r.obj x).reachFor r.obj p
    let s := if r.exclusive then s.recallLeases r.obj else s
    let x := s.entry r.obj
    if r.try_ && !(s.grantable x p r && x.reaches p && (s.waitingAt r.obj).isEmpty) then s.answerRequest r 1 0 0
    else s.queueRequest r

/-- The proxy of a die for an object. -/
def State.proxyOf (s : State) (die : Nat) (pkg : Option Nat) (obj : Nat) : Option Proxy :=
  s.own.proxies.find? fun p => p.die == die && p.pkg == pkg && p.obj == obj

/-- The proxies with one replaced or added; an entry that holds no holder and no lease is freed (R412). -/
def State.setProxy (s : State) (p : Proxy) : State :=
  let rest := s.own.proxies.filter fun q => !(q.die == p.die && q.pkg == p.pkg && q.obj == p.obj)
  { s with own := { s.own with proxies :=
    if p.holders = 0 ∧ p.exclusive = false ∧ p.offered = false ∧ p.expiry.isNone then rest else rest ++ [p] } }

/-- A proxy entry that nothing holds. -/
def Proxy.fresh (die : Nat) (pkg : Option Nat) (obj : Nat) : Proxy :=
  { die, pkg, obj, holders := 0, exclusive := false, version := 0, expiry := none, recalled := false, renewSent := false,
    grants := 0, offered := false }

/-- Whether a proxy entry can be taken on a die (R412). -/
def State.proxyFree (s : State) (die : Nat) (pkg : Option Nat) (obj : Nat) : Bool :=
  (s.proxyOf die pkg obj).isSome || decide ((s.own.proxies.filter fun p => p.die == die).length < 16384)

/-- A request goes from its proxy entry to the home (R411, R412). -/
def State.forwardRequest (s : State) (die key : Nat) (r : BorrowReq) : State :=
  let m := { s.ownMsg (if r.exclusive then 1 else 2) (r.id % 2 ^ 16) die (r.pkg.getD s.pkgId) (objDie r.obj) r.obj with key }
  let s := s.setRequest { r with stage := .sent }
  if r.pkg.isNone then s.sendInner 0 m else s.sendOuter m

/-- A shared borrow under a proxy's valid lease: judged as its entry would judge it, with the marks of a DET launch (R254, R255, R270,
R413). -/
def State.underProxy (s : State) (r : BorrowReq) (p : Proxy) : State :=
  let done := fun (s : State) (n : Nat) => s.setRequest { r with stage := .answered (s.clock.cyc + 60) n, version := p.version }
  match if r.pkg.isNone then s.entryRefuses r (s.entry r.obj) else none with
  | some n => done s n
  | none =>
    let n := s.grantStatus r
    let s := if r.pkg.isNone then s.setEntry r.obj ((s.entry r.obj).detNote (s.party r) r) else s
    done (s.setProxy { p with holders := p.holders + 1 }) n

/-- A request at its own die's proxy entry (R412, R413, R424): a shared borrow under a valid lease is granted there, and an exclusive one of
an object of another package that this die has offered (R159, R251); otherwise the request goes to the home, if the context holds a key for
another package's object. -/
def State.atProxy (s : State) (e : Engine) (r : BorrowReq) : State :=
  let die := e.place.die
  let p := (s.proxyOf die r.pkg r.obj).getD (.fresh die r.pkg r.obj)
  let valid := match p.expiry with
    | some t => decide (s.clock.cyc < t)
    | none => false
  let key := r.pkg.bind fun k => s.importKey e.ctx k r.obj
  let waits := r.pkg.isNone && (s.tilesBusy r.base r.extent ||
    ((s.party r).det && permitsFar r.exclusive r.base && s.farHeldOutside r.obj (s.party r).launch))
  if r.pkg.isSome && key.isNone then s.setRequest { r with stage := .answered (s.clock.cyc + 60) 6 }
  else if r.exclusive && p.offered then
    (s.setProxy { p with offered := false, exclusive := true }).setRequest
      { r with stage := .answered (s.clock.cyc + 60) (s.grantStatus r), version := p.version }
  else if !r.exclusive && valid && !waits then s.underProxy r p
  else s.forwardRequest die (key.getD 0) r

/-- BORROW_REQUEST_ARRIVE for a request (R256): at the entry of its die, or at the die's proxy entry. -/
def State.requestArrives (s : State) (r : BorrowReq) : State :=
  match r.who with
  | .eng id => match s.engine id with
    | some e => if localObj e.place.die r.pkg r.obj then s.atEntry r else s.atProxy e r
    | none => { s with own := { s.own with requests := s.own.requests.filter fun q => q.id != r.id } }
  | .package _ _ _ => s.atEntry r

/-! ## Releases (R160, R255, R262, R263, R269, R380) -/

/-- Frames of 64 KiB of the Voile reserve that a shadow of an entry takes (R268). -/
def OwnEntry.voileFrames (x : OwnEntry) : Nat := (x.span + 65535) / 65536

/-- Frames of a context's Voile reserve given back. -/
def State.releaseVoile (s : State) (ctx n : Nat) : State := s.modContext ctx fun c => { c with frames := c.frames - n }

/-- The retired version of an entry is freed, and its frames return to the reserve (R269). -/
def State.freeRetired (s : State) (obj : Nat) : State :=
  let x := s.entry obj
  (s.setEntry obj { x with rholders := 0, retired := 0, retiredFrames := [] }).releaseVoile x.ctx x.voileFrames

/-- One shared borrow of a version released at its entry: RETIRED is counted apart, and its frames go with its last holder
(R255, R269). -/
def State.dropShared (s : State) (obj version : Nat) : State :=
  let x := s.entry obj
  if x.retired ≠ 0 ∧ version = x.retired then
    if x.rholders ≤ 1 then s.freeRetired obj
    else s.setEntry obj { x with rholders := x.rholders - 1 }
  else if x.holders ≤ 1 then
    s.setEntry obj { x with holders := 0, kind := if x.kind = .shared then .idle else x.kind }
  else s.setEntry obj { x with holders := x.holders - 1 }

/-- LRETURN of a proxy's lease (R413, R416). Its tag, which its sender chooses (R411), is the number of GRANTs under the lease: DESIGN CHOICE
(log entry 44). -/
def State.sendLreturn (s : State) (p : Proxy) : State :=
  let m := { s.ownMsg 6 p.grants p.die (p.pkg.getD s.pkgId) (objDie p.obj) p.obj with version := p.version }
  let s := if p.pkg.isNone then s.sendInner 0 m else s.sendOuter m
  s.setProxy { p with holders := 0, expiry := none, recalled := false, renewSent := false, grants := 0 }

/-- A shared borrow of a party on a die released (R160, R413). -/
def State.releaseShared (s : State) (die : Nat) (r : Region) : State :=
  let pkg := objPkg r.base
  if localObj die pkg r.obj then s.dropShared r.obj r.version
  else match s.proxyOf die pkg r.obj with
    | none => s
    | some p =>
      let p := { p with holders := p.holders - 1 }
      if p.holders = 0 ∧ p.recalled then s.sendLreturn p else s.setProxy p

/-- Whether writes or far operations of an engine to an object of another package have yet to be completed back (R447). -/
def State.awayPending (s : State) (eng pkg obj : Nat) : Bool :=
  s.host.remote.any fun q => q.eng == eng && q.pkg == pkg && q.packet.obj == obj && (q.kind == 4 || q.kind == 1 || q.kind == 2)

/-- RETURN of an exclusive borrow of another package's object: its proxy entry lets go (R411, R412). -/
def State.sendReturn (s : State) (die pkg obj version : Nat) : State :=
  let s := match s.proxyOf die (some pkg) obj with
    | some p => s.setProxy { p with exclusive := false }
    | none => s
  s.sendOuter { s.ownMsg 5 0 die pkg (objDie obj) obj with version }

/-- An exclusive borrow of an engine's region released at a scope (R160, R263, R264); for an object of another package RETURN
leaves once everything sent there has been completed (R447); a sync-word object has nothing to write back, and its reach is at once that of
.dev (R266). -/
def State.releaseExclusive (s : State) (eng : Nat) (e : Engine) (h : Nat) (r : Region) (scope : Nat) (pc : Word) (lanes : Dword) : State :=
  match objPkg r.base with
  | some k =>
    if s.awayPending eng k r.obj then
      let w : WriteBack :=
        { obj := r.obj, version := r.version, core := e.l1, scope, due := s.clock.cyc, origin := some (eng, h, pc)
          away := some (k, e.place.die), fail := 0, lines := [], cells := [], blame := some (eng, pc, lanes) }
      { s with own := { s.own with writeBacks := s.own.writeBacks ++ [w] } }.modEngine eng fun e =>
        e.setRegion h { e.region h with writingBack := true }
    else s.sendReturn e.place.die k r.obj r.version
  | none =>
    let s := match s.proxyOf e.place.die none r.obj with
      | some p => s.setProxy { p with exclusive := false }
      | none => s
    let sync := spaceOf r.base = 0x6
    let s := s.setEntry r.obj { s.entry r.obj with
      kind := .idle, scope := if sync then 6 else scope, reachCore := e.l1, returned := some (eng, pc, lanes) }
    let s := if sync ∨ scope = 1 ∨ scope = 3 then s else s.startWriteBack r.obj scope (some (eng, h, pc))
    s.reachWaiting r.obj

/-- JOIN_WAKE (R158): the lanes that joined a register continue. -/
def State.joinWake (s : State) (eng h : Nat) : State :=
  (s.work.waits.filter fun w => w.eng == eng && w.kind == .join h).foldl (fun s w => s.finishWait w id) s

/-- One child fewer at a parent: after the last child a reborrow's parent thaws or becomes writable, and a split's parent
thaws if it is joined (R158, R260). -/
def State.dropChild (s : State) (eng h : Nat) : State :=
  match s.engine eng with
  | none => s
  | some e =>
    let r := e.region h
    let n := r.children - 1
    let joined := s.work.waits.any fun w => w.eng == eng && w.kind == .join h
    let thaw := n == 0 && (!r.split || joined)
    let r := { r with
      children := n
      frozenChild := r.frozenChild && !thaw
      split := r.split && !thaw
      readOnly := r.readOnly && n != 0 }
    let s := s.setEngine eng (e.setRegion h r)
    if n = 0 ∧ joined then s.joinWake eng h else s

/-- The number of the layer that a region register's tensor belongs to.  DESIGN CHOICE (log entry 51): the lowest, where two layers list
the same tensor. -/
def Context.layerOfTensor (c : Context) (tensor : Nat) : Option Nat := c.layers.findIdx? fun l => l.objs.contains tensor

/-- The layer whose weight object a region holds has one holder fewer (R216). -/
def State.dropLayer (s : State) (ctx : Nat) (r : Region) : State :=
  s.modContext ctx fun c => match c.layerOfTensor r.tensor with
    | some k => { c with layers := c.layers.modify k fun l => { l with holders := l.holders - 1 } }
    | none => c

/-- A child returned to its parent's register, which counts it 4 cycles later (R261). -/
def State.childReturns (s : State) (eng h : Nat) : State :=
  { s with own := { s.own with childReturns := s.own.childReturns ++ [(s.clock.cyc + 4, eng, h)] } }

/-- A register whose region has gone: it keeps the status of its last borrow, and the mark of a return that still writes back (R160,
R259). -/
def Region.cleared (r : Region) : Region := { Region.empty with status := r.status, writingBack := r.writingBack }

/-- A region put into a register, which keeps the mark of a return that still writes back (R259, R264). -/
def Engine.fillRegion (e : Engine) (h : Nat) (r : Region) : Engine :=
  e.setRegion h { r with writingBack := (e.region h).writingBack }

/-- A region of an engine returned at a scope: a child to its parent, a layer region as `lret`, a shared or exclusive borrow
to its entry (R160, R216, R261, R262).  A block-start borrow, of the argument copy or the scratchpad, has version 0 and no
entry. -/
def State.returnRegion (s : State) (eng h scope : Nat) (pc : Word) (lanes : Dword) : State :=
  match s.engine eng with
  | none => s
  | some e =>
    let r := e.region h
    let s := s.setEngine eng (e.setRegion h r.cleared)
    let s :=
      if r.child || r.version == 0 then s
      else match r.kind with
        | .none => s
        | .shared => (if r.layer then s.dropLayer e.ctx r else s).releaseShared e.place.die r
        | .exclusive => s.releaseExclusive eng e h r scope pc lanes
    match r.parent with
    | some (g, k) => if r.child then s.childReturns g k else s.dropChild g k
    | none => s

/-- The regions of an ended gang that can be returned, in descending register order: one pass (R262). -/
def State.returnPass (s : State) (eng : Nat) (pc : Word) (lanes : Dword) : State :=
  (List.range 16).reverse.foldl (fun s h =>
    match s.engine eng with
    | none => s
    | some e =>
      let r := e.region h
      if r.kind = .none ∨ r.children ≠ 0 then s else s.returnRegion eng h 6 pc lanes) s

/-- GANG_REGION_RETURN (R262): passes until every child held here has gone back. -/
def State.returnAll (s : State) (eng : Nat) (pc : Word) (lanes : Dword) : Nat → State
  | 0 => s
  | n + 1 => (s.returnPass eng pc lanes).returnAll eng pc lanes n

/-! ## Issue (R154 to R156) -/

/-- REFUSE of a gang instruction: the fault address is the region's base, and the lane field is 0 (R141). -/
def State.refuseGang (s : State) (i : Issue) (live : Dword) (r : Region) (reason status : Nat) : State :=
  s.refuse i live r.base reason status 0

/-- A commit point issues in its lanes: the stores commit and the entry counter counts; lanes whose guard is false go on
(R308, R311). -/
def State.commitIssue (s : State) (i : Issue) : State := ((s.commit i.eng).modEngine i.eng Engine.countEntry).passAway i

/-- A commit point that completes at its issue. -/
def State.commitDone (s : State) (i : Issue) (live : Dword) : State :=
  (s.commitIssue i).modEngine i.eng fun e => e.mapLanes live fun _ l =>
    { l with pc := i.next, restart := i.next, issued := false }

/-- A commit point that completes at its issue, whose destinations are pending for its latency (R73, R76). -/
def State.commitBook (f : Info) (s : State) (i : Issue) (live : Dword) : State :=
  (s.commitDone i live).modEngine i.eng fun e => e.book f s.clock.cyc (f.latency e)

/-- The lanes of a borrow instruction wait for its answer, and its destinations are pending until then (R73, R154). -/
def State.borrowIssue (f : Info) (s : State) (i : Issue) (e : Engine) (live : Dword) (r : BorrowReq) : State :=
  let s := s.commitIssue i
  let (id, s) := s.fresh
  let (w, s) := s.sleepFor f i.eng live i true (.borrow id)
  { s with own := { s.own with requests := s.own.requests ++
    [{ r with id, wait := w, order := e.portRank (objDie r.obj * 16), since := s.clock.cyc }] } }

/-- BORROW in its four forms (R156): hP is checked, with the children that are still to be granted (R260), the record is judged, and the request
goes to the ownership table. -/
def borrow (f : Info) (s : State) (exclusive : Bool) (try_ : Option Nat) (x hs hd : Nat) : Out :=
  gang f s fun i e live =>
    let t := ((e.low live).reg x).toNat % 4096
    let rec_ := s.tensor e.ctx t
    let hp := e.region hs
    let withParent := decide (hs ≠ hd)
    let req : BorrowReq :=
      { id := 0, who := .eng i.eng, pkg := objPkg rec_.base, obj := rec_.obj % 2 ^ 18, exclusive, try_ := try_.isSome,
        tensor := t, base := rec_.base, extent := rec_.span, dest := hd, parent := if withParent then some hs else none,
        pred := try_.getD 0, layer := none, order := 0, stage := .issued, version := 0, wait := 0 }
    let answer := fun (n : Nat) =>
      Host.Outcome.next (s.borrowIssue f i e live { req with stage := .answered (s.clock.cyc + 60) n })
    let coming := (s.own.requests.filter fun q => q.who == .eng i.eng && q.parent == some hs).length
    if (e.region hd).kind ≠ .none then .next (s.refuseGang i live (e.region hd) 4 0)
    else if withParent && (hp.kind == .none || decide (rec_.base < hp.base)
        || decide (hp.base + hp.extent < rec_.base + rec_.span) || (exclusive && hp.kind == .shared)
        || decide (255 ≤ hp.children + coming)) then answer 7
    else match s.judgeRecord e rec_ with
      | .trap c a n => .next (s.trap i c live a n)
      | .status n => answer n
      | .ok => .next (s.borrowIssue f i e live req)

/-- BORROW_X: an exclusive borrow (R156). -/
def execBorrowX (g : Guard) (x : Fin 64) (s1 : Fin 16) (h : Fin 16) (s : State) : Out :=
  borrow (infoBorrowX g x s1 h) s true none x s1 h

/-- BORROW_S: a shared borrow (R156). -/
def execBorrowS (g : Guard) (x : Fin 64) (s1 : Fin 16) (h : Fin 16) (s : State) : Out :=
  borrow (infoBorrowS g x s1 h) s false none x s1 h

/-- BORROW_X_TRY: an exclusive borrow that never waits; pN := granted (R155, R156). -/
def execBorrowXTry (g : Guard) (k : Fin 8) (x : Fin 64) (s1 : Fin 16) (h : Fin 16) (s : State) : Out :=
  borrow (infoBorrowXTry g k x s1 h) s true (some k) x s1 h

/-- BORROW_S_TRY: a shared borrow that never waits; pN := granted (R155, R156). -/
def execBorrowSTry (g : Guard) (k : Fin 8) (x : Fin 64) (s1 : Fin 16) (h : Fin 16) (s : State) : Out :=
  borrow (infoBorrowSTry g k x s1 h) s false (some k) x s1 h

/-! ## The answer (R155) -/

/-- The region that a granted borrow gives (R156). -/
def BorrowReq.region (r : BorrowReq) (eng status : Nat) : Region :=
  { Region.empty with
    kind := if r.exclusive then .exclusive else .shared
    base := r.base, extent := r.extent, obj := r.obj, version := r.version, tensor := r.tensor
    parent := r.parent.map fun h => (eng, h)
    layer := r.layer.isSome, status }

/-- A parent with one more child of a kind (R156, R260). -/
def Region.addChild (p : Region) (exclusive : Bool) : Region :=
  { p with
    children := p.children + 1
    frozenChild := p.frozenChild || exclusive
    readOnly := p.readOnly || !exclusive }

/-- An answer to an engine's borrow (R155): the region and its parent, the predicate of a try form, or the trap. -/
def State.borrowAnswer (s : State) (r : BorrowReq) (eng status : Nat) : State :=
  let s := { s with own := { s.own with requests := s.own.requests.filter fun q => q.id != r.id } }
  let granted := status == 0 || status == 3 || status == 4
  let s := s.modEngine eng fun e =>
    if granted then
      let e := e.fillRegion r.dest (r.region eng status)
      match r.parent with
      | some p => e.setRegion p ((e.region p).addChild r.exclusive)
      | none => e
    else if status = 1 then e
    else e.setRegion r.dest { e.region r.dest with status }
  match s.waitOf r.wait with
  | none => s
  | some w =>
    let trap := fun (c : Cause) (detail : Nat) =>
      (s.dropWait w).raise { eng, cause := c, lanes := w.lanes, pc := w.pc, insn := w.insn, faddr := r.base, detail }
    if r.try_ then s.finishWait w fun l => l.setPred r.pred (status == 0)
    else if granted then s.finishWait w id
    else if status = 2 then trap .detorder 0
    else trap .refuse (6 * 2 ^ 24 + status * 2 ^ 16)

/-! ## REBORROW, SPLIT and RETURN (R157 to R160) -/

/-- REBORROW (R157): a sub-range of a held region, without the ownership table. -/
def reborrow (f : Info) (s : State) (exclusive : Bool) (x hs hd : Nat) : Out :=
  gang f s fun i e live =>
    let l := e.low live
    let o := (l.reg x).toNat
    let n := (l.reg (x + 1)).toNat
    let p := e.region hs
    if (e.region hd).kind ≠ .none then .next (s.refuseGang i live (e.region hd) 4 0)
    else if p.kind = .none ∨ (exclusive ∧ p.kind = .shared) ∨ p.extent < o + n ∨ 255 ≤ p.children then
      .next (s.refuseGang i live p 6 7)
    else if p.frozenChild ∨ p.frozenSelf ∨ (exclusive ∧ p.readOnly) then .next (s.refuseGang i live p 3 0)
    else
      let c : Region :=
        { Region.empty with
          kind := if exclusive then .exclusive else .shared
          base := p.base + o, extent := n, obj := p.obj, version := p.version, tensor := p.tensor
          parent := some (i.eng, hs), child := true }
      let e := (e.setRegion hs (p.addChild exclusive)).fillRegion hd c
      .next (s.setEngine i.eng (e.retire f i live s.clock.cyc))

/-- REBORROW_X: an exclusive child (R157). -/
def execReborrowX (g : Guard) (x : Fin 64) (s1 : Fin 16) (h : Fin 16) (s : State) : Out :=
  reborrow (infoReborrowX g x s1 h) s true x s1 h

/-- REBORROW_S: a shared child (R157). -/
def execReborrowS (g : Guard) (x : Fin 64) (s1 : Fin 16) (h : Fin 16) (s : State) : Out :=
  reborrow (infoReborrowS g x s1 h) s false x s1 h

/-- The gang of an engine's block with a gang index (R158, R159). -/
def State.gangOfBlock (s : State) (e : Engine) (idx : Nat) : Option Nat :=
  (e.block.bind s.work.blocks.find?).bind fun b => b.gangs.find? fun g =>
    match s.engine g with
    | some f => f.gangIndex == idx && !f.ended
    | none => false

/-- Whether a gang's register is none, and no region is on its way there. -/
def State.registerFree (s : State) (eng h : Nat) : Bool :=
  ((s.engine eng).map fun f => (f.region h).kind == .none).getD true && !(s.own.moving.any fun m => m.2.1 == eng && m.2.2.1 == h)

/-- A region put into a gang's register by a gang of its block: into its own now, with an entry on its scoreboard (R73); into another's, whose
checks see it from the next cycle on (R277). -/
def State.placeRegion (s : State) (from_ eng h : Nat) (r : Region) : State :=
  if eng = from_ then s.modEngine eng fun e =>
    let e := e.fillRegion h r
    { e with sb := e.sb ++ [{ key := .reg .h h, due := some (s.clock.cyc + 4), tag := 0 }] }
  else { s with own := { s.own with moving := s.own.moving ++ [(s.clock.cyc + 1, eng, h, r)] } }

/-- SPLIT2, SPLIT4 and SPLIT8 (R158): child k takes its slice of hS in register D + k of the named gang. -/
def split (f : Info) (s : State) (n x hs hd : Nat) : Out :=
  gang f s fun i e live =>
    let l := e.low live
    let p := e.region hs
    let idx := fun (k : Nat) => bits (l.reg (x + k / 4)).toNat (8 * (k % 4) + 7) (8 * (k % 4))
    let targets := (List.range n).map fun k => s.gangOfBlock e (idx k)
    if e.isSeq then .next (s.refuseGang i live p 5 0)
    else if p.kind ≠ .exclusive then .next (s.refuseGang i live p 1 0)
    else if p.frozenChild ∨ p.frozenSelf ∨ p.readOnly then .next (s.refuseGang i live p 3 0)
    else if p.extent % (128 * n) ≠ 0 ∨ 255 < p.children + n then .next (s.refuseGang i live p 6 7)
    else if targets.any Option.isNone then .next (s.refuseGang i live p 5 0)
    else if (targets.zipIdx).any (fun t => !s.registerFree (t.1.getD 0) (hd + t.2)) then .next (s.refuseGang i live p 4 0)
    else
      let s := s.commitBook f i live
      let s := s.modEngine i.eng fun e => e.setRegion hs
        { e.region hs with children := p.children + n, frozenChild := true, split := true }
      .next ((targets.zipIdx).foldl (fun s t =>
        match t.1 with
        | none => s
        | some g => s.placeRegion i.eng g (hd + t.2)
            { Region.empty with
              kind := .exclusive, base := p.base + t.2 * (p.extent / n), extent := p.extent / n, obj := p.obj,
              version := p.version, tensor := p.tensor, parent := some (i.eng, hs), child := true }) s)

/-- SPLIT2: two children (R158). -/
def execSplit2 (g : Guard) (x : Fin 64) (s1 : Fin 16) (h : Fin 16) (s : State) : Out :=
  split (infoSplit2 g x s1 h) s 2 x s1 h

/-- SPLIT4: four children (R158). -/
def execSplit4 (g : Guard) (x : Fin 64) (s1 : Fin 16) (h : Fin 16) (s : State) : Out :=
  split (infoSplit4 g x s1 h) s 4 x s1 h

/-- SPLIT8: eight children (R158). -/
def execSplit8 (g : Guard) (x : Fin 64) (s1 : Fin 16) (h : Fin 16) (s : State) : Out :=
  split (infoSplit8 g x s1 h) s 8 x s1 h

/-- JOIN: the lanes sleep until every child of hS has been returned, and hS thaws (R158). -/
def execJoin (g : Guard) (s1 : Fin 16) (s : State) : Out :=
  gang (infoJoin g s1) s fun i e live =>
    let r := e.region s1
    if r.children = 0 then
      .next ((s.commitBook (infoJoin g s1) i live).modEngine i.eng fun e =>
        e.setRegion s1 { e.region s1 with frozenChild := false, split := false, readOnly := false })
    else .next ((s.commitIssue i).sleepFor (infoJoin g s1) i.eng live i true (.join s1)).2

/-- GIVE: the borrow in hS moves to another gang of the block, or is offered (R159, R276). -/
def execGive (g : Guard) (x : Fin 64) (s1 : Fin 16) (s : State) : Out :=
  gang (infoGive g x s1) s fun i e live =>
    let v := (e.low live).reg x
    let r := e.region s1
    if e.isSeq then .next (s.refuseGang i live r 5 0)
    else if r.kind = .none then .next (s.refuseGang i live r 1 0)
    else if r.children ≠ 0 then .next (s.refuseGang i live r 9 0)
    else if v.getLsbD 31 then
      if r.kind ≠ .exclusive ∨ r.child ∨ r.version = 0 then .next (s.refuseGang i live r 1 0)
      else
        let s := s.commitIssue i
        let lines := s.dirtyLines e.l1 r.obj r.version
        let cycles := if lines.isEmpty then 0 else s.writeBackCycles e.l1 6 lines
        let s := s.flushObject e.l1 r.obj r.version
        let s := match objPkg r.base with
          | none =>
            let s := match s.proxyOf e.place.die none r.obj with
              | some p => s.setProxy { p with exclusive := false }
              | none => s
            (s.setEntry r.obj { s.entry r.obj with kind := .offered, scope := 6, reachCore := e.l1 }).reachWaiting r.obj
          | some k => s.setProxy { (s.proxyOf e.place.die (some k) r.obj).getD (.fresh e.place.die (some k) r.obj) with
              exclusive := false, offered := true, version := r.version }
        let s := s.modEngine i.eng fun e => e.setRegion s1 r.cleared
        let s := match r.parent with
          | some (p, h) => s.dropChild p h
          | none => s
        if cycles = 0 then
          .next (s.modEngine i.eng fun e => e.mapLanes live fun _ l => { l with pc := i.next, restart := i.next, issued := false })
        else .next (s.sleepFor (infoGive g x s1) i.eng live i true (.until_ (s.clock.cyc + cycles))).2
    else
      match s.gangOfBlock e (v.toNat % 256) with
      | none => .next (s.refuseGang i live r 5 0)
      | some t =>
        if !s.registerFree t s1 then .next (s.refuseGang i live r 4 0)
        else
          let s := (s.commitBook (infoGive g x s1) i live).modEngine i.eng fun e => e.setRegion s1 r.cleared
          .next (s.placeRegion i.eng t s1 r)

/-- FREEZE: accesses through hS are refused (R158). -/
def execFreeze (g : Guard) (s1 : Fin 16) (s : State) : Out :=
  gang (infoFreeze g s1) s fun i e live =>
    let r := e.region s1
    if r.kind = .none then .next (s.refuseGang i live r 9 0)
    else .next ((s.commitBook (infoFreeze g s1) i live).modEngine i.eng fun e => e.setRegion s1 { e.region s1 with frozenSelf := true })

/-- THAW: clears a freeze made by `freeze` (R158). -/
def execThaw (g : Guard) (s1 : Fin 16) (s : State) : Out :=
  gang (infoThaw g s1) s fun i e live =>
    let r := e.region s1
    if r.children ≠ 0 then .next (s.refuseGang i live r 9 0)
    else .next ((s.commitBook (infoThaw g s1) i live).modEngine i.eng fun e => e.setRegion s1 { e.region s1 with frozenSelf := false })

/-- RETURN at a scope (R160): hS becomes none at issue, and the return completes in the background. -/
def returnForm (f : Info) (s : State) (scope h : Nat) : Out :=
  gang f s fun i e live =>
    let r := e.region h
    if r.kind = .none then .next (s.refuseGang i live r 1 0)
    else if r.children ≠ 0 then .next (s.refuseGang i live r 9 0)
    else .next ((s.commitBook f i live).returnRegion i.eng h scope i.pc live)

/-- RETURN_BLK (R160). -/
def execReturnBlk (g : Guard) (s1 : Fin 16) (s : State) : Out := returnForm (infoReturnBlk g s1) s 1 s1

/-- RETURN_CORE (R160). -/
def execReturnCore (g : Guard) (s1 : Fin 16) (s : State) : Out := returnForm (infoReturnCore g s1) s 3 s1

/-- RETURN_DIE (R160). -/
def execReturnDie (g : Guard) (s1 : Fin 16) (s : State) : Out := returnForm (infoReturnDie g s1) s 5 s1

/-- RETURN_DEV (R160). -/
def execReturnDev (g : Guard) (s1 : Fin 16) (s : State) : Out := returnForm (infoReturnDev g s1) s 6 s1

/-- RETURN_SYS (R160). -/
def execReturnSys (g : Guard) (s1 : Fin 16) (s : State) : Out := returnForm (infoReturnSys g s1) s 7 s1

/-- The word that `bstat` writes (R160). -/
def Region.bstatWord (r : Region) : Nat :=
  r.status % 16 + r.kind.code * 16 + (if r.frozenChild || r.frozenSelf then 64 else 0)
    + (if r.children ≠ 0 then 128 else 0) + (if r.writingBack then 256 else 0)

/-- BSTAT: the status word of hS (R160). -/
def execBstat (g : Guard) (x : Fin 64) (s1 : Fin 16) (s : State) : Out :=
  gang (infoBstat g x s1) s fun i e live =>
    .next (s.setEngine i.eng ((e.setAll live x (BitVec.ofNat 32 (e.region s1).bstatWord)).retire (infoBstat g x s1) i live
      s.clock.cyc))

/-- BDROP: hS becomes none; an exclusive borrow's dirty lines are discarded and the version advances (R160, R261). -/
def execBdrop (g : Guard) (s1 : Fin 16) (s : State) : Out :=
  gang (infoBdrop g s1) s fun i e live =>
    let r := e.region s1
    if r.kind = .none then .next (s.refuseGang i live r 1 0)
    else if r.children ≠ 0 then .next (s.refuseGang i live r 9 0)
    else
      let s := s.commitBook (infoBdrop g s1) i live
      if r.kind = .exclusive ∧ r.child = false ∧ r.version ≠ 0 then
        let s := s.modEngine i.eng fun e => e.setRegion s1 r.cleared
        let s := { s with mem := s.mem.l1Put { s.mem.l1Get e.l1 r.obj r.version with bytes := [] } }
        let s := match objPkg r.base with
          | some _ => s.releaseExclusive i.eng e s1 r 6 i.pc live
          | none =>
            let x := s.entry r.obj
            let s := { s with mem := if x.version = 2 ^ 32 - 1 then s.mem.retag 2048 r.obj x.version else s.mem }
            let s := match s.proxyOf e.place.die none r.obj with
              | some p => s.setProxy { p with exclusive := false }
              | none => s
            (s.setEntry r.obj { x with kind := .idle, version := nextVersion x.version }).reachWaiting r.obj
        .next (match r.parent with
          | some (p, h) => s.dropChild p h
          | none => s)
      else .next (s.returnRegion i.eng s1 6 i.pc live)

end Sys2Proof.Machine
end

