-- ==== Sys2Proof/Machine/Alu.lean ====
section
/-! DEFINITION. Integer, logic, shift, bit, wide and immediate instructions, and the 16-bit forms (R40, R88 to R97). -/

namespace Sys2Proof.Machine

/-! ## What the operations compute -/

def minS (x y : Word) : Word := if x.toInt ≤ y.toInt then x else y
def maxS (x y : Word) : Word := if x.toInt ≤ y.toInt then y else x
def minN (x y : Word) : Word := if x.toNat ≤ y.toNat then x else y
def maxN (x y : Word) : Word := if x.toNat ≤ y.toNat then y else x

/-- addc: the sum with the carry in p7 (R88). -/
def addc (x y : Word) (c : Bool) : Word × Bool := addCarry x y c

/-- subb: the difference with the borrow in p7 (R88). -/
def subb (x y : Word) (c : Bool) : Word × Bool :=
  (x - y - BitVec.ofNat 32 c.toNat, decide (x.toNat < y.toNat + c.toNat))

/-- Bits [63:32] of a product (R89). -/
def mulHiS (x y : Word) : Word := BitVec.ofInt 32 (x.toInt * y.toInt / 2 ^ 32)
def mulHiN (x y : Word) : Word := BitVec.ofNat 32 (x.toNat * y.toNat / 2 ^ 32)

/-- Division and remainder with the boundary cases of R90. -/
def divS (x y : Word) : Word := if y = 0 then 0xFFFFFFFF else BitVec.ofInt 32 (x.toInt.tdiv y.toInt)
def divN (x y : Word) : Word := if y = 0 then 0xFFFFFFFF else BitVec.ofNat 32 (x.toNat / y.toNat)
def remS (x y : Word) : Word := if y = 0 then x else BitVec.ofInt 32 (x.toInt - y.toInt * x.toInt.tdiv y.toInt)
def remN (x y : Word) : Word := if y = 0 then x else BitVec.ofNat 32 (x.toNat % y.toNat)

/-- The shift amount of R93. -/
def amount (y : Word) : Nat := y.toNat % 32

/-- Position and length of a field (R93). -/
def fieldPos (y : Word) : Nat := y.toNat % 32
def fieldLen (y : Word) : Nat := min (y.toNat / 256 % 64) 32

def bfeN (x y : Word) : Word := BitVec.ofNat 32 (x.toNat / 2 ^ fieldPos y % 2 ^ fieldLen y)

/-- v sign-extended from n bits. -/
def signFrom (n v : Nat) : Word := BitVec.ofInt 32 (if 2 * v < 2 ^ n then (v : Int) else (v : Int) - 2 ^ n)

def bfeS (x y : Word) : Word :=
  if fieldLen y = 0 then 0 else signFrom (fieldLen y) (x.toNat / 2 ^ fieldPos y % 2 ^ fieldLen y)

def bfi (old x y : Word) : Word :=
  let f : Word := BitVec.ofNat 32 ((2 ^ fieldLen y - 1) * 2 ^ fieldPos y)
  (old &&& ~~~f) ||| ((x <<< fieldPos y) &&& f)

def popc (x : Word) : Word := BitVec.ofNat 32 ((List.range 32).filter fun k => x.getLsbD k).length
def clz (x : Word) : Word := BitVec.ofNat 32 (((List.range 32).find? fun k => x.getLsbD (31 - k)).getD 32)
def ctz (x : Word) : Word := BitVec.ofNat 32 (((List.range 32).find? fun k => x.getLsbD k).getD 32)
def brev (x : Word) : Word :=
  BitVec.ofNat 32 (((List.range 32).map fun k => if x.getLsbD k then 2 ^ (31 - k) else 0).sum)

/-- One result byte of bperm by its selector nibble (R95). -/
def permByte (x : Word) (z : Nat) : Nat :=
  let b := x.toNat / 256 ^ (z % 4) % 256
  if z / 4 % 2 = 1 then 0 else if z / 8 = 1 then (if 128 ≤ b then 0xFF else 0) else b

def bperm (x y : Word) : Word :=
  BitVec.ofNat 32 (((List.range 4).map fun k => permByte x (y.toNat / 16 ^ k % 16) * 256 ^ k).sum)

def absW (x : Word) : Word := if x.toInt < 0 then -x else x
def sext (x y : Word) : Word := signFrom (amount y + 1) (x.toNat % 2 ^ (amount y + 1))

/-- A 5-bit and a 9-bit immediate, sign-extended (R40, R46). -/
def imm5 (i : Nat) : Word := signFrom 5 i
def imm9 (i : Nat) : Word := signFrom 9 i

/-! ## The 16-bit forms (R40, R121) -/

/-- ADD16: D := D + S (R40). -/
def execAdd16 (s : Fin 32) (d : Fin 32) (st : State) : Out :=
  lanes (infoAdd16 s d) st (op2 (fun x y => x + y) d s d)

/-- SUB16: D := D − S (R40). -/
def execSub16 (s : Fin 32) (d : Fin 32) (st : State) : Out :=
  lanes (infoSub16 s d) st (op2 (fun x y => x - y) d s d)

/-- AND16: D := D AND S (R40). -/
def execAnd16 (s : Fin 32) (d : Fin 32) (st : State) : Out :=
  lanes (infoAnd16 s d) st (op2 (fun x y => x &&& y) d s d)

/-- OR16: D := D OR S (R40). -/
def execOr16 (s : Fin 32) (d : Fin 32) (st : State) : Out :=
  lanes (infoOr16 s d) st (op2 (fun x y => x ||| y) d s d)

/-- XOR16: D := D XOR S (R40). -/
def execXor16 (s : Fin 32) (d : Fin 32) (st : State) : Out :=
  lanes (infoXor16 s d) st (op2 (fun x y => x ^^^ y) d s d)

/-- SHL16: D := D shifted left by S[4:0] (R40). -/
def execShl16 (s : Fin 32) (d : Fin 32) (st : State) : Out :=
  lanes (infoShl16 s d) st (op2 (fun x y => x <<< amount y) d s d)

/-- SHR16: D := D shifted right logically by S[4:0] (R40). -/
def execShr16 (s : Fin 32) (d : Fin 32) (st : State) : Out :=
  lanes (infoShr16 s d) st (op2 (fun x y => x >>> amount y) d s d)

/-- SAR16: D := D shifted right arithmetically by S[4:0] (R40). -/
def execSar16 (s : Fin 32) (d : Fin 32) (st : State) : Out :=
  lanes (infoSar16 s d) st (op2 (fun x y => x.sshiftRight (amount y)) d s d)

/-- MOV16: D := S (R40). -/
def execMov16 (s : Fin 32) (d : Fin 32) (st : State) : Out :=
  lanes (infoMov16 s d) st (op1 (fun x => x) s d)

/-- MOVI5: D := the S field, sign-extended (R40). -/
def execMovi5 (i : Fin 32) (d : Fin 32) (st : State) : Out :=
  lanes (infoMovi5 i d) st fun l => l.setReg d (imm5 i)

/-- ADDI5: D := D + the S field, sign-extended (R40). -/
def execAddi5 (i : Fin 32) (d : Fin 32) (st : State) : Out :=
  lanes (infoAddi5 i d) st (op1 (fun x => x + imm5 i) d d)

/-! ## Integer arithmetic (R88 to R91) -/

/-- ADD: D := (a + b) mod 2^32 (R88). -/
def execAdd (g : Guard) (b : Fin 64) (a : Fin 64) (d : Fin 64) (s : State) : Out :=
  lanes (infoAdd g b a d) s (op2 (fun x y => x + y) a b d)

/-- SUB: D := (a − b) mod 2^32 (R88). -/
def execSub (g : Guard) (b : Fin 64) (a : Fin 64) (d : Fin 64) (s : State) : Out :=
  lanes (infoSub g b a d) s (op2 (fun x y => x - y) a b d)

/-- ADDC: D := a + b + p7, with the carry in p7 (R88). -/
def execAddc (g : Guard) (b : Fin 64) (a : Fin 64) (d : Fin 64) (s : State) : Out :=
  lanes (infoAddc g b a d) s (opCarry addc a b d)

/-- SUBB: D := a − b − p7, with the borrow in p7 (R88). -/
def execSubb (g : Guard) (b : Fin 64) (a : Fin 64) (d : Fin 64) (s : State) : Out :=
  lanes (infoSubb g b a d) s (opCarry subb a b d)

/-- MIN_S32: D := the smaller as s32 (R88). -/
def execMinS32 (g : Guard) (b : Fin 64) (a : Fin 64) (d : Fin 64) (s : State) : Out :=
  lanes (infoMinS32 g b a d) s (op2 minS a b d)

/-- MAX_S32: D := the larger as s32 (R88). -/
def execMaxS32 (g : Guard) (b : Fin 64) (a : Fin 64) (d : Fin 64) (s : State) : Out :=
  lanes (infoMaxS32 g b a d) s (op2 maxS a b d)

/-- MIN_N32: D := the smaller as n32 (R88). -/
def execMinN32 (g : Guard) (b : Fin 64) (a : Fin 64) (d : Fin 64) (s : State) : Out :=
  lanes (infoMinN32 g b a d) s (op2 minN a b d)

/-- MAX_N32: D := the larger as n32 (R88). -/
def execMaxN32 (g : Guard) (b : Fin 64) (a : Fin 64) (d : Fin 64) (s : State) : Out :=
  lanes (infoMaxN32 g b a d) s (op2 maxN a b d)

/-- MUL: D := (a × b) mod 2^32 (R89). -/
def execMul (g : Guard) (b : Fin 64) (a : Fin 64) (d : Fin 64) (s : State) : Out :=
  lanes (infoMul g b a d) s (op2 (fun x y => x * y) a b d)

/-- MULHI_S32: bits [63:32] of the signed product (R89). -/
def execMulhiS32 (g : Guard) (b : Fin 64) (a : Fin 64) (d : Fin 64) (s : State) : Out :=
  lanes (infoMulhiS32 g b a d) s (op2 mulHiS a b d)

/-- MULHI_N32: bits [63:32] of the unsigned product (R89). -/
def execMulhiN32 (g : Guard) (b : Fin 64) (a : Fin 64) (d : Fin 64) (s : State) : Out :=
  lanes (infoMulhiN32 g b a d) s (op2 mulHiN a b d)

/-- MAD: D := D + a × b (R89). -/
def execMad (g : Guard) (b : Fin 64) (a : Fin 64) (d : Fin 64) (s : State) : Out :=
  lanes (infoMad g b a d) s (op3 (fun z x y => z + x * y) a b d)

/-- DIV_S32: the signed quotient, towards zero (R89, R90). -/
def execDivS32 (g : Guard) (b : Fin 64) (a : Fin 64) (d : Fin 64) (s : State) : Out :=
  lanes (infoDivS32 g b a d) s (op2 divS a b d)

/-- DIV_N32: the unsigned quotient (R89, R90). -/
def execDivN32 (g : Guard) (b : Fin 64) (a : Fin 64) (d : Fin 64) (s : State) : Out :=
  lanes (infoDivN32 g b a d) s (op2 divN a b d)

/-- REM_S32: the signed remainder (R89, R90). -/
def execRemS32 (g : Guard) (b : Fin 64) (a : Fin 64) (d : Fin 64) (s : State) : Out :=
  lanes (infoRemS32 g b a d) s (op2 remS a b d)

/-- REM_N32: the unsigned remainder (R89, R90). -/
def execRemN32 (g : Guard) (b : Fin 64) (a : Fin 64) (d : Fin 64) (s : State) : Out :=
  lanes (infoRemN32 g b a d) s (op2 remN a b d)

/-- ADDI: D := S1 + imm9 (R91). -/
def execAddi (g : Guard) (i : Fin 512) (a : Fin 64) (d : Fin 64) (s : State) : Out :=
  lanes (infoAddi g i a d) s (op1 (fun x => x + imm9 i) a d)

/-! ## Logic, shifts, bits and constants (R92 to R96) -/

/-- AND: D := S1 and S2 (R92). -/
def execAnd (g : Guard) (b : Fin 64) (a : Fin 64) (d : Fin 64) (s : State) : Out :=
  lanes (infoAnd g b a d) s (op2 (fun x y => x &&& y) a b d)

/-- OR: D := S1 or S2 (R92). -/
def execOr (g : Guard) (b : Fin 64) (a : Fin 64) (d : Fin 64) (s : State) : Out :=
  lanes (infoOr g b a d) s (op2 (fun x y => x ||| y) a b d)

/-- XOR: D := S1 xor S2 (R92). -/
def execXor (g : Guard) (b : Fin 64) (a : Fin 64) (d : Fin 64) (s : State) : Out :=
  lanes (infoXor g b a d) s (op2 (fun x y => x ^^^ y) a b d)

/-- ANDN: D := S1 andn S2 (R92). -/
def execAndn (g : Guard) (b : Fin 64) (a : Fin 64) (d : Fin 64) (s : State) : Out :=
  lanes (infoAndn g b a d) s (op2 (fun x y => x &&& ~~~y) a b d)

/-- ORN: D := S1 orn S2 (R92). -/
def execOrn (g : Guard) (b : Fin 64) (a : Fin 64) (d : Fin 64) (s : State) : Out :=
  lanes (infoOrn g b a d) s (op2 (fun x y => x ||| ~~~y) a b d)

/-- XNOR: D := S1 xnor S2 (R92). -/
def execXnor (g : Guard) (b : Fin 64) (a : Fin 64) (d : Fin 64) (s : State) : Out :=
  lanes (infoXnor g b a d) s (op2 (fun x y => ~~~(x ^^^ y)) a b d)

/-- NOT: D := NOT S1 (R92). -/
def execNot (g : Guard) (a : Fin 64) (d : Fin 64) (s : State) : Out :=
  lanes (infoNot g a d) s (op1 (fun x => ~~~x) a d)

/-- MOV: D := S1 (R92). -/
def execMov (g : Guard) (a : Fin 64) (d : Fin 64) (s : State) : Out :=
  lanes (infoMov g a d) s (op1 (fun x => x) a d)

/-- SHL: D := S1 by S2[4:0] (R93). -/
def execShl (g : Guard) (b : Fin 64) (a : Fin 64) (d : Fin 64) (s : State) : Out :=
  lanes (infoShl g b a d) s (op2 (fun x y => x <<< amount y) a b d)

/-- SHR: D := S1 by S2[4:0] (R93). -/
def execShr (g : Guard) (b : Fin 64) (a : Fin 64) (d : Fin 64) (s : State) : Out :=
  lanes (infoShr g b a d) s (op2 (fun x y => x >>> amount y) a b d)

/-- SAR: D := S1 by S2[4:0] (R93). -/
def execSar (g : Guard) (b : Fin 64) (a : Fin 64) (d : Fin 64) (s : State) : Out :=
  lanes (infoSar g b a d) s (op2 (fun x y => x.sshiftRight (amount y)) a b d)

/-- ROTL: D := S1 by S2[4:0] (R93). -/
def execRotl (g : Guard) (b : Fin 64) (a : Fin 64) (d : Fin 64) (s : State) : Out :=
  lanes (infoRotl g b a d) s (op2 (fun x y => x.rotateLeft (amount y)) a b d)

/-- ROTR: D := S1 by S2[4:0] (R93). -/
def execRotr (g : Guard) (b : Fin 64) (a : Fin 64) (d : Fin 64) (s : State) : Out :=
  lanes (infoRotr g b a d) s (op2 (fun x y => x.rotateRight (amount y)) a b d)

/-- BFE_N32: a field of S1, zero-extended (R93). -/
def execBfeN32 (g : Guard) (b : Fin 64) (a : Fin 64) (d : Fin 64) (s : State) : Out :=
  lanes (infoBfeN32 g b a d) s (op2 bfeN a b d)

/-- BFE_S32: a field of S1, sign-extended (R93). -/
def execBfeS32 (g : Guard) (b : Fin 64) (a : Fin 64) (d : Fin 64) (s : State) : Out :=
  lanes (infoBfeS32 g b a d) s (op2 bfeS a b d)

/-- BFI: a field of S1 inserted into D (R93). -/
def execBfi (g : Guard) (b : Fin 64) (a : Fin 64) (d : Fin 64) (s : State) : Out :=
  lanes (infoBfi g b a d) s (op3 bfi a b d)

/-- POPC: the popc of S1 (R95). -/
def execPopc (g : Guard) (a : Fin 64) (d : Fin 64) (s : State) : Out :=
  lanes (infoPopc g a d) s (op1 popc a d)

/-- CLZ: the clz of S1 (R95). -/
def execClz (g : Guard) (a : Fin 64) (d : Fin 64) (s : State) : Out :=
  lanes (infoClz g a d) s (op1 clz a d)

/-- CTZ: the ctz of S1 (R95). -/
def execCtz (g : Guard) (a : Fin 64) (d : Fin 64) (s : State) : Out :=
  lanes (infoCtz g a d) s (op1 ctz a d)

/-- BREV: the brev of S1 (R95). -/
def execBrev (g : Guard) (a : Fin 64) (d : Fin 64) (s : State) : Out :=
  lanes (infoBrev g a d) s (op1 brev a d)

/-- ABS: the abs of S1 (R95). -/
def execAbs (g : Guard) (a : Fin 64) (d : Fin 64) (s : State) : Out :=
  lanes (infoAbs g a d) s (op1 absW a d)

/-- NEG: D := 0 − S1 (R95). -/
def execNeg (g : Guard) (a : Fin 64) (d : Fin 64) (s : State) : Out :=
  lanes (infoNeg g a d) s (op1 (fun x => -x) a d)

/-- BPERM: bytes of S1 by the nibbles of S2 (R95). -/
def execBperm (g : Guard) (b : Fin 64) (a : Fin 64) (d : Fin 64) (s : State) : Out :=
  lanes (infoBperm g b a d) s (op2 bperm a b d)

/-- SEXT: S1 sign-extended from bit S2[4:0] (R95). -/
def execSext (g : Guard) (b : Fin 64) (a : Fin 64) (d : Fin 64) (s : State) : Out :=
  lanes (infoSext g b a d) s (op2 sext a b d)

/-- SHL_IMM: S1 by an immediate (R94). -/
def execShlImm (g : Guard) (i : Fin 32) (a : Fin 64) (d : Fin 64) (s : State) : Out :=
  lanes (infoShlImm g i a d) s (op1 (fun x => x <<< i.val) a d)

/-- SHR_IMM: S1 by an immediate (R94). -/
def execShrImm (g : Guard) (i : Fin 32) (a : Fin 64) (d : Fin 64) (s : State) : Out :=
  lanes (infoShrImm g i a d) s (op1 (fun x => x >>> i.val) a d)

/-- SAR_IMM: S1 by an immediate (R94). -/
def execSarImm (g : Guard) (i : Fin 32) (a : Fin 64) (d : Fin 64) (s : State) : Out :=
  lanes (infoSarImm g i a d) s (op1 (fun x => x.sshiftRight i.val) a d)

/-- ROTL_IMM: S1 by an immediate (R94). -/
def execRotlImm (g : Guard) (i : Fin 32) (a : Fin 64) (d : Fin 64) (s : State) : Out :=
  lanes (infoRotlImm g i a d) s (op1 (fun x => x.rotateLeft i.val) a d)

/-- MOVL: D := imm16 (R96). -/
def execMovl (g : Guard) (i : Fin 65536) (d : Fin 32) (s : State) : Out :=
  lanes (infoMovl g i d) s fun l => l.setReg d (BitVec.ofNat 32 i.val)

/-- MOVH: D := imm16 in bits [31:16], with bits [15:0] kept (R96). -/
def execMovh (g : Guard) (i : Fin 65536) (d : Fin 32) (s : State) : Out :=
  lanes (infoMovh g i d) s (op1 (fun x => BitVec.ofNat 32 (i.val * 2 ^ 16 + x.toNat % 2 ^ 16)) d d)

/-! ## 64-bit operations (R97) -/

/-- ADD64: on pairs, modulo 2^64 (R97). -/
def execAdd64 (g : Guard) (b : Fin 64) (a : Fin 64) (d : Fin 64) (s : State) : Out :=
  lanes (infoAdd64 g b a d) s (wide2 (fun x y => x + y) a b d)

/-- SUB64: on pairs, modulo 2^64 (R97). -/
def execSub64 (g : Guard) (b : Fin 64) (a : Fin 64) (d : Fin 64) (s : State) : Out :=
  lanes (infoSub64 g b a d) s (wide2 (fun x y => x - y) a b d)

/-- MUL64LO: on pairs, modulo 2^64 (R97). -/
def execMul64lo (g : Guard) (b : Fin 64) (a : Fin 64) (d : Fin 64) (s : State) : Out :=
  lanes (infoMul64lo g b a d) s (wide2 (fun x y => x * y) a b d)

/-- MULW_S32: the full signed product (R97). -/
def execMulwS32 (g : Guard) (b : Fin 64) (a : Fin 64) (d : Fin 64) (s : State) : Out :=
  lanes (infoMulwS32 g b a d) s (widen2 (fun x y => BitVec.ofInt 64 (x.toInt * y.toInt)) a b d)

/-- MULW_N32: the full unsigned product (R97). -/
def execMulwN32 (g : Guard) (b : Fin 64) (a : Fin 64) (d : Fin 64) (s : State) : Out :=
  lanes (infoMulwN32 g b a d) s (widen2 (fun x y => BitVec.ofNat 64 (x.toNat * y.toNat)) a b d)

/-- SHL64: a pair by S2[5:0] (R97). -/
def execShl64 (g : Guard) (b : Fin 64) (a : Fin 64) (d : Fin 64) (s : State) : Out :=
  lanes (infoShl64 g b a d) s (wideShift (fun x k => x <<< k) a b d)

/-- SHR64: a pair by S2[5:0] (R97). -/
def execShr64 (g : Guard) (b : Fin 64) (a : Fin 64) (d : Fin 64) (s : State) : Out :=
  lanes (infoShr64 g b a d) s (wideShift (fun x k => x >>> k) a b d)

/-- SAR64: a pair by S2[5:0] (R97). -/
def execSar64 (g : Guard) (b : Fin 64) (a : Fin 64) (d : Fin 64) (s : State) : Out :=
  lanes (infoSar64 g b a d) s (wideShift (fun x k => x.sshiftRight k) a b d)

end Sys2Proof.Machine
end

