-- ==== Sys2Proof/Machine/Cross.lean ====
section
/-! DEFINITION. Instances of cross-lane instructions, `rcv`, barriers and `dflush`: arrival and completion (R106 to R114,
R162, R163). -/

namespace Sys2Proof.Machine

/-! ## What the lanes of an instance receive (R109 to R113) -/

/-- One step of a reduction: op 0 add, 1 min, 2 max on a type of R57, op 3 logic, with the flags of the step (R112). -/
def redStep (r : Rounding) (op ty : Nat) (x y : Dword) : Dword × Fx :=
  let xw := x.setWidth 32
  let yw := y.setWidth 32
  let word := fun (w : Word) => (w.setWidth 64, Fx.none)
  let res := fun (f : FloatRes) => (BitVec.ofNat 64 f.code, f.flags)
  let flt := fun (f : FloatFmt) (a b : Nat) => match op with
    | 0 => fAdd f r a b
    | 1 => fMinMax f false a b
    | _ => fMinMax f true a b
  let packed := fun (f : FloatFmt) =>
    let lo := flt f (xw.toNat % 2 ^ 16) (yw.toNat % 2 ^ 16)
    let hi := flt f (xw.toNat / 2 ^ 16) (yw.toNat / 2 ^ 16)
    (BitVec.ofNat 64 (lo.code + hi.code * 2 ^ 16), lo.flags ||| hi.flags)
  match op, ty with
  | 3, 0 => word (xw &&& yw)
  | 3, 1 => word (xw ||| yw)
  | 3, _ => word (xw ^^^ yw)
  | 0, 0 => word (xw + yw)
  | 0, 1 => word (xw + yw)
  | 1, 0 => word (minS xw yw)
  | 1, 1 => word (minN xw yw)
  | 2, 0 => word (maxS xw yw)
  | 2, 1 => word (maxN xw yw)
  | _, 2 => res (flt .f32 xw.toNat yw.toNat)
  | _, 3 => packed .bf16
  | _, 4 => packed .f16
  | 0, _ => (x + y, Fx.none)
  | 1, 5 => (if x.toInt ≤ y.toInt then x else y, Fx.none)
  | 1, _ => (if x.toNat ≤ y.toNat then x else y, Fx.none)
  | _, 5 => (if x.toInt ≤ y.toInt then y else x, Fx.none)
  | _, _ => (if x.toNat ≤ y.toNat then y else x, Fx.none)

/-- The sequential pass over the arrived lanes (R112): the values and flags after each of them. -/
def redPass (r : Rounding) (op ty : Nat) : List Dword → List (Dword × Fx)
  | [] => []
  | x :: rest => go x Fx.none rest
where
  go (acc : Dword) (fl : Fx) : List Dword → List (Dword × Fx)
    | [] => [(acc, fl)]
    | y :: rest =>
      let st := redStep r op ty acc y
      (acc, fl) :: go st.1 (fl ||| st.2) rest

/-- The identity of an exclusive scan (R113). -/
def scanIdentity (max : Bool) (ty : Nat) : Dword :=
  if max then
    match ty with
    | 0 => 0x80000000
    | 2 => 0xFF800000
    | 5 => 0x8000000000000000
    | _ => 0
  else 0

/-- Whether a type is 64 bits wide (R57). -/
def wideType (ty : Nat) : Bool := ty == 5 || ty == 6

/-- A value written to D, or to the pair of a 64-bit type. -/
def Lane.setRed (l : Lane) (ty d : Nat) (v : Dword) : Lane :=
  if wideType ty then l.setPair d v else l.setReg d (v.setWidth 32)

/-- The source lane of a shuffle (R111). -/
def shuffleFrom (op lane : Nat) (v : Nat) : Option Nat :=
  match op with
  | 0 => some v
  | 1 => if v ≤ lane then some (lane - v) else none
  | 2 => some (lane + v)
  | _ => some (Nat.xor lane v)

/-- The engine with the results of a completed instance in its arrived lanes, and the flags raised in them. -/
def crossResult (e : Engine) (x : Instance) : Engine × Fx :=
  let a := x.arrived
  let each := fun (f : Nat → Lane → Lane) => e.mapLanes (listMask (Store.keys a)) f
  match x.op with
  | .vote minor d =>
    let ones := a.filter fun p => p.2.a != 0
    match minor % 4 with
    | 0 => (each fun _ l => l.setPred d (!ones.isEmpty), Fx.none)
    | 1 => (each fun _ l => l.setPred d (ones.length == a.length), Fx.none)
    | 2 => (each fun _ l => l.setReg d (BitVec.ofNat 32 ones.length), Fx.none)
    | _ => (e.setMask d (listMask (Store.keys ones)), Fx.none)
  | .shfl op d =>
    (each fun k l =>
      match a.find? k with
      | some p =>
        let src := (shuffleFrom op k p.b.toNat).bind fun j => if j < e.width then a.find? j else none
        l.setReg d ((src.getD p).a.setWidth 32)
      | none => l, Fx.none)
  | .xred op ty d =>
    let last := (redPass e.rounding op ty ((Store.vals a).map Arrived.a)).getLastD (0, Fx.none)
    (each fun _ l => (l.setRed ty d last.1).raise last.2, last.2)
  | .xscan op ty d =>
    let pass := redPass e.rounding (if op < 2 then 0 else 2) ty ((Store.vals a).map Arrived.a)
    let pass := if op % 2 = 0 then pass else (scanIdentity (decide (2 ≤ op)) ty, Fx.none) :: pass.dropLast
    let byLane := (Store.keys a).zip pass
    (each fun k l =>
      match Store.find? byLane k with
      | some p => (l.setRed ty d p.1).raise p.2
      | none => l, fxOr (pass.map Prod.snd))
  | .rcv | .bar _ _ | .dflush => (e, Fx.none)

/-- The latency from the completion of an instance to its results (R77). -/
def CrossOp.latency (width : Nat) : CrossOp → Nat
  | .vote _ _ => 4
  | .shfl _ _ => 8
  | .xred _ _ _ | .xscan _ _ _ => 12 + 2 * Nat.log2 width
  | _ => 0

/-! ## Barriers (R163, R245) -/

/-- The barrier that an engine names: its block's, or a cohort's. -/
def State.barrierOf (s : State) (e : Engine) : Option Nat → Option Barrier
  | none => (e.block.bind s.work.blocks.find?).map Block.barrier
  | some c => ((s.launchOf e.launch).bind fun l => l.cohorts[c]?).map Cohort.barrier

def State.setBarrier (s : State) (e : Engine) (b : Barrier) : Option Nat → State
  | none =>
    match e.block with
    | some k => { s with work := { s.work with blocks := s.work.blocks.modify k fun x => { x with barrier := b } } }
    | none => s
  | some c => s.modLaunch e.launch fun l => { l with cohorts := l.cohorts.modify c fun x => { x with barrier := b } }

/-- Whether a block's gangs have all arrived or ended. -/
def State.blockArrived (s : State) (b : Block) (arrived : List Nat) : Bool :=
  b.gangs.all fun g => arrived.contains g || (match s.engine g with
    | some e => e.ended && !e.broken
    | none => true)

/-- Whether every participant of a barrier phase has arrived (R163, R245). -/
def State.barrierFull (s : State) (e : Engine) (b : Barrier) : Option Nat → Bool
  | none =>
    match e.block.bind s.work.blocks.find? with
    | some x => s.blockArrived x b.arrived
    | none => false
  | some c =>
    match (s.launchOf e.launch).bind fun l => (l.cohorts[c]?).map fun x => (l, x) with
    | none => false
    | some (l, x) => x.members.all fun m =>
      l.complete.contains m ||
        (match s.work.blocks.vals.find? fun k => k.launch == l.id && k.index == m with
        | some k => s.blockArrived k b.arrived
        | none => false)

/-- Whether an engine waits at a barrier. -/
def sameBarrier (e f : Engine) (c : Option Nat) : Bool :=
  match c with
  | none => e.block == f.block && e.block.isSome
  | some _ => e.launch == f.launch

/-- The code of a barrier in a wait: 0 for the block's, 1 + n for cohort n. -/
def barrierCode : Option Nat → Nat
  | none => 0
  | some c => c + 1

/-- The cycle in which a gang released by a barrier becomes ready (R163). -/
def State.barrierReady (s : State) (e : Engine) : Option Nat → Nat
  | none => s.clock.cyc + 8
  | some c =>
    let home := (((s.launchOf e.launch).bind fun l => l.cohorts[c]?).bind Cohort.home).getD e.place.clusterId
    s.clock.cyc + 110 + 4 * hops e.place.clusterId home + 36 * crossings e.place.clusterId home

/-- BARRIER_PHASE_COMPLETE: where the phase is full, its waiting lanes continue after the barrier's latency and the next
phase opens (R163). -/
def State.barrierCheck (s : State) (e : Engine) (c : Option Nat) : State :=
  match s.barrierOf e c with
  | none => s
  | some b =>
    if !b.arrived.isEmpty && s.barrierFull e b c then
      let s := s.setBarrier e { phase := b.phase + 1, mask := none, arrived := [] } c
      { s with work :=
        { s.work with waits := s.work.waits.map fun w =>
          match w.kind, s.engine w.eng with
          | .barrier k ph, some f =>
            if k = barrierCode c ∧ ph = b.phase ∧ sameBarrier e f c then
              { w with kind := .until_ (s.barrierReady f c) }
            else w
          | _, _ => w } }
    else s

/-- The gang of some lanes arrives at a barrier, waits there or continues (R163).  DESIGN CHOICE (log entry 40): a `bar.wait` uses up the
record of the gang's last `bar.arrive`. -/
def State.barrierGo (s : State) (e : Engine) (w : Wait) (form : Nat) (c : Option Nat) (mask : Dword) : State :=
  let next := w.pc + BitVec.ofNat 32 w.len
  let go := fun (s : State) => s.modEngine w.eng fun e =>
    e.mapLanes w.lanes fun _ l => { l with status := .ready, pc := next, restart := next, issued := false }
  let wait := fun (s : State) (ph : Nat) =>
    (s.sleep w.eng w.lanes w.pc w.insn w.len true (.barrier (barrierCode c) ph)).2
  match s.barrierOf e c with
  | none => go s
  | some b =>
    let arrive := fun (k : State → State) =>
      match b.mask.filter (· != mask) with
      | some _ =>
        let s := s.modEngine w.eng fun e => e.mapLanes w.lanes fun _ l => { l with status := .ready }
        s.raise { eng := w.eng, cause := .mask, lanes := w.lanes, pc := w.pc, insn := w.insn, faddr := 0, detail := 0 }
      | none =>
        let s := s.setBarrier e { b with mask := some mask, arrived := b.arrived ++ [w.eng] } c
        (k s).barrierCheck e c
    match form, e.arrivals.find? fun p => p.1 == barrierCode c with
    | 2, some (k, ph) =>
      let s := s.modEngine w.eng fun e => { e with arrivals := e.arrivals.filter fun p => p.1 != k }
      if ph < b.phase then go s else wait s ph
    | 1, _ =>
      arrive fun s => (go s).modEngine w.eng fun e =>
        { e with arrivals := (barrierCode c, b.phase) :: e.arrivals.filter fun p => p.1 != barrierCode c }
    | _, _ => arrive fun s => wait s b.phase

/-- A completed local instance of a barrier form: the gang arrives once its lanes' earlier accesses are performed at the barrier's scope,
and where the form waits, later accesses wait for the loads and returning far operations that it leaves in flight (R163, R284, R285). -/
def State.barrierInstance (s : State) (eng : Nat) (e : Engine) (x : Instance) (form : Nat) (c : Option Nat) : State :=
  let w : Wait :=
    { id := 0, eng, lanes := listMask (Store.keys x.arrived), pc := x.pc, insn := x.insn, len := x.len, commit := true
      kind := .arrive form c x.mask }
  let e' := if form = 1 then e else e.hold (s.holds eng e w.lanes false c.isNone)
  let s := s.setEngine eng e'
  let arrives := form != 2 || !(e.arrivals.any fun p => p.1 == barrierCode c)
  if arrives && s.outstanding eng w.lanes c.isNone s.nextId then (s.sleep eng w.lanes w.pc w.insn w.len true w.kind).2
  else s.barrierGo e' w form c x.mask

/-! ## Completion (R106) -/

/-- Whether every lane of an instance's mask has arrived or is absent. -/
def Instance.complete (e : Engine) (x : Instance) : Bool :=
  (maskList x.mask 64).all fun k => (x.arrived.find? k).isSome || x.absent.getLsbD k || !(e.lane k).live

/-- The scoreboard entries of a tag, due in a cycle. -/
def Engine.dueTag (e : Engine) (tag due : Nat) : Engine :=
  { e with sb := e.sb.map fun x => if x.tag = tag ∧ x.due.isNone then { x with due := some due, tag := 0 } else x }

/-- CROSSLANE_INSTANCE_COMPLETE (R106): the arrived lanes receive their results and continue at the successor. -/
def State.finishInstance (s : State) (eng : Nat) (e : Engine) (x : Instance) : State :=
  let e := { e with open_ := e.open_.filter fun y => y.pc != x.pc }
  let lanes := listMask (Store.keys x.arrived)
  if x.arrived.isEmpty then s.setEngine eng (e.clearTag x.tag)
  else match x.op with
  | .bar form c => (s.setEngine eng e).barrierInstance eng e x form c
  | .dflush => ((s.setEngine eng e).sleep eng lanes x.pc x.insn x.len false .dflush).2
  | _ =>
    let (e', raised) := crossResult e x
    let next := x.pc + BitVec.ofNat 32 x.len
    let e' := e'.mapLanes lanes fun _ l => { l with status := .ready, pc := next, issued := true }
    let s' := s.setEngine eng (e'.dueTag x.tag (s.clock.cyc + x.op.latency e.width))
    if fpxDetail raised &&& (e.tmode.toNat % 32) = 0 then s'
    else s'.raise { eng, cause := .fpx, lanes, pc := next, insn := x.insn, faddr := 0, detail := fpxDetail raised }

/-- The instances of an engine that are complete, finished in ascending address. -/
def State.checkInstances (s : State) (eng : Nat) : State :=
  match s.engine eng with
  | none => s
  | some e => (e.open_.filter (Instance.complete e)).foldl (fun s x =>
      match s.engine eng with
      | some e => s.finishInstance eng e x
      | none => s) s

/-! ## Arrival (R106 to R108) -/

/-- The mask an issue reads: a mask register, or every live lane for `dflush` (R162). -/
def Engine.crossMask (e : Engine) : Option Nat → Dword
  | some m => e.mask m
  | none => e.lanesWhere fun _ l => l.live

/-- Whether a mask names a lane at or above the gang's width. -/
def maskTooWide (w : Nat) (m : Dword) : Bool := decide (2 ^ w ≤ m.toNat)

/-- The lanes of an issue that raise MASK in the first three rows of R108. -/
def Engine.crossBad (e : Engine) (i : Issue) (live : Dword) (mreg : Option Nat) : Dword :=
  let m := e.crossMask mreg
  match e.open_.find? fun x => x.pc == i.pc with
  | none => if m == 0 || maskTooWide e.width m then live else live &&& ~~~m
  | some x => if mreg.isSome && m != x.mask then live else live &&& ~~~x.mask

/-- An issue of a cross-lane instruction: its lanes arrive with their sources, are absent, or raise MASK; the instance completes when nobody
is awaited.  An opening issue whose lanes all raise MASK leaves the instance open with its M (R108). -/
def crossIssue (f : Info) (s : State) (i : Issue) (e : Engine) (live : Dword) (mreg : Option Nat) (op : CrossOp)
    (src : Lane → Arrived) : State :=
  let found := e.open_.find? fun x => x.pc == i.pc
  let old := found.getD
    { pc := i.pc, len := i.len, insn := i.insn, op, mask := e.crossMask mreg, absent := 0, arrived := [], tag := s.nextId }
  let bad := e.crossBad i live mreg
  let good := live &&& ~~~bad
  let away := i.lanes &&& ~~~live
  let x := { old with
    absent := old.absent ||| away
    arrived := (e.lanesOf good).foldl (fun a kl => Store.put a kl.1 (src kl.2)) old.arrived }
  let e := e.mapLanes away fun _ l => { l with pc := i.next, issued := true }
  let e := e.mapLanes good fun _ l => { l with status := .waiting, issued := true }
  let e := { e with open_ := x :: e.open_.filter fun y => y.pc != i.pc }
  let e := if found.isNone then e.bookTag f old.tag else e
  let s := { s.setEngine i.eng e with nextId := s.nextId + 1 }
  let s := s.checkInstances i.eng
  if bad = 0 then s else s.trap i .mask bad 0 0

/-- A cross-lane instruction (R106). -/
def crossLane (f : Info) (s : State) (mreg : Option Nat) (op : CrossOp) (src : Lane → Arrived) : Out :=
  gated f s fun i e live =>
    if live = 0 ∧ (e.open_.find? fun x => x.pc == i.pc).isNone then .next (s.setEngine i.eng (e.advance i))
    else .next (crossIssue f s i e live mreg op src)

/-- A bit as an arrived value. -/
def bitArrived (b : Bool) : Arrived := ⟨if b then 1 else 0, 0⟩

/-- A register, or the pair of a 64-bit type, as an arrived value. -/
def regArrived (ty a : Nat) (l : Lane) : Arrived := ⟨if wideType ty then l.pair a else (l.reg a).setWidth 64, 0⟩

/-- Whether a cohort number is one of a block's (R244). -/
def State.holdsCohort (s : State) (e : Engine) (c : Nat) : Bool :=
  match s.launchOf e.launch, e.block.bind s.work.blocks.find? with
  | some l, some b => ((l.cohorts[c]?).map fun x => x.members.contains b.index).getD false
  | _, _ => false

/-- A barrier form (R163): a commit point; a lane that names no barrier of its block raises REFUSE, REASON 7, and an issue whose lanes all
raise MASK commits nothing.  DESIGN CHOICE (log entry 41): where its lanes name different cohorts, the lowest lane's is taken. -/
def barrier (f : Info) (s : State) (form : Nat) (m c : Nat) : Out :=
  gated f s fun i e live =>
    if live = 0 ∧ (e.open_.find? fun x => x.pc == i.pc).isNone then .next (s.setEngine i.eng (e.advance i))
    else
      let coh := fun (l : Lane) => if c = 0 then none else some (l.reg c).toNat
      let refused := (e.lanesOf live).find? fun kl =>
        e.block.isNone || (match coh kl.2 with
          | some n => !s.holdsCohort e n
          | none => false)
      match refused with
      | some (k, _) => .next (s.refuse i live 0 7 0 k)
      | none =>
        let traps := live != 0 && e.crossBad i live (some m) == live
        let s := if traps then s else s.commit i.eng
        let e := if traps then e else ((s.engine i.eng).getD e).countEntry
        .next (crossIssue f s i e live (some m) (.bar form (coh (e.low live))) fun _ => ⟨0, 0⟩)

/-! ## The instructions (R110 to R113, R162, R163) -/

/-- VOTE_ANY_P: of a predicate over the arrived lanes (R110). -/
def execVoteAnyP (g : Guard) (b : Fin 64) (a : Fin 64) (d : Fin 64) (s : State) : Out :=
  crossLane (infoVoteAnyP g b a d) s (some b) (.vote 0 d) fun l => bitArrived (l.pred a)

/-- VOTE_ALL_P: of a predicate over the arrived lanes (R110). -/
def execVoteAllP (g : Guard) (b : Fin 64) (a : Fin 64) (d : Fin 64) (s : State) : Out :=
  crossLane (infoVoteAllP g b a d) s (some b) (.vote 1 d) fun l => bitArrived (l.pred a)

/-- VOTE_COUNT_P: of a predicate over the arrived lanes (R110). -/
def execVoteCountP (g : Guard) (b : Fin 64) (a : Fin 64) (d : Fin 64) (s : State) : Out :=
  crossLane (infoVoteCountP g b a d) s (some b) (.vote 2 d) fun l => bitArrived (l.pred a)

/-- VOTE_BALLOT_P: of a predicate over the arrived lanes (R110). -/
def execVoteBallotP (g : Guard) (b : Fin 64) (a : Fin 64) (d : Fin 64) (s : State) : Out :=
  crossLane (infoVoteBallotP g b a d) s (some b) (.vote 3 d) fun l => bitArrived (l.pred a)

/-- VOTE_ANY_FX: of an fx flag over the arrived lanes (R110). -/
def execVoteAnyFx (g : Guard) (b : Fin 64) (a : Fin 64) (d : Fin 64) (s : State) : Out :=
  crossLane (infoVoteAnyFx g b a d) s (some b) (.vote 4 d) fun l => bitArrived (l.fx.getLsbD a)

/-- VOTE_ALL_FX: of an fx flag over the arrived lanes (R110). -/
def execVoteAllFx (g : Guard) (b : Fin 64) (a : Fin 64) (d : Fin 64) (s : State) : Out :=
  crossLane (infoVoteAllFx g b a d) s (some b) (.vote 5 d) fun l => bitArrived (l.fx.getLsbD a)

/-- VOTE_COUNT_FX: of an fx flag over the arrived lanes (R110). -/
def execVoteCountFx (g : Guard) (b : Fin 64) (a : Fin 64) (d : Fin 64) (s : State) : Out :=
  crossLane (infoVoteCountFx g b a d) s (some b) (.vote 6 d) fun l => bitArrived (l.fx.getLsbD a)

/-- VOTE_BALLOT_FX: of an fx flag over the arrived lanes (R110). -/
def execVoteBallotFx (g : Guard) (b : Fin 64) (a : Fin 64) (d : Fin 64) (s : State) : Out :=
  crossLane (infoVoteBallotFx g b a d) s (some b) (.vote 7 d) fun l => bitArrived (l.fx.getLsbD a)

/-- SHFL_IDX: D := S1 of the source lane, or the lane's own (R111). -/
def execShflIdx (g : Guard) (m : Fin 4) (b : Fin 32) (a : Fin 64) (d : Fin 64) (s : State) : Out :=
  crossLane (infoShflIdx g m b a d) s (some m) (.shfl 0 d) fun l => ⟨(l.reg a).setWidth 64, l.reg b⟩

/-- SHFL_UP: D := S1 of the source lane, or the lane's own (R111). -/
def execShflUp (g : Guard) (m : Fin 4) (b : Fin 32) (a : Fin 64) (d : Fin 64) (s : State) : Out :=
  crossLane (infoShflUp g m b a d) s (some m) (.shfl 1 d) fun l => ⟨(l.reg a).setWidth 64, l.reg b⟩

/-- SHFL_DOWN: D := S1 of the source lane, or the lane's own (R111). -/
def execShflDown (g : Guard) (m : Fin 4) (b : Fin 32) (a : Fin 64) (d : Fin 64) (s : State) : Out :=
  crossLane (infoShflDown g m b a d) s (some m) (.shfl 2 d) fun l => ⟨(l.reg a).setWidth 64, l.reg b⟩

/-- SHFL_XOR: D := S1 of the source lane, or the lane's own (R111). -/
def execShflXor (g : Guard) (m : Fin 4) (b : Fin 32) (a : Fin 64) (d : Fin 64) (s : State) : Out :=
  crossLane (infoShflXor g m b a d) s (some m) (.shfl 3 d) fun l => ⟨(l.reg a).setWidth 64, l.reg b⟩

/-- XRED_ADD: the reduction over the arrived lanes, ascending (R112). -/
def execXredAdd (g : Guard) (m : Fin 4) (b : Fin 32) (a : Fin 64) (d : Fin 64) (s : State) : Out :=
  crossLane (infoXredAdd g m b a d) s (some m) (.xred 0 b d) (regArrived b a)

/-- XRED_MIN: the reduction over the arrived lanes, ascending (R112). -/
def execXredMin (g : Guard) (m : Fin 4) (b : Fin 32) (a : Fin 64) (d : Fin 64) (s : State) : Out :=
  crossLane (infoXredMin g m b a d) s (some m) (.xred 1 b d) (regArrived b a)

/-- XRED_MAX: the reduction over the arrived lanes, ascending (R112). -/
def execXredMax (g : Guard) (m : Fin 4) (b : Fin 32) (a : Fin 64) (d : Fin 64) (s : State) : Out :=
  crossLane (infoXredMax g m b a d) s (some m) (.xred 2 b d) (regArrived b a)

/-- XRED_LOGIC: the reduction over the arrived lanes, ascending (R112). -/
def execXredLogic (g : Guard) (m : Fin 4) (b : Fin 32) (a : Fin 64) (d : Fin 64) (s : State) : Out :=
  crossLane (infoXredLogic g m b a d) s (some m) (.xred 3 b d) (regArrived 0 a)

/-- XSCAN_ADD_INC: the scan over the arrived lanes, ascending (R113). -/
def execXscanAddInc (g : Guard) (m : Fin 4) (b : Fin 32) (a : Fin 64) (d : Fin 64) (s : State) : Out :=
  crossLane (infoXscanAddInc g m b a d) s (some m) (.xscan 0 b d) (regArrived b a)

/-- XSCAN_ADD_EXC: the scan over the arrived lanes, ascending (R113). -/
def execXscanAddExc (g : Guard) (m : Fin 4) (b : Fin 32) (a : Fin 64) (d : Fin 64) (s : State) : Out :=
  crossLane (infoXscanAddExc g m b a d) s (some m) (.xscan 1 b d) (regArrived b a)

/-- XSCAN_MAX_INC: the scan over the arrived lanes, ascending (R113). -/
def execXscanMaxInc (g : Guard) (m : Fin 4) (b : Fin 32) (a : Fin 64) (d : Fin 64) (s : State) : Out :=
  crossLane (infoXscanMaxInc g m b a d) s (some m) (.xscan 2 b d) (regArrived b a)

/-- XSCAN_MAX_EXC: the scan over the arrived lanes, ascending (R113). -/
def execXscanMaxExc (g : Guard) (m : Fin 4) (b : Fin 32) (a : Fin 64) (d : Fin 64) (s : State) : Out :=
  crossLane (infoXscanMaxExc g m b a d) s (some m) (.xscan 3 b d) (regArrived b a)

/-- RCV: wait until every lane of the mask has arrived or is absent (R163). -/
def execRcv (g : Guard) (a : Fin 64) (s : State) : Out :=
  crossLane (infoRcv g a) s (some a) .rcv fun _ => ⟨0, 0⟩

/-- BAR_SYNC: at the block or a cohort barrier (R163). -/
def execBarSync (g : Guard) (b : Fin 64) (a : Fin 64) (s : State) : Out :=
  barrier (infoBarSync g b a) s 0 a b

/-- BAR_ARRIVE: at the block or a cohort barrier (R163). -/
def execBarArrive (g : Guard) (b : Fin 64) (a : Fin 64) (s : State) : Out :=
  barrier (infoBarArrive g b a) s 1 a b

/-- BAR_WAIT: at the block or a cohort barrier (R163). -/
def execBarWait (g : Guard) (b : Fin 64) (a : Fin 64) (s : State) : Out :=
  barrier (infoBarWait g b a) s 2 a b

/-- DFLUSH: in a DET launch the block's gangs meet and its held integer operations drain; elsewhere one issue slot (R162). -/
def execDflush (g : Guard) (s : State) : Out :=
  gated (infoDflush g) s fun i e live =>
    if s.isDet e && e.block.isSome then
      if live = 0 ∧ (e.open_.find? fun x => x.pc == i.pc).isNone then .next (s.setEngine i.eng (e.advance i))
      else .next (crossIssue (infoDflush g) s i e live none .dflush fun _ => ⟨0, 0⟩)
    else .next (s.setEngine i.eng (e.advance i))

end Sys2Proof.Machine
end

