-- ==== Sys2Proof/WellFormed.lean ====
section
/-! DEFINITION. Well-formed instructions: those that some engine accepts at some declared register count and that have
words of their own (R41, R44, R47 to R59). -/

namespace Sys2Proof

open Machine

/-- The guard !p0, which makes every 32-bit word a no-op (R44). -/
def Guard.never : Guard := ⟨true, 0⟩

/-- Whether an instruction is one that umgar-as may write (R67) and the decoder accepts.  `add g0, g0` has no 16-bit
encoding (R41). -/
def Instr.wf (i : Instr) : Bool :=
  match infoOf i with
  | none => false
  | some f =>
    decide (i ≠ .add16 0 0) && (f.legal false 64 || f.legal true 64) && decide (f.guard ≠ Guard.never)

end Sys2Proof
end

