-- ==== Sys2Proof/Decode.lean ====
section
/-! DEFINITION. Decoding and encoding (R39 to R60).

`decode` is total on bytes and names why it refuses.  It reads the fields of the format that the major selects, takes
the row of the opcode map that the minor selects, and accepts it only if the instruction is well formed and its own
encoding is the word that was read: so a field that must be zero is refused when it is not (R58).  The definitions
that build an instruction are marked noncomputable only because the compiler has no room for the run-time tags of so
many constructors; Lean's kernel evaluates them. -/

namespace Sys2Proof

open Machine (bits leValue leBytes)

/-- Why bytes are no instruction (R39, R41, R59). -/
inductive DecodeError
  | truncated | badHalfword | reservedMajor | unlisted
deriving DecidableEq, Repr

/-! ## Encoding (R40, R42, R45) -/

/-- Bits [10:0] of a 32-bit word: the guard, the major and the length bit (R42). -/
def tail (g : Guard) (maj : Nat) : Nat :=
  (if g.neg then 1 else 0) * 2 ^ 10 + g.p * 2 ^ 7 + maj % 64 * 2 + 1

/-- Format A (R45). -/
def packA (g : Guard) (maj m b a d : Nat) : Nat :=
  m % 8 * 2 ^ 29 + b % 64 * 2 ^ 23 + a % 64 * 2 ^ 17 + d % 64 * 2 ^ 11 + tail g maj

/-- Format I (R45). -/
def packI (g : Guard) (maj i a d : Nat) : Nat :=
  i % 512 * 2 ^ 23 + a % 64 * 2 ^ 17 + d % 64 * 2 ^ 11 + tail g maj

/-- Format K (R45). -/
def packK (g : Guard) (maj i d : Nat) : Nat :=
  i % 65536 * 2 ^ 16 + d % 32 * 2 ^ 11 + tail g maj

/-- Format P (R45). -/
def packP (g : Guard) (maj c u b a k d : Nat) : Nat :=
  c % 4 * 2 ^ 30 + u % 2 * 2 ^ 29 + b % 64 * 2 ^ 23 + a % 64 * 2 ^ 17 + k % 8 * 2 ^ 14 + d % 8 * 2 ^ 11 + tail g maj

/-- Format X (R45). -/
def packX (g : Guard) (maj o m b a d : Nat) : Nat :=
  o % 4 * 2 ^ 30 + m % 4 * 2 ^ 28 + b % 32 * 2 ^ 23 + a % 64 * 2 ^ 17 + d % 64 * 2 ^ 11 + tail g maj

/-- Format MX (R45). -/
def packMX (g : Guard) (maj m x h d : Nat) : Nat :=
  m % 32 * 2 ^ 27 + x % 64 * 2 ^ 21 + h % 16 * 2 ^ 17 + d % 64 * 2 ^ 11 + tail g maj

/-- Format MI (R45). -/
def packMI (g : Guard) (maj z i h d : Nat) : Nat :=
  z % 8 * 2 ^ 29 + i % 256 * 2 ^ 21 + h % 16 * 2 ^ 17 + d % 64 * 2 ^ 11 + tail g maj

/-- Format B (R45). -/
def packB (g : Guard) (maj o : Nat) : Nat :=
  o % 2097152 * 2 ^ 11 + tail g maj

/-- Format Q (R45). -/
def packQ (g : Guard) (maj k m x s h : Nat) : Nat :=
  k % 8 * 2 ^ 29 + m % 16 * 2 ^ 25 + x % 64 * 2 ^ 19 + s % 16 * 2 ^ 15 + h % 16 * 2 ^ 11 + tail g maj

/-- Format S (R45). -/
def packS (g : Guard) (maj m r d : Nat) : Nat :=
  m % 8 * 2 ^ 29 + r % 4096 * 2 ^ 17 + d % 64 * 2 ^ 11 + tail g maj

/-- Format D (R45). -/
def packD (g : Guard) (maj f m x b a d : Nat) : Nat :=
  f % 8 * 2 ^ 29 + m % 8 * 2 ^ 26 + x % 64 * 2 ^ 20 + b % 8 * 2 ^ 17 + a % 8 * 2 ^ 14 + d % 8 * 2 ^ 11 + tail g maj

/-- The 16-bit frame (R40). -/
def pack16 (op s d : Nat) : Nat := s % 32 * 2 ^ 10 + d % 32 * 2 ^ 5 + op % 16 * 2

/-- A word with GP = 0 and GN = 1 (R44). -/
def packNop (z m : Nat) : Nat := z % 2097152 * 2 ^ 11 + tail ⟨true, 0⟩ m

/-- The length in bytes and the word of an encoded instruction. -/
def Instr.encoding : Instr → Option (Nat × Nat)
  | .add16 s d => some (2, pack16 0 s d)
  | .sub16 s d => some (2, pack16 1 s d)
  | .and16 s d => some (2, pack16 2 s d)
  | .or16 s d => some (2, pack16 3 s d)
  | .xor16 s d => some (2, pack16 4 s d)
  | .shl16 s d => some (2, pack16 5 s d)
  | .shr16 s d => some (2, pack16 6 s d)
  | .sar16 s d => some (2, pack16 7 s d)
  | .mov16 s d => some (2, pack16 8 s d)
  | .movi5 i d => some (2, pack16 9 i d)
  | .fadd16 s d => some (2, pack16 10 s d)
  | .fsub16 s d => some (2, pack16 11 s d)
  | .fmul16 s d => some (2, pack16 12 s d)
  | .fmin16 s d => some (2, pack16 13 s d)
  | .fmax16 s d => some (2, pack16 14 s d)
  | .addi5 i d => some (2, pack16 15 i d)
  | .guardNop z m => some (4, packNop z m)
  | .add g b a d => some (4, packA g 0 0 b a d)
  | .sub g b a d => some (4, packA g 0 1 b a d)
  | .addc g b a d => some (4, packA g 0 2 b a d)
  | .subb g b a d => some (4, packA g 0 3 b a d)
  | .minS32 g b a d => some (4, packA g 0 4 b a d)
  | .maxS32 g b a d => some (4, packA g 0 5 b a d)
  | .minN32 g b a d => some (4, packA g 0 6 b a d)
  | .maxN32 g b a d => some (4, packA g 0 7 b a d)
  | .mul g b a d => some (4, packA g 1 0 b a d)
  | .mulhiS32 g b a d => some (4, packA g 1 1 b a d)
  | .mulhiN32 g b a d => some (4, packA g 1 2 b a d)
  | .mad g b a d => some (4, packA g 1 3 b a d)
  | .divS32 g b a d => some (4, packA g 1 4 b a d)
  | .divN32 g b a d => some (4, packA g 1 5 b a d)
  | .remS32 g b a d => some (4, packA g 1 6 b a d)
  | .remN32 g b a d => some (4, packA g 1 7 b a d)
  | .and g b a d => some (4, packA g 2 0 b a d)
  | .or g b a d => some (4, packA g 2 1 b a d)
  | .xor g b a d => some (4, packA g 2 2 b a d)
  | .andn g b a d => some (4, packA g 2 3 b a d)
  | .orn g b a d => some (4, packA g 2 4 b a d)
  | .xnor g b a d => some (4, packA g 2 5 b a d)
  | .not g a d => some (4, packA g 2 6 0 a d)
  | .mov g a d => some (4, packA g 2 7 0 a d)
  | .shl g b a d => some (4, packA g 3 0 b a d)
  | .shr g b a d => some (4, packA g 3 1 b a d)
  | .sar g b a d => some (4, packA g 3 2 b a d)
  | .rotl g b a d => some (4, packA g 3 3 b a d)
  | .rotr g b a d => some (4, packA g 3 4 b a d)
  | .bfeN32 g b a d => some (4, packA g 3 5 b a d)
  | .bfeS32 g b a d => some (4, packA g 3 6 b a d)
  | .bfi g b a d => some (4, packA g 3 7 b a d)
  | .popc g a d => some (4, packA g 4 0 0 a d)
  | .clz g a d => some (4, packA g 4 1 0 a d)
  | .ctz g a d => some (4, packA g 4 2 0 a d)
  | .brev g a d => some (4, packA g 4 3 0 a d)
  | .bperm g b a d => some (4, packA g 4 4 b a d)
  | .abs g a d => some (4, packA g 4 5 0 a d)
  | .neg g a d => some (4, packA g 4 6 0 a d)
  | .sext g b a d => some (4, packA g 4 7 b a d)
  | .addi g i a d => some (4, packI g 5 i a d)
  | .shlImm g i a d => some (4, packI g 6 i a d)
  | .shrImm g i a d => some (4, packI g 6 (i + 32) a d)
  | .sarImm g i a d => some (4, packI g 6 (i + 64) a d)
  | .rotlImm g i a d => some (4, packI g 6 (i + 96) a d)
  | .movl g i d => some (4, packK g 7 i d)
  | .movh g i d => some (4, packK g 8 i d)
  | .add64 g b a d => some (4, packA g 9 0 b a d)
  | .sub64 g b a d => some (4, packA g 9 1 b a d)
  | .mul64lo g b a d => some (4, packA g 9 2 b a d)
  | .mulwS32 g b a d => some (4, packA g 9 3 b a d)
  | .mulwN32 g b a d => some (4, packA g 9 4 b a d)
  | .shl64 g b a d => some (4, packA g 9 5 b a d)
  | .shr64 g b a d => some (4, packA g 9 6 b a d)
  | .sar64 g b a d => some (4, packA g 9 7 b a d)
  | .icmpEq g c b a d => some (4, packP g 10 c 0 b a 0 d)
  | .icmpNe g c b a d => some (4, packP g 10 c 0 b a 1 d)
  | .icmpLt g c s b a d => some (4, packP g 10 c s b a 2 d)
  | .icmpLe g c s b a d => some (4, packP g 10 c s b a 3 d)
  | .icmpGt g c s b a d => some (4, packP g 10 c s b a 4 d)
  | .icmpGe g c s b a d => some (4, packP g 10 c s b a 5 d)
  | .fcmpEq g c u b a d => some (4, packP g 11 c u b a 0 d)
  | .fcmpNe g c b a d => some (4, packP g 11 c 0 b a 1 d)
  | .fcmpLt g c u b a d => some (4, packP g 11 c u b a 2 d)
  | .fcmpLe g c u b a d => some (4, packP g 11 c u b a 3 d)
  | .fcmpGt g c u b a d => some (4, packP g 11 c u b a 4 d)
  | .fcmpGe g c u b a d => some (4, packP g 11 c u b a 5 d)
  | .pand g b a d => some (4, packA g 12 0 b a d)
  | .por g b a d => some (4, packA g 12 1 b a d)
  | .pxor g b a d => some (4, packA g 12 2 b a d)
  | .pandn g b a d => some (4, packA g 12 3 b a d)
  | .pnot g a d => some (4, packA g 12 4 0 a d)
  | .p2g g d => some (4, packA g 12 5 0 0 d)
  | .g2p g a => some (4, packA g 12 6 0 a 0)
  | .pset g a d => some (4, packA g 12 7 0 a d)
  | .voteAnyP g b a d => some (4, packA g 13 0 b a d)
  | .voteAllP g b a d => some (4, packA g 13 1 b a d)
  | .voteCountP g b a d => some (4, packA g 13 2 b a d)
  | .voteBallotP g b a d => some (4, packA g 13 3 b a d)
  | .voteAnyFx g b a d => some (4, packA g 13 4 b a d)
  | .voteAllFx g b a d => some (4, packA g 13 5 b a d)
  | .voteCountFx g b a d => some (4, packA g 13 6 b a d)
  | .voteBallotFx g b a d => some (4, packA g 13 7 b a d)
  | .fxrd g d => some (4, packA g 14 0 0 0 d)
  | .fxclr g b => some (4, packA g 14 1 b 0 0)
  | .fxor g a => some (4, packA g 14 2 0 a 0)
  | .fxtest g b d => some (4, packA g 14 3 b 0 d)
  | .shflIdx g m b a d => some (4, packX g 15 0 m b a d)
  | .shflUp g m b a d => some (4, packX g 15 1 m b a d)
  | .shflDown g m b a d => some (4, packX g 15 2 m b a d)
  | .shflXor g m b a d => some (4, packX g 15 3 m b a d)
  | .xredAdd g m b a d => some (4, packX g 16 0 m b a d)
  | .xredMin g m b a d => some (4, packX g 16 1 m b a d)
  | .xredMax g m b a d => some (4, packX g 16 2 m b a d)
  | .xredLogic g m b a d => some (4, packX g 16 3 m b a d)
  | .xscanAddInc g m b a d => some (4, packX g 17 0 m b a d)
  | .xscanAddExc g m b a d => some (4, packX g 17 1 m b a d)
  | .xscanMaxInc g m b a d => some (4, packX g 17 2 m b a d)
  | .xscanMaxExc g m b a d => some (4, packX g 17 3 m b a d)
  | .sadd g b a d => some (4, packA g 18 0 b a d)
  | .ssub g b a d => some (4, packA g 18 1 b a d)
  | .sand g b a d => some (4, packA g 18 2 b a d)
  | .sor g b a d => some (4, packA g 18 3 b a d)
  | .sshl g b a d => some (4, packA g 18 4 b a d)
  | .sshr g b a d => some (4, packA g 18 5 b a d)
  | .s2g g a d => some (4, packA g 18 6 0 a d)
  | .g2s g a d => some (4, packA g 18 7 0 a d)
  | .sv g a d => some (4, packA g 19 0 0 a d)
  | .mset g a d => some (4, packA g 20 0 0 a d)
  | .mget g a d => some (4, packA g 20 1 0 a d)
  | .mand g b a d => some (4, packA g 20 2 b a d)
  | .mor g b a d => some (4, packA g 20 3 b a d)
  | .mfromp g a d => some (4, packA g 20 4 0 a d)
  | .fadd g b a d => some (4, packA g 24 0 b a d)
  | .fsub g b a d => some (4, packA g 24 1 b a d)
  | .fmul g b a d => some (4, packA g 24 2 b a d)
  | .ffma g b a d => some (4, packA g 24 3 b a d)
  | .fmin g b a d => some (4, packA g 24 4 b a d)
  | .fmax g b a d => some (4, packA g 24 5 b a d)
  | .fabs g a d => some (4, packA g 24 6 0 a d)
  | .fneg g a d => some (4, packA g 24 7 0 a d)
  | .faddBf16x2 g b a d => some (4, packA g 25 0 b a d)
  | .fmulBf16x2 g b a d => some (4, packA g 25 1 b a d)
  | .ffmaBf16x2 g b a d => some (4, packA g 25 2 b a d)
  | .faddF16x2 g b a d => some (4, packA g 25 3 b a d)
  | .fmulF16x2 g b a d => some (4, packA g 25 4 b a d)
  | .ffmaF16x2 g b a d => some (4, packA g 25 5 b a d)
  | .fmaxBf16x2 g b a d => some (4, packA g 25 6 b a d)
  | .fminBf16x2 g b a d => some (4, packA g 25 7 b a d)
  | .dot2Bf16 g b a d => some (4, packA g 26 0 b a d)
  | .dot2F16 g b a d => some (4, packA g 26 1 b a d)
  | .dot4E4m3 g b a d => some (4, packA g 26 2 b a d)
  | .dot4E5m2 g b a d => some (4, packA g 26 3 b a d)
  | .dot8E2m1 g b a d => some (4, packA g 26 4 b a d)
  | .idot4S8 g b a d => some (4, packA g 26 5 b a d)
  | .idot4N8 g b a d => some (4, packA g 26 6 b a d)
  | .rcp g a d => some (4, packA g 27 0 0 a d)
  | .rsq g a d => some (4, packA g 27 1 0 a d)
  | .sqrt g a d => some (4, packA g 27 2 0 a d)
  | .exp2 g a d => some (4, packA g 27 3 0 a d)
  | .log2 g a d => some (4, packA g 27 4 0 a d)
  | .sin g a d => some (4, packA g 27 5 0 a d)
  | .cos g a d => some (4, packA g 27 6 0 a d)
  | .tanh g a d => some (4, packA g 27 7 0 a d)
  | .fcvt g r e s a d => some (4, packA g 28 r (e * 8 + s) a d)
  | .qencE2m1 g a d => some (4, packA g 29 0 0 a d)
  | .qdecE2m1 g b a d => some (4, packA g 29 1 b a d)
  | .pk2Bf16 g a d => some (4, packA g 29 2 0 a d)
  | .pk2F16 g a d => some (4, packA g 29 3 0 a d)
  | .pk4E4m3 g a d => some (4, packA g 29 4 0 a d)
  | .pk4E5m2 g a d => some (4, packA g 29 5 0 a d)
  | .unpkE4m3 g a d => some (4, packA g 29 6 0 a d)
  | .unpkE5m2 g a d => some (4, packA g 29 7 0 a d)
  | .fclass g a d => some (4, packA g 30 0 0 a d)
  | .frnd g a d => some (4, packA g 30 1 0 a d)
  | .fgetexp g a d => some (4, packA g 30 2 0 a d)
  | .fscale g b a d => some (4, packA g 30 3 b a d)
  | .fcopysign g b a d => some (4, packA g 30 4 b a d)
  | .fsat g a d => some (4, packA g 30 5 0 a d)
  | .ld g z s q x h d => some (4, packMX g 32 (z * 4 + s * 2 + q) x h d)
  | .ldi g z i h d => some (4, packMI g 33 z i h d)
  | .ldv g z v x h d => some (4, packMX g 34 (z * 4 + v * 2) x h d)
  | .st g z r x h d => some (4, packMX g 35 (z * 4 + r) x h d)
  | .sti g z i h d => some (4, packMI g 36 z i h d)
  | .pref g x h => some (4, packMX g 37 0 x h 0)
  | .touch g x h => some (4, packMX g 37 1 x h 0)
  | .probe g x h d => some (4, packMX g 37 2 x h d)
  | .farAddS32 g t x h d => some (4, packMX g 38 t x h d)
  | .farAddF32 g t x h d => some (4, packMX g 38 (t + 2) x h d)
  | .farAddBf16x2 g t x h d => some (4, packMX g 38 (t + 4) x h d)
  | .farMinS32 g t x h d => some (4, packMX g 38 (t + 6) x h d)
  | .farMaxS32 g t x h d => some (4, packMX g 38 (t + 8) x h d)
  | .farMinN32 g t x h d => some (4, packMX g 38 (t + 10) x h d)
  | .farMaxN32 g t x h d => some (4, packMX g 38 (t + 12) x h d)
  | .farMinF32 g t x h d => some (4, packMX g 38 (t + 14) x h d)
  | .farMaxF32 g t x h d => some (4, packMX g 38 (t + 16) x h d)
  | .farAnd g t x h d => some (4, packMX g 38 (t + 18) x h d)
  | .farOr g t x h d => some (4, packMX g 38 (t + 20) x h d)
  | .farXor g t x h d => some (4, packMX g 38 (t + 22) x h d)
  | .farExch g t x h d => some (4, packMX g 38 (t + 24) x h d)
  | .farCas g t x h d => some (4, packMX g 38 (t + 26) x h d)
  | .farIncWrap g t x h d => some (4, packMX g 38 (t + 28) x h d)
  | .farDecWrap g t x h d => some (4, packMX g 38 (t + 30) x h d)
  | .faroAddS32 g w x h d => some (4, packMX g 39 w x h d)
  | .faroExchB32 g w x h d => some (4, packMX g 39 (w + 4) x h d)
  | .faroCasB32 g w x h d => some (4, packMX g 39 (w + 8) x h d)
  | .faroAddN64 g w x h d => some (4, packMX g 39 (w + 12) x h d)
  | .faroExchB64 g w x h d => some (4, packMX g 39 (w + 16) x h d)
  | .faroCasB64 g w x h d => some (4, packMX g 39 (w + 20) x h d)
  | .faroMinN64 g w x h d => some (4, packMX g 39 (w + 24) x h d)
  | .faroMaxN64 g w x h d => some (4, packMX g 39 (w + 28) x h d)
  | .sigAdd g x h d => some (4, packMX g 40 0 x h d)
  | .sigMax g x h d => some (4, packMX g 40 1 x h d)
  | .sigWaitGe g x h d => some (4, packMX g 40 2 x h d)
  | .sigWaitEq g x h d => some (4, packMX g 40 3 x h d)
  | .sigTest g x h d => some (4, packMX g 40 4 x h d)
  | .borrowX g x s h => some (4, packQ g 41 0 0 x s h)
  | .borrowS g x s h => some (4, packQ g 41 0 1 x s h)
  | .borrowXTry g k x s h => some (4, packQ g 41 k 2 x s h)
  | .borrowSTry g k x s h => some (4, packQ g 41 k 3 x s h)
  | .reborrowX g x s h => some (4, packQ g 42 1 0 x s h)
  | .reborrowS g x s h => some (4, packQ g 42 2 0 x s h)
  | .split2 g x s h => some (4, packQ g 43 0 0 x s h)
  | .split4 g x s h => some (4, packQ g 43 0 1 x s h)
  | .split8 g x s h => some (4, packQ g 43 0 2 x s h)
  | .join g s => some (4, packQ g 43 0 3 0 s 0)
  | .give g x s => some (4, packQ g 43 0 4 x s 0)
  | .freeze g s => some (4, packQ g 43 0 5 0 s 0)
  | .thaw g s => some (4, packQ g 43 0 6 0 s 0)
  | .returnBlk g s => some (4, packQ g 44 0 0 0 s 0)
  | .returnCore g s => some (4, packQ g 44 0 1 0 s 0)
  | .returnDie g s => some (4, packQ g 44 0 2 0 s 0)
  | .returnDev g s => some (4, packQ g 44 0 3 0 s 0)
  | .returnSys g s => some (4, packQ g 44 0 4 0 s 0)
  | .bstat g x s => some (4, packQ g 44 0 5 x s 0)
  | .bdrop g s => some (4, packQ g 44 0 6 0 s 0)
  | .fenceAcq g b a => some (4, packA g 45 0 b a 0)
  | .fenceRel g b a => some (4, packA g 45 1 b a 0)
  | .fenceAcqrel g b a => some (4, packA g 45 2 b a 0)
  | .dflush g => some (4, packA g 45 3 0 0 0)
  | .rcv g a => some (4, packA g 46 0 0 a 0)
  | .barSync g b a => some (4, packA g 46 1 b a 0)
  | .barArrive g b a => some (4, packA g 46 2 b a 0)
  | .barWait g b a => some (4, packA g 46 3 b a 0)
  | .copy g k x s h => some (4, packQ g 47 k 0 x s h)
  | .copyShadow g k x s h => some (4, packQ g 47 k 1 x s h)
  | .publish g h => some (4, packQ g 47 0 2 0 0 h)
  | .cpwait g x => some (4, packQ g 47 0 3 x 0 0)
  | .cpstat g x h => some (4, packQ g 47 0 4 x 0 h)
  | .cpcancel g h => some (4, packQ g 47 0 5 0 0 h)
  | .mbpost g b a => some (4, packA g 48 0 b a 0)
  | .spawn g a d => some (4, packA g 48 1 0 a d)
  | .hqpost g b a => some (4, packA g 48 2 b a 0)
  | .hqtake g a d => some (4, packA g 48 3 0 a d)
  | .hqpeek g a d => some (4, packA g 48 4 0 a d)
  | .sleepUntil g a => some (4, packA g 49 0 0 a 0)
  | .yield g => some (4, packA g 49 1 0 0 0)
  | .dadd g b a d => some (4, packD g 50 0 0 0 b a d)
  | .dsub g b a d => some (4, packD g 50 0 1 0 b a d)
  | .dmul g b a d => some (4, packD g 50 0 2 0 b a d)
  | .ddiv g b a d => some (4, packD g 50 0 3 0 b a d)
  | .dmin g b a d => some (4, packD g 50 0 4 0 b a d)
  | .dmax g b a d => some (4, packD g 50 0 5 0 b a d)
  | .dmix g x b a d => some (4, packD g 50 0 6 x b a d)
  | .dscale g x a d => some (4, packD g 51 0 0 x 0 a d)
  | .dshift g x a d => some (4, packD g 51 0 1 x 0 a d)
  | .dmap g f a d => some (4, packD g 51 f 2 0 0 a d)
  | .dneg g a d => some (4, packD g 51 0 3 0 0 a d)
  | .dmov g a d => some (4, packD g 51 0 4 0 0 a d)
  | .dcond g f x a d => some (4, packD g 51 f 5 x 0 a d)
  | .dtag g f x a d => some (4, packD g 51 f 6 x 0 a d)
  | .dnorm g a d => some (4, packD g 51 0 7 0 0 a d)
  | .dsrc g x d => some (4, packD g 52 0 0 x 0 0 d)
  | .dpush g x d => some (4, packD g 52 0 1 x 0 0 d)
  | .dpushw g x d => some (4, packD g 52 0 2 x 0 0 d)
  | .dld g k x h d => some (4, packD g 52 k 3 x h 0 d)
  | .dst g k x h d => some (4, packD g 52 k 4 x h 0 d)
  | .dselV g k x a => some (4, packD g 52 k 5 x 0 a 0)
  | .dselW g k x a => some (4, packD g 52 k 6 x 0 a 0)
  | .dmass g x a => some (4, packD g 52 0 7 x 0 a 0)
  | .dmom1 g x a => some (4, packD g 53 0 0 x 0 a 0)
  | .dmom2c g x a => some (4, packD g 53 0 1 x 0 a 0)
  | .dmom3c g x a => some (4, packD g 53 0 2 x 0 a 0)
  | .dmom4c g x a => some (4, packD g 53 0 3 x 0 a 0)
  | .dqnt g x a => some (4, packD g 53 0 4 x 0 a 0)
  | .dcdf g x a => some (4, packD g 53 0 5 x 0 a 0)
  | .dlo g x a => some (4, packD g 53 0 6 x 0 a 0)
  | .dhi g x a => some (4, packD g 53 0 7 x 0 a 0)
  | .bra g o => some (4, packB g 54 o)
  | .call g o => some (4, packB g 55 o)
  | .jmp g a => some (4, packA g 56 0 0 a 0)
  | .ret g a => some (4, packA g 56 1 0 a 0)
  | .exit g => some (4, packA g 56 2 0 0 0)
  | .rgn g => some (4, packA g 56 3 0 0 0)
  | .brk g b => some (4, packA g 56 4 b 0 0)
  | .trap g b => some (4, packA g 56 5 b 0 0)
  | .nop g => some (4, packA g 56 6 0 0 0)
  | .halt g => some (4, packA g 56 7 0 0 0)
  | .park g o => some (4, packB g 57 o)
  | .tset g b a => some (4, packA g 58 0 b a 0)
  | .tget g a d => some (4, packA g 58 1 0 a d)
  | .tbind g b a => some (4, packA g 58 2 b a 0)
  | .tdrop g a => some (4, packA g 58 3 0 a 0)
  | .tchk g a d => some (4, packA g 58 4 0 a d)
  | .lbrw g a d => some (4, packA g 59 0 0 a d)
  | .lpref g a => some (4, packA g 59 1 0 a 0)
  | .lstat g a d => some (4, packA g 59 2 0 a d)
  | .lret g b a => some (4, packA g 59 3 b a 0)
  | .lretry g a d => some (4, packA g 59 4 0 a d)
  | .lpin g a => some (4, packA g 59 5 0 a 0)
  | .lunpin g a => some (4, packA g 59 6 0 a 0)
  | .mcfg g b a => some (4, packA g 60 0 b a 0)
  | .mcommit g => some (4, packA g 60 1 0 0 0)
  | .mma g b a => some (4, packA g 60 2 b a 0)
  | .mzero g a => some (4, packA g 60 3 0 a 0)
  | .mfeed g a => some (4, packA g 60 4 0 a 0)
  | .mdrain g a => some (4, packA g 60 5 0 a 0)
  | .mwait g a => some (4, packA g 60 6 0 a 0)
  | .mchain g a => some (4, packA g 60 7 0 a 0)
  | .mfsr g r d => some (4, packS g 61 0 r d)
  | .mtsr g r d => some (4, packS g 61 1 r d)
  | .tret g => some (4, packS g 61 2 0 0)
  | .tretSkip g => some (4, packS g 61 3 0 0)
  | .haltCtx g => some (4, packS g 61 4 0 0)
  | .ecall g s d => some (4, packS g 61 5 s d)
  | .dbgmark g s d => some (4, packS g 61 6 s d)
  | .tlbi g b a => some (4, packA g 62 0 b a 0)
  | .l2wb g b a d => some (4, packA g 62 1 b a d)
  | .l2cfg g b a => some (4, packA g 62 2 b a 0)
  | .owalk g b a d => some (4, packA g 62 3 b a d)
  | .bias g b a => some (4, packA g 62 4 b a 0)
  | .migr g b a => some (4, packA g 62 5 b a 0)
  | .invl1 g b a => some (4, packA g 62 6 b a 0)
  | .pcnt g b a d => some (4, packA g 62 7 b a d)
  | .coldReset => none
  | .watchdogTimeout => none
  | .watchdogKick => none
  | .throttleEvaluation => none
  | .throttleWindowStart => none
  | .linkReceive => none
  | .issueArbitration => none
  | .icacheLineArrive => none
  | .registerWriteComplete => none
  | .meshRequestArrive => none
  | .homeServe => none
  | .dramSupply => none
  | .valueReturn => none
  | .rebuildWord => none
  | .rowSpareCopy => none
  | .storeBeatDrain => none
  | .crosslaneDeadlock => none
  | .borrowRequestArrive => none
  | .borrowGrant => none
  | .borrowAnswer => none
  | .writebackComplete => none
  | .writebackFail => none
  | .sleepUntilWake => none
  | .cpwaitWake => none
  | .yieldExpire => none
  | .publishPerform => none
  | .copyComplete => none
  | .hqEntryEnter => none
  | .mailboxRunStart => none
  | .dflushDrain => none
  | .detEndDrain => none
  | .engineOpBegin => none
  | .engineOpComplete => none
  | .mcommitClear => none
  | .tileFetchArrive => none
  | .ttabWriteComplete => none
  | .handlerEntry => none
  | .sresumeWrite _ _ => none
  | .registerWrite _ _ _ => none
  | .translationComplete => none
  | .nqheadWrite _ => none
  | .sweepComplete => none
  | .l2wbComplete => none
  | .l2cfgSwitch => none
  | .l2cfgReplayReceive => none
  | .owalkComplete => none
  | .invl1Complete => none
  | .biasFlipComplete => none
  | .bisnpResponse _ _ => none
  | .migrationSweepTick => none
  | .migrationPullComplete => none
  | .poolFlushDeadline => none
  | .poolGangHost => none
  | .poolGangReady => none
  | .slotTrigger _ => none
  | .launchParse => none
  | .launchComplete => none
  | .mailboxUnbind _ => none
  | .startTimeMet => none
  | .retenPass => none
  | .passTimer => none
  | .blockStart => none
  | .detStartNotice => none
  | .suspendComplete => none
  | .prioritySuspend => none
  | .reclaimWalk => none
  | .calicoSwapinStart => none
  | .calicoLineArrive => none
  | .calicoObjectPublish => none
  | .swapinTimeout => none
  | .layerEvictComplete => none
  | .atsCompletion _ _ => none
  | .atsInvalidation _ _ => none
  | .inboundAccess _ => none
  | .inboundFaultTimeout => none
  | .nakResend => none
  | .reqx _ => none
  | .reqs _ => none
  | .grant _ => none
  | .deny _ => none
  | .msgReturn _ => none
  | .lreturn _ => none
  | .renew _ => none
  | .renewed _ => none
  | .recall _ => none
  | .wbdone _ => none
  | .renewTimer => none
  | .leaseExpiry => none
  | .lostHolderTimeout => none
  | .readRequest _ => none
  | .farOperationPacket _ => none
  | .signalPacket _ => none
  | .mailboxMessage _ => none
  | .postedWrite _ => none
  | .readData _ => none
  | .completion _ => none
  | .farOpResult _ => none
  | .nak _ => none
  | .creditReturn _ _ _ => none
  | .flitCheckFail _ => none
  | .linkFailure _ => none
  | .linkRequestTimeout => none
  | .snpdata _ => none
  | .snpinv _ => none
  | .snpcur _ => none
  | .hostMemRead _ _ => none
  | .hostMemWrite _ _ _ => none
  | .cxlCacheData _ _ _ => none
  | .create => none
  | .suspend => none
  | .resume => none
  | .kill => none
  | .pagedoneMapped => none
  | .pagedoneUnmappable => none
  | .biasHost => none
  | .biasDevice => none
  | .route => none
  | .keycreate => none
  | .keydrop => none
  | .rkey => none
  | .range => none
  | .linkreset => none
  | .dbgattach => none
  | .dbgdetach => none
  | .dbghalt => none
  | .dbgresume => none
  | .dbgstops => none
  | .slotread => none
  | .trace => none
  | .recover => none
  | .crashread => none
  | .reset => none
  | .ecallNone => none
  | .ecallPost => none
  | .ecallThrottle => none
  | .ecallResets => none
  | .getVersion _ => none
  | .getCapabilities _ => none
  | .negotiateAlgorithms _ => none
  | .getDigests _ => none
  | .getCertificate _ => none
  | .challenge _ => none
  | .getMeasurements _ => none
  | .keyExchange _ => none
  | .finish _ => none
  | .linkTrained _ => none
  | .unlistedCommand => none
  | .unlistedEcallService => none
  | .unknownOwnershipMessage _ => none
  | .retenFatal => none

/-- The bytes of an instruction as they stand in memory (R9, R39); none for a step that has no encoding. -/
def encode (i : Instr) : Option (List Byte) := (i.encoding).map fun p => leBytes p.1 p.2

/-! ## Decoding -/

/-- A field as a number of its width. -/
def fin {n : Nat} [NeZero n] (v : Nat) : Fin n := Fin.ofNat n v

/-- The guard of a 32-bit word (R42). -/
def guardOf (w : Nat) : Guard := ⟨bits w 10 10 == 1, fin (bits w 9 7)⟩

/-- Major 0x00 (R49). -/
noncomputable def cand00 (w : Nat) : Option Instr :=
  match bits w 31 29 with
  | 0 => some (.add (guardOf w) (fin (bits w 28 23)) (fin (bits w 22 17)) (fin (bits w 16 11)))
  | 1 => some (.sub (guardOf w) (fin (bits w 28 23)) (fin (bits w 22 17)) (fin (bits w 16 11)))
  | 2 => some (.addc (guardOf w) (fin (bits w 28 23)) (fin (bits w 22 17)) (fin (bits w 16 11)))
  | 3 => some (.subb (guardOf w) (fin (bits w 28 23)) (fin (bits w 22 17)) (fin (bits w 16 11)))
  | 4 => some (.minS32 (guardOf w) (fin (bits w 28 23)) (fin (bits w 22 17)) (fin (bits w 16 11)))
  | 5 => some (.maxS32 (guardOf w) (fin (bits w 28 23)) (fin (bits w 22 17)) (fin (bits w 16 11)))
  | 6 => some (.minN32 (guardOf w) (fin (bits w 28 23)) (fin (bits w 22 17)) (fin (bits w 16 11)))
  | 7 => some (.maxN32 (guardOf w) (fin (bits w 28 23)) (fin (bits w 22 17)) (fin (bits w 16 11)))
  | _ => none

/-- Major 0x01 (R49). -/
noncomputable def cand01 (w : Nat) : Option Instr :=
  match bits w 31 29 with
  | 0 => some (.mul (guardOf w) (fin (bits w 28 23)) (fin (bits w 22 17)) (fin (bits w 16 11)))
  | 1 => some (.mulhiS32 (guardOf w) (fin (bits w 28 23)) (fin (bits w 22 17)) (fin (bits w 16 11)))
  | 2 => some (.mulhiN32 (guardOf w) (fin (bits w 28 23)) (fin (bits w 22 17)) (fin (bits w 16 11)))
  | 3 => some (.mad (guardOf w) (fin (bits w 28 23)) (fin (bits w 22 17)) (fin (bits w 16 11)))
  | 4 => some (.divS32 (guardOf w) (fin (bits w 28 23)) (fin (bits w 22 17)) (fin (bits w 16 11)))
  | 5 => some (.divN32 (guardOf w) (fin (bits w 28 23)) (fin (bits w 22 17)) (fin (bits w 16 11)))
  | 6 => some (.remS32 (guardOf w) (fin (bits w 28 23)) (fin (bits w 22 17)) (fin (bits w 16 11)))
  | 7 => some (.remN32 (guardOf w) (fin (bits w 28 23)) (fin (bits w 22 17)) (fin (bits w 16 11)))
  | _ => none

/-- Major 0x02 (R49). -/
noncomputable def cand02 (w : Nat) : Option Instr :=
  match bits w 31 29 with
  | 0 => some (.and (guardOf w) (fin (bits w 28 23)) (fin (bits w 22 17)) (fin (bits w 16 11)))
  | 1 => some (.or (guardOf w) (fin (bits w 28 23)) (fin (bits w 22 17)) (fin (bits w 16 11)))
  | 2 => some (.xor (guardOf w) (fin (bits w 28 23)) (fin (bits w 22 17)) (fin (bits w 16 11)))
  | 3 => some (.andn (guardOf w) (fin (bits w 28 23)) (fin (bits w 22 17)) (fin (bits w 16 11)))
  | 4 => some (.orn (guardOf w) (fin (bits w 28 23)) (fin (bits w 22 17)) (fin (bits w 16 11)))
  | 5 => some (.xnor (guardOf w) (fin (bits w 28 23)) (fin (bits w 22 17)) (fin (bits w 16 11)))
  | 6 => some (.not (guardOf w) (fin (bits w 22 17)) (fin (bits w 16 11)))
  | 7 => some (.mov (guardOf w) (fin (bits w 22 17)) (fin (bits w 16 11)))
  | _ => none

/-- Major 0x03 (R49). -/
noncomputable def cand03 (w : Nat) : Option Instr :=
  match bits w 31 29 with
  | 0 => some (.shl (guardOf w) (fin (bits w 28 23)) (fin (bits w 22 17)) (fin (bits w 16 11)))
  | 1 => some (.shr (guardOf w) (fin (bits w 28 23)) (fin (bits w 22 17)) (fin (bits w 16 11)))
  | 2 => some (.sar (guardOf w) (fin (bits w 28 23)) (fin (bits w 22 17)) (fin (bits w 16 11)))
  | 3 => some (.rotl (guardOf w) (fin (bits w 28 23)) (fin (bits w 22 17)) (fin (bits w 16 11)))
  | 4 => some (.rotr (guardOf w) (fin (bits w 28 23)) (fin (bits w 22 17)) (fin (bits w 16 11)))
  | 5 => some (.bfeN32 (guardOf w) (fin (bits w 28 23)) (fin (bits w 22 17)) (fin (bits w 16 11)))
  | 6 => some (.bfeS32 (guardOf w) (fin (bits w 28 23)) (fin (bits w 22 17)) (fin (bits w 16 11)))
  | 7 => some (.bfi (guardOf w) (fin (bits w 28 23)) (fin (bits w 22 17)) (fin (bits w 16 11)))
  | _ => none

/-- Major 0x04 (R49). -/
noncomputable def cand04 (w : Nat) : Option Instr :=
  match bits w 31 29 with
  | 0 => some (.popc (guardOf w) (fin (bits w 22 17)) (fin (bits w 16 11)))
  | 1 => some (.clz (guardOf w) (fin (bits w 22 17)) (fin (bits w 16 11)))
  | 2 => some (.ctz (guardOf w) (fin (bits w 22 17)) (fin (bits w 16 11)))
  | 3 => some (.brev (guardOf w) (fin (bits w 22 17)) (fin (bits w 16 11)))
  | 4 => some (.bperm (guardOf w) (fin (bits w 28 23)) (fin (bits w 22 17)) (fin (bits w 16 11)))
  | 5 => some (.abs (guardOf w) (fin (bits w 22 17)) (fin (bits w 16 11)))
  | 6 => some (.neg (guardOf w) (fin (bits w 22 17)) (fin (bits w 16 11)))
  | 7 => some (.sext (guardOf w) (fin (bits w 28 23)) (fin (bits w 22 17)) (fin (bits w 16 11)))
  | _ => none

/-- Major 0x05 (R49). -/
noncomputable def cand05 (w : Nat) : Option Instr := some (.addi (guardOf w) (fin (bits w 31 23)) (fin (bits w 22 17)) (fin (bits w 16 11)))

/-- Major 0x06 (R49). -/
noncomputable def cand06 (w : Nat) : Option Instr :=
  match bits w 31 23 / 32 with
  | 0 => some (.shlImm (guardOf w) (fin (bits w 31 23)) (fin (bits w 22 17)) (fin (bits w 16 11)))
  | 1 => some (.shrImm (guardOf w) (fin (bits w 31 23)) (fin (bits w 22 17)) (fin (bits w 16 11)))
  | 2 => some (.sarImm (guardOf w) (fin (bits w 31 23)) (fin (bits w 22 17)) (fin (bits w 16 11)))
  | 3 => some (.rotlImm (guardOf w) (fin (bits w 31 23)) (fin (bits w 22 17)) (fin (bits w 16 11)))
  | _ => none

/-- Major 0x07 (R49). -/
noncomputable def cand07 (w : Nat) : Option Instr := some (.movl (guardOf w) (fin (bits w 31 16)) (fin (bits w 15 11)))

/-- Major 0x08 (R49). -/
noncomputable def cand08 (w : Nat) : Option Instr := some (.movh (guardOf w) (fin (bits w 31 16)) (fin (bits w 15 11)))

/-- Major 0x09 (R49). -/
noncomputable def cand09 (w : Nat) : Option Instr :=
  match bits w 31 29 with
  | 0 => some (.add64 (guardOf w) (fin (bits w 28 23)) (fin (bits w 22 17)) (fin (bits w 16 11)))
  | 1 => some (.sub64 (guardOf w) (fin (bits w 28 23)) (fin (bits w 22 17)) (fin (bits w 16 11)))
  | 2 => some (.mul64lo (guardOf w) (fin (bits w 28 23)) (fin (bits w 22 17)) (fin (bits w 16 11)))
  | 3 => some (.mulwS32 (guardOf w) (fin (bits w 28 23)) (fin (bits w 22 17)) (fin (bits w 16 11)))
  | 4 => some (.mulwN32 (guardOf w) (fin (bits w 28 23)) (fin (bits w 22 17)) (fin (bits w 16 11)))
  | 5 => some (.shl64 (guardOf w) (fin (bits w 28 23)) (fin (bits w 22 17)) (fin (bits w 16 11)))
  | 6 => some (.shr64 (guardOf w) (fin (bits w 28 23)) (fin (bits w 22 17)) (fin (bits w 16 11)))
  | 7 => some (.sar64 (guardOf w) (fin (bits w 28 23)) (fin (bits w 22 17)) (fin (bits w 16 11)))
  | _ => none

/-- Major 0x0A (R49). -/
noncomputable def cand0A (w : Nat) : Option Instr :=
  match bits w 16 14 with
  | 0 => some (.icmpEq (guardOf w) (fin (bits w 31 30)) (fin (bits w 28 23)) (fin (bits w 22 17)) (fin (bits w 13 11)))
  | 1 => some (.icmpNe (guardOf w) (fin (bits w 31 30)) (fin (bits w 28 23)) (fin (bits w 22 17)) (fin (bits w 13 11)))
  | 2 => some (.icmpLt (guardOf w) (fin (bits w 31 30)) (fin (bits w 29 29)) (fin (bits w 28 23)) (fin (bits w 22 17)) (fin (bits w 13 11)))
  | 3 => some (.icmpLe (guardOf w) (fin (bits w 31 30)) (fin (bits w 29 29)) (fin (bits w 28 23)) (fin (bits w 22 17)) (fin (bits w 13 11)))
  | 4 => some (.icmpGt (guardOf w) (fin (bits w 31 30)) (fin (bits w 29 29)) (fin (bits w 28 23)) (fin (bits w 22 17)) (fin (bits w 13 11)))
  | 5 => some (.icmpGe (guardOf w) (fin (bits w 31 30)) (fin (bits w 29 29)) (fin (bits w 28 23)) (fin (bits w 22 17)) (fin (bits w 13 11)))
  | _ => none

/-- Major 0x0B (R49). -/
noncomputable def cand0B (w : Nat) : Option Instr :=
  match bits w 16 14 with
  | 0 => some (.fcmpEq (guardOf w) (fin (bits w 31 30)) (fin (bits w 29 29)) (fin (bits w 28 23)) (fin (bits w 22 17)) (fin (bits w 13 11)))
  | 1 => some (.fcmpNe (guardOf w) (fin (bits w 31 30)) (fin (bits w 28 23)) (fin (bits w 22 17)) (fin (bits w 13 11)))
  | 2 => some (.fcmpLt (guardOf w) (fin (bits w 31 30)) (fin (bits w 29 29)) (fin (bits w 28 23)) (fin (bits w 22 17)) (fin (bits w 13 11)))
  | 3 => some (.fcmpLe (guardOf w) (fin (bits w 31 30)) (fin (bits w 29 29)) (fin (bits w 28 23)) (fin (bits w 22 17)) (fin (bits w 13 11)))
  | 4 => some (.fcmpGt (guardOf w) (fin (bits w 31 30)) (fin (bits w 29 29)) (fin (bits w 28 23)) (fin (bits w 22 17)) (fin (bits w 13 11)))
  | 5 => some (.fcmpGe (guardOf w) (fin (bits w 31 30)) (fin (bits w 29 29)) (fin (bits w 28 23)) (fin (bits w 22 17)) (fin (bits w 13 11)))
  | _ => none

/-- Major 0x0C (R49). -/
noncomputable def cand0C (w : Nat) : Option Instr :=
  match bits w 31 29 with
  | 0 => some (.pand (guardOf w) (fin (bits w 28 23)) (fin (bits w 22 17)) (fin (bits w 16 11)))
  | 1 => some (.por (guardOf w) (fin (bits w 28 23)) (fin (bits w 22 17)) (fin (bits w 16 11)))
  | 2 => some (.pxor (guardOf w) (fin (bits w 28 23)) (fin (bits w 22 17)) (fin (bits w 16 11)))
  | 3 => some (.pandn (guardOf w) (fin (bits w 28 23)) (fin (bits w 22 17)) (fin (bits w 16 11)))
  | 4 => some (.pnot (guardOf w) (fin (bits w 22 17)) (fin (bits w 16 11)))
  | 5 => some (.p2g (guardOf w) (fin (bits w 16 11)))
  | 6 => some (.g2p (guardOf w) (fin (bits w 22 17)))
  | 7 => some (.pset (guardOf w) (fin (bits w 22 17)) (fin (bits w 16 11)))
  | _ => none

/-- Major 0x0D (R49). -/
noncomputable def cand0D (w : Nat) : Option Instr :=
  match bits w 31 29 with
  | 0 => some (.voteAnyP (guardOf w) (fin (bits w 28 23)) (fin (bits w 22 17)) (fin (bits w 16 11)))
  | 1 => some (.voteAllP (guardOf w) (fin (bits w 28 23)) (fin (bits w 22 17)) (fin (bits w 16 11)))
  | 2 => some (.voteCountP (guardOf w) (fin (bits w 28 23)) (fin (bits w 22 17)) (fin (bits w 16 11)))
  | 3 => some (.voteBallotP (guardOf w) (fin (bits w 28 23)) (fin (bits w 22 17)) (fin (bits w 16 11)))
  | 4 => some (.voteAnyFx (guardOf w) (fin (bits w 28 23)) (fin (bits w 22 17)) (fin (bits w 16 11)))
  | 5 => some (.voteAllFx (guardOf w) (fin (bits w 28 23)) (fin (bits w 22 17)) (fin (bits w 16 11)))
  | 6 => some (.voteCountFx (guardOf w) (fin (bits w 28 23)) (fin (bits w 22 17)) (fin (bits w 16 11)))
  | 7 => some (.voteBallotFx (guardOf w) (fin (bits w 28 23)) (fin (bits w 22 17)) (fin (bits w 16 11)))
  | _ => none

/-- Major 0x0E (R49). -/
noncomputable def cand0E (w : Nat) : Option Instr :=
  match bits w 31 29 with
  | 0 => some (.fxrd (guardOf w) (fin (bits w 16 11)))
  | 1 => some (.fxclr (guardOf w) (fin (bits w 28 23)))
  | 2 => some (.fxor (guardOf w) (fin (bits w 22 17)))
  | 3 => some (.fxtest (guardOf w) (fin (bits w 28 23)) (fin (bits w 16 11)))
  | _ => none

/-- Major 0x0F (R49). -/
noncomputable def cand0F (w : Nat) : Option Instr :=
  match bits w 31 30 with
  | 0 => some (.shflIdx (guardOf w) (fin (bits w 29 28)) (fin (bits w 27 23)) (fin (bits w 22 17)) (fin (bits w 16 11)))
  | 1 => some (.shflUp (guardOf w) (fin (bits w 29 28)) (fin (bits w 27 23)) (fin (bits w 22 17)) (fin (bits w 16 11)))
  | 2 => some (.shflDown (guardOf w) (fin (bits w 29 28)) (fin (bits w 27 23)) (fin (bits w 22 17)) (fin (bits w 16 11)))
  | 3 => some (.shflXor (guardOf w) (fin (bits w 29 28)) (fin (bits w 27 23)) (fin (bits w 22 17)) (fin (bits w 16 11)))
  | _ => none

/-- Major 0x10 (R49). -/
noncomputable def cand10 (w : Nat) : Option Instr :=
  match bits w 31 30 with
  | 0 => some (.xredAdd (guardOf w) (fin (bits w 29 28)) (fin (bits w 27 23)) (fin (bits w 22 17)) (fin (bits w 16 11)))
  | 1 => some (.xredMin (guardOf w) (fin (bits w 29 28)) (fin (bits w 27 23)) (fin (bits w 22 17)) (fin (bits w 16 11)))
  | 2 => some (.xredMax (guardOf w) (fin (bits w 29 28)) (fin (bits w 27 23)) (fin (bits w 22 17)) (fin (bits w 16 11)))
  | 3 => some (.xredLogic (guardOf w) (fin (bits w 29 28)) (fin (bits w 27 23)) (fin (bits w 22 17)) (fin (bits w 16 11)))
  | _ => none

/-- Major 0x11 (R49). -/
noncomputable def cand11 (w : Nat) : Option Instr :=
  match bits w 31 30 with
  | 0 => some (.xscanAddInc (guardOf w) (fin (bits w 29 28)) (fin (bits w 27 23)) (fin (bits w 22 17)) (fin (bits w 16 11)))
  | 1 => some (.xscanAddExc (guardOf w) (fin (bits w 29 28)) (fin (bits w 27 23)) (fin (bits w 22 17)) (fin (bits w 16 11)))
  | 2 => some (.xscanMaxInc (guardOf w) (fin (bits w 29 28)) (fin (bits w 27 23)) (fin (bits w 22 17)) (fin (bits w 16 11)))
  | 3 => some (.xscanMaxExc (guardOf w) (fin (bits w 29 28)) (fin (bits w 27 23)) (fin (bits w 22 17)) (fin (bits w 16 11)))
  | _ => none

/-- Major 0x12 (R49). -/
noncomputable def cand12 (w : Nat) : Option Instr :=
  match bits w 31 29 with
  | 0 => some (.sadd (guardOf w) (fin (bits w 28 23)) (fin (bits w 22 17)) (fin (bits w 16 11)))
  | 1 => some (.ssub (guardOf w) (fin (bits w 28 23)) (fin (bits w 22 17)) (fin (bits w 16 11)))
  | 2 => some (.sand (guardOf w) (fin (bits w 28 23)) (fin (bits w 22 17)) (fin (bits w 16 11)))
  | 3 => some (.sor (guardOf w) (fin (bits w 28 23)) (fin (bits w 22 17)) (fin (bits w 16 11)))
  | 4 => some (.sshl (guardOf w) (fin (bits w 28 23)) (fin (bits w 22 17)) (fin (bits w 16 11)))
  | 5 => some (.sshr (guardOf w) (fin (bits w 28 23)) (fin (bits w 22 17)) (fin (bits w 16 11)))
  | 6 => some (.s2g (guardOf w) (fin (bits w 22 17)) (fin (bits w 16 11)))
  | 7 => some (.g2s (guardOf w) (fin (bits w 22 17)) (fin (bits w 16 11)))
  | _ => none

/-- Major 0x13 (R49). -/
noncomputable def cand13 (w : Nat) : Option Instr := some (.sv (guardOf w) (fin (bits w 22 17)) (fin (bits w 16 11)))

/-- Major 0x14 (R49). -/
noncomputable def cand14 (w : Nat) : Option Instr :=
  match bits w 31 29 with
  | 0 => some (.mset (guardOf w) (fin (bits w 22 17)) (fin (bits w 16 11)))
  | 1 => some (.mget (guardOf w) (fin (bits w 22 17)) (fin (bits w 16 11)))
  | 2 => some (.mand (guardOf w) (fin (bits w 28 23)) (fin (bits w 22 17)) (fin (bits w 16 11)))
  | 3 => some (.mor (guardOf w) (fin (bits w 28 23)) (fin (bits w 22 17)) (fin (bits w 16 11)))
  | 4 => some (.mfromp (guardOf w) (fin (bits w 22 17)) (fin (bits w 16 11)))
  | _ => none

/-- Major 0x18 (R49). -/
noncomputable def cand18 (w : Nat) : Option Instr :=
  match bits w 31 29 with
  | 0 => some (.fadd (guardOf w) (fin (bits w 28 23)) (fin (bits w 22 17)) (fin (bits w 16 11)))
  | 1 => some (.fsub (guardOf w) (fin (bits w 28 23)) (fin (bits w 22 17)) (fin (bits w 16 11)))
  | 2 => some (.fmul (guardOf w) (fin (bits w 28 23)) (fin (bits w 22 17)) (fin (bits w 16 11)))
  | 3 => some (.ffma (guardOf w) (fin (bits w 28 23)) (fin (bits w 22 17)) (fin (bits w 16 11)))
  | 4 => some (.fmin (guardOf w) (fin (bits w 28 23)) (fin (bits w 22 17)) (fin (bits w 16 11)))
  | 5 => some (.fmax (guardOf w) (fin (bits w 28 23)) (fin (bits w 22 17)) (fin (bits w 16 11)))
  | 6 => some (.fabs (guardOf w) (fin (bits w 22 17)) (fin (bits w 16 11)))
  | 7 => some (.fneg (guardOf w) (fin (bits w 22 17)) (fin (bits w 16 11)))
  | _ => none

/-- Major 0x19 (R49). -/
noncomputable def cand19 (w : Nat) : Option Instr :=
  match bits w 31 29 with
  | 0 => some (.faddBf16x2 (guardOf w) (fin (bits w 28 23)) (fin (bits w 22 17)) (fin (bits w 16 11)))
  | 1 => some (.fmulBf16x2 (guardOf w) (fin (bits w 28 23)) (fin (bits w 22 17)) (fin (bits w 16 11)))
  | 2 => some (.ffmaBf16x2 (guardOf w) (fin (bits w 28 23)) (fin (bits w 22 17)) (fin (bits w 16 11)))
  | 3 => some (.faddF16x2 (guardOf w) (fin (bits w 28 23)) (fin (bits w 22 17)) (fin (bits w 16 11)))
  | 4 => some (.fmulF16x2 (guardOf w) (fin (bits w 28 23)) (fin (bits w 22 17)) (fin (bits w 16 11)))
  | 5 => some (.ffmaF16x2 (guardOf w) (fin (bits w 28 23)) (fin (bits w 22 17)) (fin (bits w 16 11)))
  | 6 => some (.fmaxBf16x2 (guardOf w) (fin (bits w 28 23)) (fin (bits w 22 17)) (fin (bits w 16 11)))
  | 7 => some (.fminBf16x2 (guardOf w) (fin (bits w 28 23)) (fin (bits w 22 17)) (fin (bits w 16 11)))
  | _ => none

/-- Major 0x1A (R49). -/
noncomputable def cand1A (w : Nat) : Option Instr :=
  match bits w 31 29 with
  | 0 => some (.dot2Bf16 (guardOf w) (fin (bits w 28 23)) (fin (bits w 22 17)) (fin (bits w 16 11)))
  | 1 => some (.dot2F16 (guardOf w) (fin (bits w 28 23)) (fin (bits w 22 17)) (fin (bits w 16 11)))
  | 2 => some (.dot4E4m3 (guardOf w) (fin (bits w 28 23)) (fin (bits w 22 17)) (fin (bits w 16 11)))
  | 3 => some (.dot4E5m2 (guardOf w) (fin (bits w 28 23)) (fin (bits w 22 17)) (fin (bits w 16 11)))
  | 4 => some (.dot8E2m1 (guardOf w) (fin (bits w 28 23)) (fin (bits w 22 17)) (fin (bits w 16 11)))
  | 5 => some (.idot4S8 (guardOf w) (fin (bits w 28 23)) (fin (bits w 22 17)) (fin (bits w 16 11)))
  | 6 => some (.idot4N8 (guardOf w) (fin (bits w 28 23)) (fin (bits w 22 17)) (fin (bits w 16 11)))
  | _ => none

/-- Major 0x1B (R49). -/
noncomputable def cand1B (w : Nat) : Option Instr :=
  match bits w 31 29 with
  | 0 => some (.rcp (guardOf w) (fin (bits w 22 17)) (fin (bits w 16 11)))
  | 1 => some (.rsq (guardOf w) (fin (bits w 22 17)) (fin (bits w 16 11)))
  | 2 => some (.sqrt (guardOf w) (fin (bits w 22 17)) (fin (bits w 16 11)))
  | 3 => some (.exp2 (guardOf w) (fin (bits w 22 17)) (fin (bits w 16 11)))
  | 4 => some (.log2 (guardOf w) (fin (bits w 22 17)) (fin (bits w 16 11)))
  | 5 => some (.sin (guardOf w) (fin (bits w 22 17)) (fin (bits w 16 11)))
  | 6 => some (.cos (guardOf w) (fin (bits w 22 17)) (fin (bits w 16 11)))
  | 7 => some (.tanh (guardOf w) (fin (bits w 22 17)) (fin (bits w 16 11)))
  | _ => none

/-- Major 0x1C (R49). -/
noncomputable def cand1C (w : Nat) : Option Instr := some (.fcvt (guardOf w) (fin (bits w 31 29)) (fin (bits w 28 23 / 8)) (fin (bits w 28 23)) (fin (bits w 22 17)) (fin (bits w 16 11)))

/-- Major 0x1D (R49). -/
noncomputable def cand1D (w : Nat) : Option Instr :=
  match bits w 31 29 with
  | 0 => some (.qencE2m1 (guardOf w) (fin (bits w 22 17)) (fin (bits w 16 11)))
  | 1 => some (.qdecE2m1 (guardOf w) (fin (bits w 28 23)) (fin (bits w 22 17)) (fin (bits w 16 11)))
  | 2 => some (.pk2Bf16 (guardOf w) (fin (bits w 22 17)) (fin (bits w 16 11)))
  | 3 => some (.pk2F16 (guardOf w) (fin (bits w 22 17)) (fin (bits w 16 11)))
  | 4 => some (.pk4E4m3 (guardOf w) (fin (bits w 22 17)) (fin (bits w 16 11)))
  | 5 => some (.pk4E5m2 (guardOf w) (fin (bits w 22 17)) (fin (bits w 16 11)))
  | 6 => some (.unpkE4m3 (guardOf w) (fin (bits w 22 17)) (fin (bits w 16 11)))
  | 7 => some (.unpkE5m2 (guardOf w) (fin (bits w 22 17)) (fin (bits w 16 11)))
  | _ => none

/-- Major 0x1E (R49). -/
noncomputable def cand1E (w : Nat) : Option Instr :=
  match bits w 31 29 with
  | 0 => some (.fclass (guardOf w) (fin (bits w 22 17)) (fin (bits w 16 11)))
  | 1 => some (.frnd (guardOf w) (fin (bits w 22 17)) (fin (bits w 16 11)))
  | 2 => some (.fgetexp (guardOf w) (fin (bits w 22 17)) (fin (bits w 16 11)))
  | 3 => some (.fscale (guardOf w) (fin (bits w 28 23)) (fin (bits w 22 17)) (fin (bits w 16 11)))
  | 4 => some (.fcopysign (guardOf w) (fin (bits w 28 23)) (fin (bits w 22 17)) (fin (bits w 16 11)))
  | 5 => some (.fsat (guardOf w) (fin (bits w 22 17)) (fin (bits w 16 11)))
  | _ => none

/-- Major 0x20 (R49). -/
noncomputable def cand20 (w : Nat) : Option Instr := some (.ld (guardOf w) (fin (bits w 31 27 / 4)) (fin (bits w 31 27 / 2)) (fin (bits w 31 27)) (fin (bits w 26 21)) (fin (bits w 20 17)) (fin (bits w 16 11)))

/-- Major 0x21 (R49). -/
noncomputable def cand21 (w : Nat) : Option Instr := some (.ldi (guardOf w) (fin (bits w 31 29)) (fin (bits w 28 21)) (fin (bits w 20 17)) (fin (bits w 16 11)))

/-- Major 0x22 (R49). -/
noncomputable def cand22 (w : Nat) : Option Instr := some (.ldv (guardOf w) (fin (bits w 31 27 / 4)) (fin (bits w 31 27 / 2)) (fin (bits w 26 21)) (fin (bits w 20 17)) (fin (bits w 16 11)))

/-- Major 0x23 (R49). -/
noncomputable def cand23 (w : Nat) : Option Instr := some (.st (guardOf w) (fin (bits w 31 27 / 4)) (fin (bits w 31 27)) (fin (bits w 26 21)) (fin (bits w 20 17)) (fin (bits w 16 11)))

/-- Major 0x24 (R49). -/
noncomputable def cand24 (w : Nat) : Option Instr := some (.sti (guardOf w) (fin (bits w 31 29)) (fin (bits w 28 21)) (fin (bits w 20 17)) (fin (bits w 16 11)))

/-- Major 0x25 (R49). -/
noncomputable def cand25 (w : Nat) : Option Instr :=
  match bits w 31 27 with
  | 0 => some (.pref (guardOf w) (fin (bits w 26 21)) (fin (bits w 20 17)))
  | 1 => some (.touch (guardOf w) (fin (bits w 26 21)) (fin (bits w 20 17)))
  | 2 => some (.probe (guardOf w) (fin (bits w 26 21)) (fin (bits w 20 17)) (fin (bits w 16 11)))
  | _ => none

/-- Major 0x26 (R49). -/
noncomputable def cand26 (w : Nat) : Option Instr :=
  match bits w 31 27 / 2 with
  | 0 => some (.farAddS32 (guardOf w) (fin (bits w 31 27)) (fin (bits w 26 21)) (fin (bits w 20 17)) (fin (bits w 16 11)))
  | 1 => some (.farAddF32 (guardOf w) (fin (bits w 31 27)) (fin (bits w 26 21)) (fin (bits w 20 17)) (fin (bits w 16 11)))
  | 2 => some (.farAddBf16x2 (guardOf w) (fin (bits w 31 27)) (fin (bits w 26 21)) (fin (bits w 20 17)) (fin (bits w 16 11)))
  | 3 => some (.farMinS32 (guardOf w) (fin (bits w 31 27)) (fin (bits w 26 21)) (fin (bits w 20 17)) (fin (bits w 16 11)))
  | 4 => some (.farMaxS32 (guardOf w) (fin (bits w 31 27)) (fin (bits w 26 21)) (fin (bits w 20 17)) (fin (bits w 16 11)))
  | 5 => some (.farMinN32 (guardOf w) (fin (bits w 31 27)) (fin (bits w 26 21)) (fin (bits w 20 17)) (fin (bits w 16 11)))
  | 6 => some (.farMaxN32 (guardOf w) (fin (bits w 31 27)) (fin (bits w 26 21)) (fin (bits w 20 17)) (fin (bits w 16 11)))
  | 7 => some (.farMinF32 (guardOf w) (fin (bits w 31 27)) (fin (bits w 26 21)) (fin (bits w 20 17)) (fin (bits w 16 11)))
  | 8 => some (.farMaxF32 (guardOf w) (fin (bits w 31 27)) (fin (bits w 26 21)) (fin (bits w 20 17)) (fin (bits w 16 11)))
  | 9 => some (.farAnd (guardOf w) (fin (bits w 31 27)) (fin (bits w 26 21)) (fin (bits w 20 17)) (fin (bits w 16 11)))
  | 10 => some (.farOr (guardOf w) (fin (bits w 31 27)) (fin (bits w 26 21)) (fin (bits w 20 17)) (fin (bits w 16 11)))
  | 11 => some (.farXor (guardOf w) (fin (bits w 31 27)) (fin (bits w 26 21)) (fin (bits w 20 17)) (fin (bits w 16 11)))
  | 12 => some (.farExch (guardOf w) (fin (bits w 31 27)) (fin (bits w 26 21)) (fin (bits w 20 17)) (fin (bits w 16 11)))
  | 13 => some (.farCas (guardOf w) (fin (bits w 31 27)) (fin (bits w 26 21)) (fin (bits w 20 17)) (fin (bits w 16 11)))
  | 14 => some (.farIncWrap (guardOf w) (fin (bits w 31 27)) (fin (bits w 26 21)) (fin (bits w 20 17)) (fin (bits w 16 11)))
  | 15 => some (.farDecWrap (guardOf w) (fin (bits w 31 27)) (fin (bits w 26 21)) (fin (bits w 20 17)) (fin (bits w 16 11)))
  | _ => none

/-- Major 0x27 (R49). -/
noncomputable def cand27 (w : Nat) : Option Instr :=
  match bits w 31 27 / 4 with
  | 0 => some (.faroAddS32 (guardOf w) (fin (bits w 31 27)) (fin (bits w 26 21)) (fin (bits w 20 17)) (fin (bits w 16 11)))
  | 1 => some (.faroExchB32 (guardOf w) (fin (bits w 31 27)) (fin (bits w 26 21)) (fin (bits w 20 17)) (fin (bits w 16 11)))
  | 2 => some (.faroCasB32 (guardOf w) (fin (bits w 31 27)) (fin (bits w 26 21)) (fin (bits w 20 17)) (fin (bits w 16 11)))
  | 3 => some (.faroAddN64 (guardOf w) (fin (bits w 31 27)) (fin (bits w 26 21)) (fin (bits w 20 17)) (fin (bits w 16 11)))
  | 4 => some (.faroExchB64 (guardOf w) (fin (bits w 31 27)) (fin (bits w 26 21)) (fin (bits w 20 17)) (fin (bits w 16 11)))
  | 5 => some (.faroCasB64 (guardOf w) (fin (bits w 31 27)) (fin (bits w 26 21)) (fin (bits w 20 17)) (fin (bits w 16 11)))
  | 6 => some (.faroMinN64 (guardOf w) (fin (bits w 31 27)) (fin (bits w 26 21)) (fin (bits w 20 17)) (fin (bits w 16 11)))
  | 7 => some (.faroMaxN64 (guardOf w) (fin (bits w 31 27)) (fin (bits w 26 21)) (fin (bits w 20 17)) (fin (bits w 16 11)))
  | _ => none

/-- Major 0x28 (R49). -/
noncomputable def cand28 (w : Nat) : Option Instr :=
  match bits w 31 27 with
  | 0 => some (.sigAdd (guardOf w) (fin (bits w 26 21)) (fin (bits w 20 17)) (fin (bits w 16 11)))
  | 1 => some (.sigMax (guardOf w) (fin (bits w 26 21)) (fin (bits w 20 17)) (fin (bits w 16 11)))
  | 2 => some (.sigWaitGe (guardOf w) (fin (bits w 26 21)) (fin (bits w 20 17)) (fin (bits w 16 11)))
  | 3 => some (.sigWaitEq (guardOf w) (fin (bits w 26 21)) (fin (bits w 20 17)) (fin (bits w 16 11)))
  | 4 => some (.sigTest (guardOf w) (fin (bits w 26 21)) (fin (bits w 20 17)) (fin (bits w 16 11)))
  | _ => none

/-- Major 0x29 (R49). -/
noncomputable def cand29 (w : Nat) : Option Instr :=
  match bits w 28 25 with
  | 0 => some (.borrowX (guardOf w) (fin (bits w 24 19)) (fin (bits w 18 15)) (fin (bits w 14 11)))
  | 1 => some (.borrowS (guardOf w) (fin (bits w 24 19)) (fin (bits w 18 15)) (fin (bits w 14 11)))
  | 2 => some (.borrowXTry (guardOf w) (fin (bits w 31 29)) (fin (bits w 24 19)) (fin (bits w 18 15)) (fin (bits w 14 11)))
  | 3 => some (.borrowSTry (guardOf w) (fin (bits w 31 29)) (fin (bits w 24 19)) (fin (bits w 18 15)) (fin (bits w 14 11)))
  | _ => none

/-- Major 0x2A (R49). -/
noncomputable def cand2A (w : Nat) : Option Instr :=
  match bits w 31 29 with
  | 1 => some (.reborrowX (guardOf w) (fin (bits w 24 19)) (fin (bits w 18 15)) (fin (bits w 14 11)))
  | 2 => some (.reborrowS (guardOf w) (fin (bits w 24 19)) (fin (bits w 18 15)) (fin (bits w 14 11)))
  | _ => none

/-- Major 0x2B (R49). -/
noncomputable def cand2B (w : Nat) : Option Instr :=
  match bits w 28 25 with
  | 0 => some (.split2 (guardOf w) (fin (bits w 24 19)) (fin (bits w 18 15)) (fin (bits w 14 11)))
  | 1 => some (.split4 (guardOf w) (fin (bits w 24 19)) (fin (bits w 18 15)) (fin (bits w 14 11)))
  | 2 => some (.split8 (guardOf w) (fin (bits w 24 19)) (fin (bits w 18 15)) (fin (bits w 14 11)))
  | 3 => some (.join (guardOf w) (fin (bits w 18 15)))
  | 4 => some (.give (guardOf w) (fin (bits w 24 19)) (fin (bits w 18 15)))
  | 5 => some (.freeze (guardOf w) (fin (bits w 18 15)))
  | 6 => some (.thaw (guardOf w) (fin (bits w 18 15)))
  | _ => none

/-- Major 0x2C (R49). -/
noncomputable def cand2C (w : Nat) : Option Instr :=
  match bits w 28 25 with
  | 0 => some (.returnBlk (guardOf w) (fin (bits w 18 15)))
  | 1 => some (.returnCore (guardOf w) (fin (bits w 18 15)))
  | 2 => some (.returnDie (guardOf w) (fin (bits w 18 15)))
  | 3 => some (.returnDev (guardOf w) (fin (bits w 18 15)))
  | 4 => some (.returnSys (guardOf w) (fin (bits w 18 15)))
  | 5 => some (.bstat (guardOf w) (fin (bits w 24 19)) (fin (bits w 18 15)))
  | 6 => some (.bdrop (guardOf w) (fin (bits w 18 15)))
  | _ => none

/-- Major 0x2D (R49). -/
noncomputable def cand2D (w : Nat) : Option Instr :=
  match bits w 31 29 with
  | 0 => some (.fenceAcq (guardOf w) (fin (bits w 28 23)) (fin (bits w 22 17)))
  | 1 => some (.fenceRel (guardOf w) (fin (bits w 28 23)) (fin (bits w 22 17)))
  | 2 => some (.fenceAcqrel (guardOf w) (fin (bits w 28 23)) (fin (bits w 22 17)))
  | 3 => some (.dflush (guardOf w))
  | _ => none

/-- Major 0x2E (R49). -/
noncomputable def cand2E (w : Nat) : Option Instr :=
  match bits w 31 29 with
  | 0 => some (.rcv (guardOf w) (fin (bits w 22 17)))
  | 1 => some (.barSync (guardOf w) (fin (bits w 28 23)) (fin (bits w 22 17)))
  | 2 => some (.barArrive (guardOf w) (fin (bits w 28 23)) (fin (bits w 22 17)))
  | 3 => some (.barWait (guardOf w) (fin (bits w 28 23)) (fin (bits w 22 17)))
  | _ => none

/-- Major 0x2F (R49). -/
noncomputable def cand2F (w : Nat) : Option Instr :=
  match bits w 28 25 with
  | 0 => some (.copy (guardOf w) (fin (bits w 31 29)) (fin (bits w 24 19)) (fin (bits w 18 15)) (fin (bits w 14 11)))
  | 1 => some (.copyShadow (guardOf w) (fin (bits w 31 29)) (fin (bits w 24 19)) (fin (bits w 18 15)) (fin (bits w 14 11)))
  | 2 => some (.publish (guardOf w) (fin (bits w 14 11)))
  | 3 => some (.cpwait (guardOf w) (fin (bits w 24 19)))
  | 4 => some (.cpstat (guardOf w) (fin (bits w 24 19)) (fin (bits w 14 11)))
  | 5 => some (.cpcancel (guardOf w) (fin (bits w 14 11)))
  | _ => none

/-- Major 0x30 (R49). -/
noncomputable def cand30 (w : Nat) : Option Instr :=
  match bits w 31 29 with
  | 0 => some (.mbpost (guardOf w) (fin (bits w 28 23)) (fin (bits w 22 17)))
  | 1 => some (.spawn (guardOf w) (fin (bits w 22 17)) (fin (bits w 16 11)))
  | 2 => some (.hqpost (guardOf w) (fin (bits w 28 23)) (fin (bits w 22 17)))
  | 3 => some (.hqtake (guardOf w) (fin (bits w 22 17)) (fin (bits w 16 11)))
  | 4 => some (.hqpeek (guardOf w) (fin (bits w 22 17)) (fin (bits w 16 11)))
  | _ => none

/-- Major 0x31 (R49). -/
noncomputable def cand31 (w : Nat) : Option Instr :=
  match bits w 31 29 with
  | 0 => some (.sleepUntil (guardOf w) (fin (bits w 22 17)))
  | 1 => some (.yield (guardOf w))
  | _ => none

/-- Major 0x32 (R49). -/
noncomputable def cand32 (w : Nat) : Option Instr :=
  match bits w 28 26 with
  | 0 => some (.dadd (guardOf w) (fin (bits w 19 17)) (fin (bits w 16 14)) (fin (bits w 13 11)))
  | 1 => some (.dsub (guardOf w) (fin (bits w 19 17)) (fin (bits w 16 14)) (fin (bits w 13 11)))
  | 2 => some (.dmul (guardOf w) (fin (bits w 19 17)) (fin (bits w 16 14)) (fin (bits w 13 11)))
  | 3 => some (.ddiv (guardOf w) (fin (bits w 19 17)) (fin (bits w 16 14)) (fin (bits w 13 11)))
  | 4 => some (.dmin (guardOf w) (fin (bits w 19 17)) (fin (bits w 16 14)) (fin (bits w 13 11)))
  | 5 => some (.dmax (guardOf w) (fin (bits w 19 17)) (fin (bits w 16 14)) (fin (bits w 13 11)))
  | 6 => some (.dmix (guardOf w) (fin (bits w 25 20)) (fin (bits w 19 17)) (fin (bits w 16 14)) (fin (bits w 13 11)))
  | _ => none

/-- Major 0x33 (R49). -/
noncomputable def cand33 (w : Nat) : Option Instr :=
  match bits w 28 26 with
  | 0 => some (.dscale (guardOf w) (fin (bits w 25 20)) (fin (bits w 16 14)) (fin (bits w 13 11)))
  | 1 => some (.dshift (guardOf w) (fin (bits w 25 20)) (fin (bits w 16 14)) (fin (bits w 13 11)))
  | 2 => some (.dmap (guardOf w) (fin (bits w 31 29)) (fin (bits w 16 14)) (fin (bits w 13 11)))
  | 3 => some (.dneg (guardOf w) (fin (bits w 16 14)) (fin (bits w 13 11)))
  | 4 => some (.dmov (guardOf w) (fin (bits w 16 14)) (fin (bits w 13 11)))
  | 5 => some (.dcond (guardOf w) (fin (bits w 31 29)) (fin (bits w 25 20)) (fin (bits w 16 14)) (fin (bits w 13 11)))
  | 6 => some (.dtag (guardOf w) (fin (bits w 31 29)) (fin (bits w 25 20)) (fin (bits w 16 14)) (fin (bits w 13 11)))
  | 7 => some (.dnorm (guardOf w) (fin (bits w 16 14)) (fin (bits w 13 11)))
  | _ => none

/-- Major 0x34 (R49). -/
noncomputable def cand34 (w : Nat) : Option Instr :=
  match bits w 28 26 with
  | 0 => some (.dsrc (guardOf w) (fin (bits w 25 20)) (fin (bits w 13 11)))
  | 1 => some (.dpush (guardOf w) (fin (bits w 25 20)) (fin (bits w 13 11)))
  | 2 => some (.dpushw (guardOf w) (fin (bits w 25 20)) (fin (bits w 13 11)))
  | 3 => some (.dld (guardOf w) (fin (bits w 31 29)) (fin (bits w 25 20)) (fin (bits w 19 17)) (fin (bits w 13 11)))
  | 4 => some (.dst (guardOf w) (fin (bits w 31 29)) (fin (bits w 25 20)) (fin (bits w 19 17)) (fin (bits w 13 11)))
  | 5 => some (.dselV (guardOf w) (fin (bits w 31 29)) (fin (bits w 25 20)) (fin (bits w 16 14)))
  | 6 => some (.dselW (guardOf w) (fin (bits w 31 29)) (fin (bits w 25 20)) (fin (bits w 16 14)))
  | 7 => some (.dmass (guardOf w) (fin (bits w 25 20)) (fin (bits w 16 14)))
  | _ => none

/-- Major 0x35 (R49). -/
noncomputable def cand35 (w : Nat) : Option Instr :=
  match bits w 28 26 with
  | 0 => some (.dmom1 (guardOf w) (fin (bits w 25 20)) (fin (bits w 16 14)))
  | 1 => some (.dmom2c (guardOf w) (fin (bits w 25 20)) (fin (bits w 16 14)))
  | 2 => some (.dmom3c (guardOf w) (fin (bits w 25 20)) (fin (bits w 16 14)))
  | 3 => some (.dmom4c (guardOf w) (fin (bits w 25 20)) (fin (bits w 16 14)))
  | 4 => some (.dqnt (guardOf w) (fin (bits w 25 20)) (fin (bits w 16 14)))
  | 5 => some (.dcdf (guardOf w) (fin (bits w 25 20)) (fin (bits w 16 14)))
  | 6 => some (.dlo (guardOf w) (fin (bits w 25 20)) (fin (bits w 16 14)))
  | 7 => some (.dhi (guardOf w) (fin (bits w 25 20)) (fin (bits w 16 14)))
  | _ => none

/-- Major 0x36 (R49). -/
noncomputable def cand36 (w : Nat) : Option Instr := some (.bra (guardOf w) (fin (bits w 31 11)))

/-- Major 0x37 (R49). -/
noncomputable def cand37 (w : Nat) : Option Instr := some (.call (guardOf w) (fin (bits w 31 11)))

/-- Major 0x38 (R49). -/
noncomputable def cand38 (w : Nat) : Option Instr :=
  match bits w 31 29 with
  | 0 => some (.jmp (guardOf w) (fin (bits w 22 17)))
  | 1 => some (.ret (guardOf w) (fin (bits w 22 17)))
  | 2 => some (.exit (guardOf w))
  | 3 => some (.rgn (guardOf w))
  | 4 => some (.brk (guardOf w) (fin (bits w 28 23)))
  | 5 => some (.trap (guardOf w) (fin (bits w 28 23)))
  | 6 => some (.nop (guardOf w))
  | 7 => some (.halt (guardOf w))
  | _ => none

/-- Major 0x39 (R49). -/
noncomputable def cand39 (w : Nat) : Option Instr := some (.park (guardOf w) (fin (bits w 31 11)))

/-- Major 0x3A (R49). -/
noncomputable def cand3A (w : Nat) : Option Instr :=
  match bits w 31 29 with
  | 0 => some (.tset (guardOf w) (fin (bits w 28 23)) (fin (bits w 22 17)))
  | 1 => some (.tget (guardOf w) (fin (bits w 22 17)) (fin (bits w 16 11)))
  | 2 => some (.tbind (guardOf w) (fin (bits w 28 23)) (fin (bits w 22 17)))
  | 3 => some (.tdrop (guardOf w) (fin (bits w 22 17)))
  | 4 => some (.tchk (guardOf w) (fin (bits w 22 17)) (fin (bits w 16 11)))
  | _ => none

/-- Major 0x3B (R49). -/
noncomputable def cand3B (w : Nat) : Option Instr :=
  match bits w 31 29 with
  | 0 => some (.lbrw (guardOf w) (fin (bits w 22 17)) (fin (bits w 16 11)))
  | 1 => some (.lpref (guardOf w) (fin (bits w 22 17)))
  | 2 => some (.lstat (guardOf w) (fin (bits w 22 17)) (fin (bits w 16 11)))
  | 3 => some (.lret (guardOf w) (fin (bits w 28 23)) (fin (bits w 22 17)))
  | 4 => some (.lretry (guardOf w) (fin (bits w 22 17)) (fin (bits w 16 11)))
  | 5 => some (.lpin (guardOf w) (fin (bits w 22 17)))
  | 6 => some (.lunpin (guardOf w) (fin (bits w 22 17)))
  | _ => none

/-- Major 0x3C (R49). -/
noncomputable def cand3C (w : Nat) : Option Instr :=
  match bits w 31 29 with
  | 0 => some (.mcfg (guardOf w) (fin (bits w 28 23)) (fin (bits w 22 17)))
  | 1 => some (.mcommit (guardOf w))
  | 2 => some (.mma (guardOf w) (fin (bits w 28 23)) (fin (bits w 22 17)))
  | 3 => some (.mzero (guardOf w) (fin (bits w 22 17)))
  | 4 => some (.mfeed (guardOf w) (fin (bits w 22 17)))
  | 5 => some (.mdrain (guardOf w) (fin (bits w 22 17)))
  | 6 => some (.mwait (guardOf w) (fin (bits w 22 17)))
  | 7 => some (.mchain (guardOf w) (fin (bits w 22 17)))
  | _ => none

/-- Major 0x3D (R49). -/
noncomputable def cand3D (w : Nat) : Option Instr :=
  match bits w 31 29 with
  | 0 => some (.mfsr (guardOf w) (fin (bits w 28 17)) (fin (bits w 16 11)))
  | 1 => some (.mtsr (guardOf w) (fin (bits w 28 17)) (fin (bits w 16 11)))
  | 2 => some (.tret (guardOf w))
  | 3 => some (.tretSkip (guardOf w))
  | 4 => some (.haltCtx (guardOf w))
  | 5 => some (.ecall (guardOf w) (fin (bits w 28 17)) (fin (bits w 16 11)))
  | 6 => some (.dbgmark (guardOf w) (fin (bits w 28 17)) (fin (bits w 16 11)))
  | _ => none

/-- Major 0x3E (R49). -/
noncomputable def cand3E (w : Nat) : Option Instr :=
  match bits w 31 29 with
  | 0 => some (.tlbi (guardOf w) (fin (bits w 28 23)) (fin (bits w 22 17)))
  | 1 => some (.l2wb (guardOf w) (fin (bits w 28 23)) (fin (bits w 22 17)) (fin (bits w 16 11)))
  | 2 => some (.l2cfg (guardOf w) (fin (bits w 28 23)) (fin (bits w 22 17)))
  | 3 => some (.owalk (guardOf w) (fin (bits w 28 23)) (fin (bits w 22 17)) (fin (bits w 16 11)))
  | 4 => some (.bias (guardOf w) (fin (bits w 28 23)) (fin (bits w 22 17)))
  | 5 => some (.migr (guardOf w) (fin (bits w 28 23)) (fin (bits w 22 17)))
  | 6 => some (.invl1 (guardOf w) (fin (bits w 28 23)) (fin (bits w 22 17)))
  | 7 => some (.pcnt (guardOf w) (fin (bits w 28 23)) (fin (bits w 22 17)) (fin (bits w 16 11)))
  | _ => none

/-- The row of the opcode map that a 32-bit word's major and minor select (R49). -/
noncomputable def candidate (w : Nat) : Option Instr :=
  match bits w 6 1 with
  | 0 => cand00 w
  | 1 => cand01 w
  | 2 => cand02 w
  | 3 => cand03 w
  | 4 => cand04 w
  | 5 => cand05 w
  | 6 => cand06 w
  | 7 => cand07 w
  | 8 => cand08 w
  | 9 => cand09 w
  | 10 => cand0A w
  | 11 => cand0B w
  | 12 => cand0C w
  | 13 => cand0D w
  | 14 => cand0E w
  | 15 => cand0F w
  | 16 => cand10 w
  | 17 => cand11 w
  | 18 => cand12 w
  | 19 => cand13 w
  | 20 => cand14 w
  | 24 => cand18 w
  | 25 => cand19 w
  | 26 => cand1A w
  | 27 => cand1B w
  | 28 => cand1C w
  | 29 => cand1D w
  | 30 => cand1E w
  | 32 => cand20 w
  | 33 => cand21 w
  | 34 => cand22 w
  | 35 => cand23 w
  | 36 => cand24 w
  | 37 => cand25 w
  | 38 => cand26 w
  | 39 => cand27 w
  | 40 => cand28 w
  | 41 => cand29 w
  | 42 => cand2A w
  | 43 => cand2B w
  | 44 => cand2C w
  | 45 => cand2D w
  | 46 => cand2E w
  | 47 => cand2F w
  | 48 => cand30 w
  | 49 => cand31 w
  | 50 => cand32 w
  | 51 => cand33 w
  | 52 => cand34 w
  | 53 => cand35 w
  | 54 => cand36 w
  | 55 => cand37 w
  | 56 => cand38 w
  | 57 => cand39 w
  | 58 => cand3A w
  | 59 => cand3B w
  | 60 => cand3C w
  | 61 => cand3D w
  | 62 => cand3E w
  | _ => none

/-- The row that a halfword's op selects (R40). -/
noncomputable def candidate16 (w : Nat) : Option Instr :=
  match bits w 4 1 with
  | 0 => some (.add16 (fin (bits w 14 10)) (fin (bits w 9 5)))
  | 1 => some (.sub16 (fin (bits w 14 10)) (fin (bits w 9 5)))
  | 2 => some (.and16 (fin (bits w 14 10)) (fin (bits w 9 5)))
  | 3 => some (.or16 (fin (bits w 14 10)) (fin (bits w 9 5)))
  | 4 => some (.xor16 (fin (bits w 14 10)) (fin (bits w 9 5)))
  | 5 => some (.shl16 (fin (bits w 14 10)) (fin (bits w 9 5)))
  | 6 => some (.shr16 (fin (bits w 14 10)) (fin (bits w 9 5)))
  | 7 => some (.sar16 (fin (bits w 14 10)) (fin (bits w 9 5)))
  | 8 => some (.mov16 (fin (bits w 14 10)) (fin (bits w 9 5)))
  | 9 => some (.movi5 (fin (bits w 14 10)) (fin (bits w 9 5)))
  | 10 => some (.fadd16 (fin (bits w 14 10)) (fin (bits w 9 5)))
  | 11 => some (.fsub16 (fin (bits w 14 10)) (fin (bits w 9 5)))
  | 12 => some (.fmul16 (fin (bits w 14 10)) (fin (bits w 9 5)))
  | 13 => some (.fmin16 (fin (bits w 14 10)) (fin (bits w 9 5)))
  | 14 => some (.fmax16 (fin (bits w 14 10)) (fin (bits w 9 5)))
  | 15 => some (.addi5 (fin (bits w 14 10)) (fin (bits w 9 5)))
  | _ => none

/-- The reserved majors (R49, R59). -/
def reservedMajor (m : Nat) : Bool := [0x15, 0x16, 0x17, 0x1F, 0x3F].contains m

/-- A candidate, if it is well formed and encodes to the word that was read. -/
def accept (len w : Nat) (c : Option Instr) : Except DecodeError Instr :=
  match c with
  | some i => if i.wf && i.encoding == some (len, w) then .ok i else .error .unlisted
  | none => .error .unlisted

/-- A halfword with bit 0 clear (R40, R41). -/
noncomputable def decodeHalf (w : Nat) : Except DecodeError Instr :=
  if w = 0 ∨ bits w 15 15 = 1 then .error .badHalfword else accept 2 w (candidate16 w)

/-- A 32-bit word (R44, R59). -/
noncomputable def decodeWord (w : Nat) : Except DecodeError Instr :=
  if bits w 10 7 = 8 then .ok (.guardNop (fin (bits w 31 11)) (fin (bits w 6 1)))
  else if reservedMajor (bits w 6 1) then .error .reservedMajor
  else accept 4 w (candidate w)

/-- The length in bytes that the first halfword gives (R39). -/
def wordLength (half : Nat) : Nat := if half % 2 = 0 then 2 else 4

/-- The instruction at the head of a list of bytes, and its length in bytes (R39). -/
noncomputable def decode : List Byte → Except DecodeError (Instr × Nat)
  | b0 :: b1 :: rest =>
    let half := leValue [b0, b1]
    if wordLength half = 2 then (decodeHalf half).map (·, 2)
    else
      match rest with
      | b2 :: b3 :: _ => (decodeWord (leValue [b0, b1, b2, b3])).map (·, 4)
      | _ => .error .truncated
  | _ => .error .truncated

/-- The longest instruction in bytes. -/
def maxInstrBytes : Nat := 4

/-- The bytes of an instruction whose bits are `w`, as the hardware stores them: little-endian, with zeros above
`nbits` (R9, R39). -/
def tableBytes (nbits w : Nat) : List Byte := leBytes maxInstrBytes (w % 2 ^ nbits)

/-- The instruction that the decoder reads from the bits `w` of an opcode-table row of `nbits` bits. -/
noncomputable def decodeTableWord (nbits w : Nat) : Option Instr :=
  match decode (tableBytes nbits w) with
  | .ok (i, _) => some i
  | .error _ => none

end Sys2Proof
end

