-- ==== Sys2Proof/Machine/Issue.lean ====
section
/-! DEFINITION. Fetch, readiness and the choice of what issues in a cycle (R39, R69 to R74, R84, R276, R313). -/

namespace Sys2Proof.Machine

/-! ## Fetch (R39, R71) -/

/-- The asker of a fetch: a gang's fetch starts at the core TLB, a stream's at the last-page register of its one lane (R395). -/
def Engine.fetchAsker (e : Engine) : Asker := if e.isSeq then e.asker 0 else { e.asker 0 with last := none }

/-- Where a fetch of an address stands. -/
inductive FetchPart
  | byte (loc : Nat)
  | xlat (added : Nat)
deriving DecidableEq, Repr

/-- The translation of one fetched halfword: at hand where it adds no more cycles than `free`. -/
def State.fetchLoc (s : State) (e : Engine) (free va : Nat) : FetchPart :=
  match resolve s e.fetchAsker none .fetch va with
  | .at_ l n _ => if n ≤ free then .byte l else .xlat n
  | .fault _ _ _ n | .ats _ n => .xlat n
  | _ => .xlat 0

/-- Whether a line is in an engine's instruction cache. -/
def State.fetched (s : State) (e : Engine) (line : Nat) : Bool := s.mem.icache.contains (e.l1, line)

/-- What a fetch at a program counter finds. -/
inductive Fetch
  | never
  | words (bytes : List Byte)
  | line (line : Nat)
  | xlat (va added : Nat)
deriving DecidableEq, Repr

/-- The words at a program counter: one halfword, and a second where the first has bit 0 set (R39). A stream has one last-page
register, so the second halfword of a word across two pages may come through the cluster TLB. -/
def State.fetch (s : State) (e : Engine) (pc : Word) : Fetch :=
  let half := fun (free va : Nat) => match s.fetchLoc e free va with
    | .xlat n => Fetch.xlat va n
    | .byte l => if s.fetched e (lineOf l) then .words (s.readHomeBytes l 2) else .line (lineOf l)
  if pc.getLsbD 0 then .never
  else match half 0 pc.toNat with
  | .words b0 =>
    if leValue b0 % 2 = 0 then .words b0
    else match half (if e.isSeq then 8 else 0) ((pc + 2).toNat) with
      | .never => .never
      | .words b1 => .words (b0 ++ b1)
      | .line l => .line l
      | .xlat va n => .xlat va n
  | f => f

/-- A line on its way to an instruction cache, after the L2 latency (R71, R77). -/
def State.fetchLine (s : State) (e : Engine) (line : Nat) : State :=
  if s.mem.icachePending.any fun p => p.1 == e.l1 && p.2.1 == line then s
  else
    let lat := s.loadLatency e 0 0 0x1 0 (line * 128)
    { s with mem := { s.mem with icachePending := s.mem.icachePending ++ [(e.l1, line, s.clock.cyc + lat)] } }

/-- A fetch translation that an engine waits for, one at a time for each address. -/
def State.fetchXlat (s : State) (eng : Nat) (pc : Word) (va added : Nat) : State :=
  if s.xlat.pending.any fun p => p.eng == eng && p.work == .fetch && p.pc == pc then s
  else
    let (id, s) := s.fresh
    { s with xlat := { s.xlat with pending := s.xlat.pending ++
      [{ id, eng, pc, insn := 0, len := 4, work := .fetch, obj := 0, version := 0, parts := [(0, va)],
         due := some (s.clock.cyc + added) }] } }

/-! ## The scoreboard (R73, R74) -/

/-- The scoreboard keys that an instruction reads or writes: its guard's predicate, unless that is p0, and its operands. -/
def Info.named (f : Info) : List SbKey :=
  (if f.guard.p = 0 then [] else [SbKey.reg .p f.guard.p]) ++ f.refs.flatMap fun r => (List.range r.len).map fun k => SbKey.reg r.cls (r.num + k)

/-- Whether a scoreboard entry blocks an instruction that its guard lets some lanes execute: a register it names, or writes besides
(`more`); the fx entry by R73; a system register that it reads or writes, where an instruction that may raise flags reads FPM and
TMODE; an entry that holds later memory accesses of these lanes. -/
def SbEntry.blocks (f : Info) (more : List SbKey) (live : Dword) (x : SbEntry) : Bool :=
  match x.key with
  | .reg _ _ => f.named.contains x.key || more.contains x.key
  | .fxRaise => f.fx == .reads || f.fx == .edits
  | .fxEdit => f.fx != .unused
  | .sys n => f.sysReads.contains n || f.sysWrites.contains n || (f.fx == .raises && decide (n ≤ 1))
  | .mem lanes => f.mem && lanes &&& live != 0
  | .load _ => false
  | .fence _ => false

/-- Whether a scoreboard entry of an engine blocks an instruction at a program counter; the entries of the instruction's
own open instance do not. -/
def Engine.blocked (e : Engine) (f : Info) (more : List SbKey) (pc : Word) (live : Dword) : Bool :=
  e.sb.any fun x => x.blocks f more live &&
    !(e.open_.any fun o => o.pc == pc && o.tag == x.tag && x.due.isNone)

/-! ## Lent register windows (R159, R276) -/

/-- The words of a register window that other engines hold exclusive, as ranges of the on-chip map. -/
def State.lentRanges (s : State) (eng : Nat) (e : Engine) : List (Nat × Nat) :=
  s.work.engines.flatMap fun kv =>
    if kv.1 = eng then []
    else ((Store.vals kv.2.regions).filter fun (r : Region) =>
        r.kind == .exclusive && spaceOf r.base == 0x2 && r.base / 2 ^ 32 % 2 ^ 10 == e.place.clusterId * 16 + e.place.core
          && r.base / 2 ^ 28 % 16 == 0).map fun r => (r.base % 2 ^ 28, r.extent)

/-- Whether a g register of an engine's window lies in a lent part. -/
def Engine.lent (e : Engine) (ranges : List (Nat × Nat)) (reg : Nat) : Bool :=
  (List.range 4).any fun g => e.place.groups.testBit g && (List.range 16).any fun k =>
    let at_ := ((g * 16 + k) * 2048 + e.place.window + reg) * 4
    ranges.any fun r => decide (r.1 < at_ + 4) && decide (at_ < r.1 + r.2)

/-- Whether an instruction names a lent register. -/
def State.lentBlocks (s : State) (eng : Nat) (e : Engine) (f : Info) : Bool :=
  if e.isSeq then false
  else
    let rs := s.lentRanges eng e
    !rs.isEmpty && f.refs.any fun r => match r.cls with
      | .g => (List.range r.len).any fun k => e.lent rs (r.num + k)
      | .d => (List.range (17 * r.len)).any fun k => e.lent rs (e.nregs + 17 * r.num + k)
      | _ => false

/-! ## Selection (R69 to R72) -/

/-- Whether an engine may issue at all in this cycle: it is alive and awake, no trap waits for its handler entry, it has
not yielded, no instruction still holds its issue slot, and its context is running (R69, R79, R167, R320, R374). -/
def State.mayIssue (s : State) (eng : Nat) (e : Engine) : Bool :=
  !e.ended && !e.asleep && !s.trapQueued eng && e.yieldFrom.isNone && decide (e.slotUntil ≤ s.clock.cyc) && (s.context e.ctx).state == .active

/-- The program counters of an engine's ready lanes with their lanes. -/
def Engine.groupsByPc (e : Engine) : List (Word × Dword) :=
  let ready := e.lanes.filter fun kl => kl.2.readyToIssue
  let pcs := (ready.map fun kl => kl.2.pc).dedup
  pcs.map fun pc => (pc, listMask ((ready.filter fun kl => kl.2.pc == pc).map Prod.fst))

/-- Whether one group is taken before another: more lanes, then the lower address (R70). -/
def groupBefore (a b : Word × Dword) : Bool :=
  decide (maskCount b.2 64 < maskCount a.2 64) || (maskCount a.2 64 == maskCount b.2 64 && decide (a.1.toNat ≤ b.1.toNat))

/-- The two most populous program counters, the lower address first (R70, R72). -/
def Engine.selected (e : Engine) : List (Word × Dword) :=
  sortBy (fun a b => decide (a.1.toNat ≤ b.1.toNat)) ((sortBy groupBefore e.groupsByPc).take (if e.isSeq then 1 else 2))

/-! ## The instruction of an issue -/

/-- The instruction at an issue's words, and its length. -/
noncomputable def Issue.instr (i : Issue) : Option Instr :=
  match decode (leBytes i.len i.insn.toNat) with
  | .ok (x, _) => some x
  | .error _ => none

/-- An issue whose words no decoding accepts: ILLEGAL in every lane that stands there (R59, R60). -/
def State.illegalIssue (s : State) (i : Issue) : Out :=
  match s.engine i.eng with
  | none => .next s
  | some e => .next (s.trap i .illegal (e.standing i.lanes) 0 0)

end Sys2Proof.Machine
end

