-- ==== Sys2Proof/Machine/Ending.lean ====
section
/-! DEFINITION. How threads, gangs, blocks and streams end, the continuation pool's bins, and the stops of a debugger (R118,
R234 to R237, R242, R262, R350 to R356, R433 to R436). -/

namespace Sys2Proof.Machine

/-! ## Blocks (R242, R352, R356) -/

/-- Save slots with the one of a party freed; a slot that a party holds lists the party's number plus 1. -/
def freeSlot (l : List Nat) (party : Nat) : List Nat := l.map fun x => if x = party + 1 then 0 else x

/-- The lowest free save slot of a count. -/
def lowestSlot (l : List Nat) (count : Nat) : Option Nat := (List.range count).find? fun k => l.getD k 0 == 0

/-- Save slots with one taken by a party. -/
def takeSlot (l : List Nat) (k party : Nat) : List Nat := (l ++ List.replicate (k + 1 - l.length) 0).set k (party + 1)

/-- The bit of a block in its launch's completion bitmap, set by a far OR at the home (R352). -/
def State.markComplete (s : State) (l : Launch) (index : Nat) : State :=
  if l.cbmap = 0 then s
  else s.updateSignal l.ctx (l.cbmap + 8 * (index / 64)) fun m => m ||| ((1 : Dword) <<< (index % 64))

/-- A bind record one of whose blocks has ended; after its last block it is done (R356). -/
def BindRecord.blockEnded (r : BindRecord) : BindRecord :=
  { r with ended := r.ended + 1, state := if r.ended + 1 = r.count then 3 else r.state }

/-- A block whose threads have all exited is complete: its bit in the bitmap, its launch's list; it may be resident still (R242, R262,
R352). -/
def State.blockCheck (s : State) (key : Nat) : State :=
  match s.work.blocks.find? key with
  | none => s
  | some b =>
    if b.exited == b.threads && !b.ended then
      let s := { s with
        work := { s.work with blocks := if b.resident then s.work.blocks.put key { b with ended := true } else s.work.blocks.erase key }
        launch := { s.launch with passPending := true } }
      match s.launchOf b.launch with
      | none => s
      | some l =>
        let s := (s.markComplete l b.index).setLaunch b.launch { l with complete := l.complete ++ [b.index] }
        (List.range l.cohorts.length).foldl (fun s c =>
          (s.work.engines.filter fun kv => kv.2.launch == b.launch).foldl (fun s kv => s.barrierCheck kv.2 (some c)) s) s
    else s

/-- A thread of a block has exited, wherever it ran (R242). -/
def State.threadExits (s : State) (launch index : Nat) : State :=
  match s.work.blocks.firstWhere fun _ b => b.launch == launch && b.index == index with
  | none => s
  | some (k, b) =>
    ({ s with work := { s.work with blocks := s.work.blocks.put k { b with exited := b.exited + 1 } } }).blockCheck k

/-- A block whose last own gang has ended is resident no more: its slot, its save slot and its scratchpad are free
(R242, R356). -/
def State.residencyCheck (s : State) (key : Nat) : State :=
  match s.work.blocks.find? key with
  | none => s
  | some b =>
    let gone := b.gangs.all fun g => ((s.engine g).map fun e => e.ended && !e.broken).getD true
    if b.resident && gone then
      let ctx := ((s.launchOf b.launch).map Launch.ctx).getD 0
      let s := s.modContext ctx fun c => { c with blockSlots := freeSlot c.blockSlots key }
      let s := { s with
        work := { s.work with blocks := if b.ended then s.work.blocks.erase key else s.work.blocks.put key { b with resident := false } }
        launch := { s.launch with
          binds := s.launch.binds.modify b.record BindRecord.blockEnded
          passPending := true } }
      s
    else s

/-! ## Gangs and streams (R118, R192, R262) -/

/-- Whether a part of an engine's register window is lent (R276). -/
def State.windowLent (s : State) (eng : Nat) (e : Engine) : Bool :=
  let rs := s.lentRanges eng e
  !rs.isEmpty && !e.isSeq && (List.range (footprint e.nregs e.ndist)).any (e.lent rs)

/-- Whether a spawn of an engine has yet to write its seal (R339). -/
def State.spawning (s : State) (eng : Nat) : Bool :=
  s.work.waits.any fun w => w.eng == eng && (match w.kind with
    | .spawn _ _ => true
    | _ => false)

/-- The cohorts that a launch has. -/
def State.cohortCount (s : State) (launch : Nat) : Nat := ((s.launchOf launch).map fun l => l.cohorts.length).getD 0

/-- GANG_END: an engine with no live lane returns its borrows in descending register order, and ends when no child is held
elsewhere and no part of its window is lent (R118, R262). -/
def State.endEngine (s : State) (eng : Nat) : State :=
  match s.engine eng with
  | none => s
  | some e =>
    if e.ended || e.lanes.any (fun kl => kl.2.live) then s
    else
      let s := s.returnAll eng e.leftAt.1 e.leftAt.2 16
      match s.engine eng with
      | none => s
      | some e =>
        if s.windowLent eng e || (Store.vals e.regions).any (fun r => r.kind != .none) then s
        else
          let s := s.setEngine eng { e with ended := true }
          let s := s.modContext e.ctx fun c =>
            if e.isSeq then { c with seqSlots := freeSlot c.seqSlots eng }
            else { c with gangSlots := freeSlot c.gangSlots eng }
          let s := { s with launch := { s.launch with passPending := s.launch.passPending || e.isSeq } }
          let s := s.modLaunch e.launch fun l => { l with streams := l.streams.filter (· != eng) }
          let s := s.barrierCheck e none
          let s := (List.range (s.cohortCount e.launch)).foldl (fun s c => s.barrierCheck e (some c)) s
          match e.block with
          | some b => s.residencyCheck b
          | none => s

/-- The gangs whose end waits for a child or a lent window, looked at again (R262). -/
def State.settleEnds (s : State) : State :=
  (s.work.engines.filter fun kv => !kv.2.ended && kv.2.lanes.all fun kl => !kl.2.live).foldl
    (fun s kv => s.endEngine kv.1) s

/-- Lanes leave their gang: they count as absent for what waits on them, and the gang ends with its last (R118). -/
def State.lanesLeave (s : State) (eng : Nat) (lanes : Dword) (status : LaneStatus) : State :=
  let s := s.modEngine eng fun e =>
    { e.mapLanes lanes fun _ l => { l with status } with leftAt := ((e.low lanes).pc, lanes) }
  (s.checkInstances eng).endEngine eng

/-! ## The continuation pool (R234 to R237) -/

/-- A cluster's pool. -/
def State.pool (s : State) (cluster : Nat) : Pool := Store.get ⟨[], []⟩ s.work.pools cluster

def State.setPool (s : State) (cluster : Nat) (p : Pool) : State :=
  { s with work := { s.work with pools := s.work.pools.put cluster p } }

/-- The bin that a launch and a program counter claim, or the lowest free one (R234). -/
def Pool.binFor (p : Pool) (launch : Nat) (pc : Word) : Option Nat :=
  match p.bins.firstWhere fun _ b => b.launch == launch && b.pc == pc with
  | some (k, _) => some k
  | none => (List.range 64).find? fun k => (p.bins.find? k).isNone

/-- A pool with a gang of its oldest `n` records taken from a bin; an empty bin is free. -/
def Pool.take (p : Pool) (bin n : Nat) : Pool :=
  match p.bins.find? bin with
  | none => p
  | some b =>
    let rest := b.records.drop n
    { bins := if rest.isEmpty then p.bins.erase bin else p.bins.put bin { b with records := rest }
      formed := p.formed ++ [{ bin, launch := b.launch, pc := b.pc, records := b.records.take n, hosted := none }] }

/-- The gang width of a launch's kernel. -/
def State.widthOf (s : State) (launch : Nat) : Nat := ((s.launchOf launch).map fun l => l.kernel.gangw).getD 16

/-- Whether the context of a launch runs. -/
def State.launchActive (s : State) (launch : Nat) : Bool :=
  match s.launchOf launch with
  | some l => (s.context l.ctx).state == .active
  | none => false

/-- Whether a gang formed from the records of a bin's launch and program counter still waits for a core (R238). -/
def Pool.formedWaits (p : Pool) (b : Bin) : Bool := p.formed.any fun f => f.launch == b.launch && f.pc == b.pc && f.hosted.isNone

/-- A bin with W records or more forms a full gang, unless a gang formed from it still waits for a core (R237, R238). -/
def State.formFull (s : State) (cluster bin : Nat) : State :=
  let p := s.pool cluster
  match p.bins.find? bin with
  | none => s
  | some b =>
    let w := s.widthOf b.launch
    if w ≤ b.records.length ∧ s.launchActive b.launch ∧ p.formedWaits b = false then
      s.setPool cluster (p.take bin w)
    else s

/-- The registers that a `.park` list names, in its order (R235, R344): g words and d images. -/
def parkRegs (park : List Nat) : List Nat := park.filter fun x => x < 128
def parkDists (park : List Nat) : List Nat := (park.filter fun x => 128 ≤ x).map (· % 64)

/-- The lowest record numbers that a pool does not use. -/
def Pool.freeNumbers (p : Pool) (n : Nat) : List Nat :=
  let used := p.records.map PoolRecord.number
  ((List.range (used.length + n)).filter fun k => !used.contains k).take n

/-- The record of a parking lane (R235). -/
def Lane.record (l : Lane) (park : List Nat) (number : Nat) (pc : Word) (cyc : Nat) : PoolRecord :=
  { number, launch := l.launch, block := l.block, thread := l.thread, pc, preds := l.preds, fx := l.fx, arrive := cyc
    regs := (parkRegs park).map l.reg, dists := (parkDists park).map l.dist }

/-! ## Stops (R433 to R436) -/

/-- The instruction word at an address of a context; 0 where it cannot be read. -/
def State.insnAt (s : State) (ctx pc : Nat) : Word :=
  let v := ((s.readVa ctx pc 4).map leValue).getD 0
  BitVec.ofNat 32 (if v % 2 = 0 then v % 2 ^ 16 else v)

/-- One stop frame: kept with the 64 most recent of the context, traced and noticed (R435). -/
def State.stopFrame (s : State) (eng : Nat) (e : Engine) (cause : Cause) (lanes : Dword) (pc : Word) (detail : Nat) : State :=
  let t : TrapReq :=
    { eng, cause, lanes, pc, insn := s.insnAt e.ctx pc.toNat, faddr := 0, detail }
  let f := e.frame t (e.frameFlags e.inHandler false false)
  let s := s.modContext e.ctx fun c => { c with stops := (c.stops ++ [f]).drop (c.stops.length - 63) }
  (s.trace e.ctx 3 f).notify (padTo 32 (Config.notice 2 eng pc.toNat))

/-- Lanes of an engine stop, with one frame for each program counter at which they stand (R433, R435). -/
def State.stopLanes (s : State) (eng : Nat) (lanes : Dword) (cause : Cause) (detail : Nat) : State :=
  match s.engine eng with
  | none => s
  | some e =>
    let here := (e.lanesOf lanes).filter fun kl => kl.2.live && !kl.2.stopped
    let pcs := sortBy (fun (a b : Word) => decide (a.toNat ≤ b.toNat)) (here.map fun kl => kl.2.pc).dedup
    let s := s.setEngine eng (e.mapLanes (listMask (here.map Prod.fst)) fun _ l => { l with stopped := true })
    pcs.foldl (fun s pc =>
      s.stopFrame eng e cause (listMask ((here.filter fun kl => kl.2.pc == pc).map Prod.fst)) pc detail) s

/-- A halt that reaches an engine: it pends inside a handler, and otherwise stops every lane (R433). -/
def State.haltEngine (s : State) (eng : Nat) : State :=
  match s.engine eng with
  | none => s
  | some e =>
    if e.inHandler then s.setEngine eng { e with haltPend := true }
    else s.stopLanes eng (e.lanesWhere fun _ l => l.live) .halt 0

/-- A halt that pended in a handler lands when the handler is left (R321, R433). -/
def State.pendingHalt (s : State) (eng : Nat) : State :=
  match s.engine eng with
  | none => s
  | some e => if e.haltPend && !e.inHandler then (s.setEngine eng { e with haltPend := false }).haltEngine eng else s

/-- Every engine of a context halted. -/
def State.haltContext (s : State) (ctx : Nat) : State :=
  (s.work.engines.filter fun kv => kv.2.ctx == ctx && !kv.2.ended).foldl (fun s kv => s.haltEngine kv.1) s

end Sys2Proof.Machine
end

