-- ==== Sys2Proof/Machine/Control.lean ====
section
/-! DEFINITION. Control transfer, exit, park, region entry, breakpoints and the debugger's halt (R115 to R120, R311, R433). -/

namespace Sys2Proof.Machine

/-- The target of a branch: its address plus twice the signed offset (R46, R115). -/
def Issue.target (i : Issue) (o : Nat) : Word := i.pc + BitVec.ofInt 32 (2 * (BitVec.ofNat 21 o).toInt)

/-- Live lanes go to a program counter of their own; the others continue at the next instruction (R115). -/
def Engine.jump (e : Engine) (i : Issue) (live : Dword) (f : Lane → Word) : Engine :=
  (e.advance i).mapLanes live fun _ l => { l with pc := f l }

/-- An instruction that has no effect but to go on. -/
def noEffect (f : Info) (s : State) : Out := gated f s fun i e _ => .next (s.setEngine i.eng (e.advance i))

/-- GUARD_NOP: a word whose guard is `!p0` has no effect (R44). -/
def execGuardNop (z : Fin 2097152) (m : Fin 64) (s : State) : Out := noEffect (infoGuardNop z m) s

/-- NOP (R117). -/
def execNop (g : Guard) (s : State) : Out := noEffect (infoNop g) s

/-- BRA: the live lanes go to the target (R115). -/
def execBra (g : Guard) (o : Fin 2097152) (s : State) : Out :=
  gated (infoBra g o) s fun i e live => .next (s.setEngine i.eng (e.jump i live fun _ => i.target o))

/-- CALL: g63 := the address after the call, and the live lanes go to the target (R116). -/
def execCall (g : Guard) (o : Fin 2097152) (s : State) : Out :=
  gated (infoCall g o) s fun i e live =>
    let e' := e.mapLanes live fun _ l => l.setReg 63 (i.pc + 4)
    .next (s.setEngine i.eng ((e'.retire (infoCall g o) i live s.clock.cyc).mapLanes live fun _ l => { l with pc := i.target o }))

/-- A jump to the address in a register: a target with bit 0 set raises ALIGN (R117, R39).  DESIGN CHOICE (log entry 45): where the targets
of only some live lanes are odd, every live lane stops, and FADDR is the lowest such lane's target. -/
def jumpReg (f : Info) (s : State) (a : Nat) : Out :=
  gated f s fun i e live =>
    match (e.lanesOf live).find? fun kl => (kl.2.reg a).getLsbD 0 with
    | some kl => .next (s.trap i .align live (kl.2.reg a).toNat 0)
    | none => .next (s.setEngine i.eng (e.jump i live fun l => l.reg a))

/-- JMP (R117). -/
def execJmp (g : Guard) (a : Fin 64) (s : State) : Out := jumpReg (infoJmp g a) s a

/-- RET: as JMP (R117). -/
def execRet (g : Guard) (a : Fin 64) (s : State) : Out := jumpReg (infoRet g a) s a

/-- Threads of lanes that have exited, counted in their blocks (R242). -/
def State.countExits (s : State) (ls : List (Nat × Lane)) : State :=
  ls.foldl (fun s kl => s.threadExits kl.2.launch kl.2.block) s

/-- EXIT: the gang's stores commit and the live lanes end; with its last lane the gang or stream ends (R118, R192). -/
def execExit (g : Guard) (s : State) : Out :=
  gang (infoExit g) s fun i e live =>
    let s := (s.commitIssue i).lanesLeave i.eng live .exited
    .next (if e.isSeq then s else s.countExits (e.lanesOf live))

/-- RGN: the stores commit, and the `rgn` itself is the restart point of its lanes (R311). -/
def execRgn (g : Guard) (s : State) : Out :=
  gang (infoRgn g) s fun i _ live =>
    .next ((s.commitIssue i).modEngine i.eng fun e => e.mapLanes live fun _ l =>
      { l with pc := i.next, restart := i.pc, issued := false })

/-- BRK: stops its lanes while the context is attached, and raises BKPT with the code otherwise (R119, R432, R433). -/
def execBrk (g : Guard) (b : Fin 64) (s : State) : Out :=
  gang (infoBrk g b) s fun i e live =>
    if (s.context e.ctx).attached then .next ((s.passAway i).stopLanes i.eng live .bkpt b)
    else .next (s.trap i .bkpt live 0 b)

/-- TRAP: TRAPI with the code (R119). -/
def execTrap (g : Guard) (b : Fin 64) (s : State) : Out :=
  gang (infoTrap g b) s fun i _ live => .next (s.trap i .trapi live 0 b)

/-- HALT: its lanes stand after it, and the gang stops (R117, R433). -/
def execHalt (g : Guard) (s : State) : Out :=
  gang (infoHalt g) s fun i e _ => .next ((s.setEngine i.eng (e.advance i)).haltEngine i.eng)

/-- The pool of an engine's cluster after lanes have parked at a label, or none where it has no room for them (R234). -/
def State.parkInto (s : State) (e : Engine) (park : List Nat) (live : Dword) (pc : Word) : Option (State × Nat) :=
  let p := s.pool e.place.clusterId
  let ls := e.lanesOf live
  if 16384 < p.records.length + ls.length then none
  else
    (p.binFor e.launch pc).map fun bin =>
      let recs := (ls.zip (p.freeNumbers ls.length)).map fun x => x.1.2.record park x.2 pc s.clock.cyc
      let old := ((p.bins.find? bin).map Bin.records).getD []
      (s.setPool e.place.clusterId { p with bins := p.bins.put bin ⟨e.launch, pc, old ++ recs⟩ }, bin)

/-- Whether a register that PARK copies is pending: one of the `.park` set, or a predicate (R74, R235). -/
def Engine.parkBlocked (e : Engine) (park : List Nat) : Bool :=
  let keys := (parkRegs park).map (SbKey.reg .g) ++ (parkDists park).map (SbKey.reg .d) ++ (List.range 8).map (SbKey.reg .p)
  e.sb.any fun x => keys.contains x.key

/-- Whether the kernel that issues has a `.park` set; PARK is illegal in one that has none (R59, R120). -/
def State.kernelParks (s : State) : Bool :=
  match s.cur.bind fun i => (s.engine i.eng).bind fun e => s.launchOf e.launch with
  | some l => !l.kernel.park.isEmpty
  | none => false

/-- Whether the queue of the pool accepts a PARK of some lanes: no register that the records copy is pending, and the pool has room (R71,
R120, R234). -/
def State.parkReady (s : State) (e : Engine) (live : Dword) (pc : Word) : Bool :=
  match s.launchOf e.launch with
  | none => true
  | some l => live == 0 || l.kernel.park.isEmpty || l.det ||
    (!e.parkBlocked l.kernel.park && (s.parkInto e l.kernel.park live pc).isSome)

/-- PARK: the stores commit and the live lanes become thread records that resume at the label (R120, R234 to R237).  It is
not ready while the pool has no room for them, or while a register that the records copy is pending. -/
def execPark (g : Guard) (o : Fin 2097152) (s : State) : Out :=
  gang { infoPark g o with ok := s.kernelParks } s fun i e live =>
    match s.launchOf e.launch with
    | none => .next s
    | some l =>
      if l.det then .next (s.trap i .detorder live 0 3)
      else if e.parkBlocked l.kernel.park then .next s
      else match s.parkInto e l.kernel.park live (i.target o) with
        | none => .next s
        | some (s, bin) => .next (((s.commitIssue i).lanesLeave i.eng live .parked).formFull e.place.clusterId bin)

end Sys2Proof.Machine
end

