-- ==== Sys2Proof/Machine/Special.lean ====
section
/-! DEFINITION. The special functions of the SFU (R128, R129).

The spec asks for the exact value rounded once.  rcp, sqrt and rsq are exact by integer division and integer square
root.  exp2, log2, sin, cos and tanh are computed in fixed point to more than 100 bits below the result's last place,
and one more bit says that the value is not representable; a value that is exactly representable has its own case. -/

namespace Sys2Proof.Machine

/-- Fraction bits of the fixed-point series. -/
def fixBits : Nat := 300

/-- 1 in fixed point. -/
def fixOne : Nat := 2 ^ fixBits

/-- π in fixed point, truncated. -/
def fixPi : Nat := 0x3243f6a8885a308d313198a2e03707344a4093822299f31d0082efa98ec4e6c89452821e638d

/-- ln 2 in fixed point, truncated. -/
def fixLn2 : Nat := 0xb17217f7d1cf79abc9e3b39803f2f6af40f343267298b62d8a0d175b8baafa2be7b876206de

/-- The bits of an integer square root, from bit `i` down. -/
def isqrtBits (n : Nat) : Nat → Nat → Nat
  | 0, r => r
  | i + 1, r =>
    let c := r + 2 ^ i
    isqrtBits n i (if c * c ≤ n then c else r)

/-- ⌊√n⌋ for n below 2^400. -/
def isqrt (n : Nat) : Nat := isqrtBits n 200 0

/-- Σ of the terms t, t·y/(k+1), t·y²/((k+1)(k+2)), …, `n` of them: the exponential's series from its k-th term. -/
def expSeries (y : Nat) : Nat → Nat → Nat → Nat
  | 0, _, _ => 0
  | n + 1, k, t => t + expSeries y n (k + 1) (t * y / fixOne / (k + 1))

/-- e^y in fixed point for 0 ≤ y < 1. -/
def fixExp (y : Nat) : Nat := expSeries y 80 0 fixOne

/-- The alternating series of sine and cosine: t − t·y²/((k+1)(k+2)) + …, `n` terms. -/
def trigSeries (y2 : Nat) : Nat → Nat → Nat → Nat
  | 0, _, _ => 0
  | n + 1, k, t => t - trigSeries y2 n (k + 2) (t * y2 / fixOne / ((k + 1) * (k + 2)))

/-- sin(π r) in fixed point for 0 ≤ r ≤ 1/4. -/
def fixSinPi (r : Nat) : Nat :=
  let y := r * fixPi / fixOne
  trigSeries (y * y / fixOne) 40 1 y

/-- cos(π r) in fixed point for 0 ≤ r ≤ 1/4. -/
def fixCosPi (r : Nat) : Nat :=
  let y := r * fixPi / fixOne
  trigSeries (y * y / fixOne) 40 0 fixOne

/-- z + z³/3 + z⁵/5 + …: `t` is the current power of z. -/
def atanhSeries (z2 : Nat) : Nat → Nat → Nat → Nat
  | 0, _, _ => 0
  | n + 1, k, t => t / k + atanhSeries z2 n (k + 2) (t * z2 / fixOne)

/-- atanh z in fixed point for 0 ≤ z ≤ 1/3. -/
def fixAtanh (z : Nat) : Nat := atanhSeries (z * z / fixOne) 100 1 z

/-- A fixed-point value that is not representable, as a magnitude and an exponent for Round. -/
def fixRes (neg : Bool) (v : Nat) : FloatRes :=
  roundNum .f32 (.plain .rne) neg (2 * v + 1) (-(fixBits : Int) - 1)

/-- m × 2^e in fixed point (e not below −fixBits). -/
def toFix (m : Nat) (e : Int) : Nat := m * 2 ^ (e + fixBits).toNat

/-- The results for a NaN (R129). -/
def sfuNan (sig : Bool) : FloatRes := FloatFmt.f32.nanRes sig

/-- The sign bit alone, with a magnitude. -/
def signed32 (neg : Bool) (mag : Nat) : Nat := FloatFmt.f32.withSign neg mag

/-- +1.0. -/
def oneCode : Nat := 0x3F800000

/-- +∞. -/
def infCode32 : Nat := 0x7F800000

/-- rcp (R128, R129). -/
def sfuRcp (r : Rounding) (x : Nat) : FloatRes :=
  match FloatFmt.f32.decode x with
  | .nan s => sfuNan s
  | .inf n => ⟨signed32 n 0, Fx.none⟩
  | .num n m e =>
    if m = 0 then ⟨signed32 n infCode32, Fx.dz⟩
    else
      let (p, q) := ratNum 1 m (-e)
      roundNum .f32 r n p q

/-- A magnitude with an even exponent. -/
def evenExp (m : Nat) (e : Int) : Nat × Int := if e % 2 = 0 then (m, e) else (2 * m, e - 1)

/-- sqrt (R128, R129). -/
def sfuSqrt (r : Rounding) (x : Nat) : FloatRes :=
  match FloatFmt.f32.decode x with
  | .nan s => sfuNan s
  | .inf n => if n then sfuNan true else ⟨x, Fx.none⟩
  | .num n m e =>
    if m = 0 then ⟨x, Fx.none⟩
    else if n then sfuNan true
    else
      let (m', e') := evenExp m e
      let v := m' * 2 ^ 80
      let q := isqrt v
      roundNum .f32 r false (2 * q + (if q * q = v then 0 else 1)) (e' / 2 - 41)

/-- rsq (R128, R129). -/
def sfuRsq (x : Nat) : FloatRes :=
  match FloatFmt.f32.decode x with
  | .nan s => sfuNan s
  | .inf n => if n then sfuNan true else ⟨0, Fx.none⟩
  | .num n m e =>
    if m = 0 then ⟨signed32 n infCode32, Fx.dz⟩
    else if n then sfuNan true
    else
      let (m', e') := evenExp m e
      let q := isqrt (2 ^ 160 / m')
      roundNum .f32 (.plain .rne) false (2 * q + (if q * q * m' = 2 ^ 160 then 0 else 1)) (-(e' / 2) - 81)

/-- exp2 (R128, R129). -/
def sfuExp2 (x : Nat) : FloatRes :=
  match FloatFmt.f32.decode x with
  | .nan s => sfuNan s
  | .inf n => ⟨if n then 0 else infCode32, Fx.none⟩
  | .num n m e =>
    let clamp (v : Int) : Int := max (-1000) (min 1000 v)
    let sgn (v : Nat) : Int := if n then -(v : Int) else v
    if m = 0 then ⟨oneCode, Fx.none⟩
    else if 0 ≤ e then
      roundNum .f32 (.plain .rne) false 1 (clamp (sgn (m * 2 ^ (min e 40).toNat)))
    else
      let k := (-e).toNat
      let v := sgn m
      let whole := v / (2 ^ k : Nat)
      let frac := (v % (2 ^ k : Nat)).toNat
      if frac = 0 then roundNum .f32 (.plain .rne) false 1 (clamp whole)
      else
        let t := fixExp (frac * 2 ^ (fixBits - k) * fixLn2 / fixOne)
        roundNum .f32 (.plain .rne) false (2 * t + 1) (clamp whole - fixBits - 1)

/-- log2 (R128, R129). -/
def sfuLog2 (x : Nat) : FloatRes :=
  match FloatFmt.f32.decode x with
  | .nan s => sfuNan s
  | .inf n => if n then sfuNan true else ⟨infCode32, Fx.none⟩
  | .num n m e =>
    if m = 0 then ⟨signed32 true infCode32, Fx.dz⟩
    else if n then sfuNan true
    else
      let lg := Nat.log2 m
      let k : Int := (lg : Int) + e
      if m = 2 ^ lg then roundNum .f32 (.plain .rne) (k < 0) k.natAbs 0
      else
        let z := (m - 2 ^ lg) * fixOne / (m + 2 ^ lg)
        let frac := fixAtanh z * fixOne / fixAtanh (fixOne / 3)
        let v : Int := k * fixOne + frac
        fixRes (v < 0) v.natAbs

/-- sin(π r) for 0 < r < 1/2, r in fixed point. -/
def sinPiHalf (r : Nat) : Nat :=
  if r ≤ fixOne / 4 then fixSinPi r else fixCosPi (fixOne / 2 - r)

/-- |x| modulo 2 in fixed point, for x = m × 2^e. -/
def modTwo (m : Nat) (e : Int) : Nat :=
  if 2 ≤ e then 0 else toFix m e % (2 * fixOne)

/-- sin of half-turns (R128, R129). -/
def sfuSin (x : Nat) : FloatRes :=
  match FloatFmt.f32.decode x with
  | .nan s => sfuNan s
  | .inf _ => sfuNan true
  | .num n m e =>
    let r := modTwo m e
    if r % fixOne = 0 then ⟨signed32 n 0, Fx.none⟩
    else
      let neg := n != decide (r ≥ fixOne)
      let q := r % fixOne
      let h := if q > fixOne / 2 then fixOne - q else q
      if h = fixOne / 2 then ⟨signed32 neg oneCode, Fx.none⟩ else fixRes neg (sinPiHalf h)

/-- cos of half-turns (R128, R129). -/
def sfuCos (x : Nat) : FloatRes :=
  match FloatFmt.f32.decode x with
  | .nan s => sfuNan s
  | .inf _ => sfuNan true
  | .num _ m e =>
    let r0 := modTwo m e
    let r := if r0 > fixOne then 2 * fixOne - r0 else r0
    if r = 0 then ⟨oneCode, Fx.none⟩
    else if r = fixOne then ⟨signed32 true oneCode, Fx.none⟩
    else if r = fixOne / 2 then ⟨0, Fx.none⟩
    else
      let neg := decide (r > fixOne / 2)
      let h := if neg then fixOne - r else r
      fixRes neg (sinPiHalf (fixOne / 2 - h))

/-- tanh (R128, R129).  Below 2^−60 the value lies just below |x|; from 16 up it rounds to 1. -/
def sfuTanh (x : Nat) : FloatRes :=
  match FloatFmt.f32.decode x with
  | .nan s => sfuNan s
  | .inf n => ⟨signed32 n oneCode, Fx.none⟩
  | .num n m e =>
    let lg : Int := (Nat.log2 m : Int) + e
    if m = 0 then ⟨x, Fx.none⟩
    else if lg < -60 then roundNum .f32 (.plain .rne) n (m * 2 ^ 64 - 1) (e - 64)
    else if 4 ≤ lg then ⟨signed32 n oneCode, Fx.nx⟩
    else
      let y := fixExp (toFix m e / 2 ^ 5)
      let sq (v : Nat) : Nat := v * v / fixOne
      let ex := sq (sq (sq (sq (sq (sq y)))))
      fixRes n ((ex - fixOne) * fixOne / (ex + fixOne))

end Sys2Proof.Machine
end

