-- ==== Sys2Proof/Machine/Damask.lean ====
section
/-! DEFINITION. Distribution registers: pairing, condensation and the instructions of the Damask unit (R170 to R190). -/

namespace Sys2Proof.Machine

/-! ## Arithmetic under rne (R173) -/

/-- A result that another operation takes further: the flags of both are raised. -/
def FloatRes.bind (r : FloatRes) (f : Nat → FloatRes) : FloatRes := ⟨(f r.code).code, r.flags ||| (f r.code).flags⟩

/-- A code with no flag. -/
def FloatRes.pure (c : Nat) : FloatRes := ⟨c, Fx.none⟩

/-- A result whose flags are raised only where `b` holds. -/
def FloatRes.flagsIf (b : Bool) (r : FloatRes) : FloatRes := if b then r else ⟨r.code, Fx.none⟩

/-- A result with NV added where `b` holds. -/
def FloatRes.nvIf (b : Bool) (r : FloatRes) : FloatRes := if b then ⟨r.code, r.flags ||| Fx.nv⟩ else r

def dAdd (a b : Nat) : FloatRes := fAdd .f32 (.plain .rne) a b
def dSub (a b : Nat) : FloatRes := fSub .f32 (.plain .rne) a b
def dMul (a b : Nat) : FloatRes := fMul .f32 (.plain .rne) a b

/-- Round(a ÷ b) (R123, R176). -/
def dDiv (a b : Nat) : FloatRes :=
  let va := FloatFmt.f32.decode a
  let vb := FloatFmt.f32.decode b
  let neg := va.isNeg != vb.isNeg
  match va, vb with
  | .nan s, .nan t => FloatFmt.f32.nanRes (s || t)
  | .nan s, _ => FloatFmt.f32.nanRes s
  | _, .nan t => FloatFmt.f32.nanRes t
  | .inf _, .inf _ => FloatFmt.f32.nanRes true
  | .inf _, _ => .pure (signed32 neg infCode32)
  | .num _ _ _, .inf _ => .pure (signed32 neg 0)
  | .num _ m e, .num _ n f =>
    if n = 0 then (if m = 0 then FloatFmt.f32.nanRes true else ⟨signed32 neg infCode32, Fx.dz⟩)
    else
      let (p, q) := ratNum m n (e - f)
      roundNum .f32 (.plain .rne) neg p q

/-- Whether a weight is live: positive and finite (R170). -/
def liveWeight (w : Nat) : Bool :=
  match FloatFmt.f32.decode w with
  | .num n m _ => !n && m != 0
  | _ => false

/-- Whether a weight is negative, infinite or NaN (R178). -/
def badWeight (w : Nat) : Bool :=
  match FloatFmt.f32.decode w with
  | .num n m _ => n && m != 0
  | _ => true

/-- A value with its weight. -/
abbrev Point := Nat × Nat

/-- The points of a list whose weights are live. -/
def livePoints (l : List Point) : List Point := l.filter fun p => liveWeight p.2

/-- Weights added left to right (R178, R184). -/
def massOf (l : List Point) : FloatRes := l.foldl (fun a p => a.bind fun x => dAdd x p.2) (.pure 0)

/-- Points in ascending value, −0 before +0, ties in the order of the list (R178 step 3). -/
def sortPoints (l : List Point) : List Point :=
  sortBy (fun a b => decide (FloatFmt.f32.orderKey a.1 ≤ FloatFmt.f32.orderKey b.1)) l

def isNan32 (v : Nat) : Bool := (FloatFmt.f32.decode v).isNan

/-- a ≥ b of two values that are not NaN. -/
def geCode (a b : Nat) : Bool := FloatFmt.f32.compare a b != .lt

/-! ## Condensation (R178) -/

/-- The walk of step 6: the closed bins, the mass and the sum of the open one and the flags raised. -/
structure Bins where
  out : List Point
  mass : Nat
  sum : Nat
  flags : Fx
deriving DecidableEq, Repr

/-- Bins closed by one point, whose weight that remains is `rest`; at most seven bins close (R178 step 6). -/
def closeBins (m v : Nat) : Nat → Bins → Nat → Bins × Nat
  | 0, s, rest => (s, rest)
  | n + 1, s, rest =>
    let t := dAdd s.mass rest
    if s.out.length < 7 ∧ geCode t.code m then
      let d := dSub m s.mass
      let part := if FloatFmt.f32.compare d.code rest == .gt then rest else d.code
      let mass := dAdd s.mass part
      let pv := dMul part v
      let sum := pv.bind fun x => dAdd s.sum x
      let mean := dDiv sum.code mass.code
      let left := dSub rest part
      closeBins m v n
        { out := s.out ++ [(mean.code, mass.code)], mass := 0, sum := 0
          flags := s.flags ||| t.flags ||| d.flags ||| mass.flags ||| sum.flags ||| mean.flags ||| left.flags } left.code
    else ({ s with flags := s.flags ||| (if s.out.length < 7 then t.flags else 0) }, rest)

/-- One point of the walk of step 6. -/
def binPoint (m : Nat) (s : Bins) (p : Point) : Bins :=
  let (s, rest) := closeBins m p.1 8 s p.2
  if liveWeight rest then
    let mass := dAdd s.mass rest
    let sum := (dMul rest p.1).bind fun x => dAdd s.sum x
    { s with mass := mass.code, sum := sum.code, flags := s.flags ||| mass.flags ||| sum.flags }
  else s

/-- Eight points: a list filled up with (+0, +0). -/
def eightPoints (l : List Point) : List Point := (l ++ List.replicate 8 (0, 0)).take 8

/-- Condense(P): eight points and the flags raised (R178). -/
def condense (p : List Point) : List Point × Fx :=
  let q := livePoints p
  let bad := if p.any fun x => badWeight x.2 then Fx.nv else Fx.none
  if q.any fun x => isNan32 x.1 then
    let w := (massOf q).bind fun x => dDiv x 0x41000000
    (List.replicate 8 (FloatFmt.f32.nanCode, w.code), bad ||| w.flags ||| Fx.nv)
  else
    let s := sortPoints q
    let w := massOf s
    if w.code = infCode32 then
      (List.replicate 8 (FloatFmt.f32.nanCode, infCode32), bad ||| w.flags ||| Fx.of ||| Fx.nv)
    else if s.length ≤ 8 then (eightPoints s, bad ||| w.flags)
    else
      let m := dDiv w.code 0x41000000
      let r := s.foldl (binPoint m.code) { out := [], mass := 0, sum := 0, flags := bad ||| w.flags ||| m.flags }
      let mean := if liveWeight r.mass then dDiv r.sum r.mass else .pure 0
      (eightPoints (r.out ++ [if liveWeight r.mass then (mean.code, r.mass) else (0, 0)]), r.flags ||| mean.flags)

/-! ## Binary instructions (R176, R177, R179, R180) -/

/-- How two registers pair (R176). -/
inductive Pairing | indexWise | all | conflict
deriving DecidableEq, Repr

def Dist.pairing (a b : Dist) : Pairing :=
  if a.lineage = b.lineage ∧ a.lineage ≠ 0 then .indexWise
  else if Nat.land a.tags b.tags = 0 then .all
  else .conflict

/-- Op of R176, by its minor. -/
def dOp (n : Nat) (a b : Nat) : FloatRes :=
  match n with
  | 0 => dAdd a b
  | 1 => dSub a b
  | 2 => dMul a b
  | 3 => dDiv a b
  | 4 => fMinMax .f32 false a b
  | _ => fMinMax .f32 true a b

/-- The OR of the flags of results. -/
def resFlags (l : List FloatRes) : Fx := fxOr (l.map FloatRes.flags)

/-- A binary operation of two registers (R176): a conflict pairs all points and sets DEP (R177, R179).  DEDUCED (log entry 49): a pairing
whose product weight is not live is no point, and its operation on the values raises no flag. -/
def dBin (n : Nat) (a b : Dist) : Dist × Fx :=
  let tags := Nat.lor a.tags b.tags
  if a.pairing b = .indexWise then
    let r := (a.pts.zip b.pts).map fun p => ((dOp n p.1.1 p.2.1).flagsIf (liveWeight p.1.2), p.1.2)
    ({ pts := r.map fun x => (x.1.code, x.2), tags, lineage := a.lineage }, resFlags (r.map Prod.fst))
  else
    let r := a.pts.flatMap fun x => b.pts.map fun y =>
      let w := (dMul x.2 y.2).flagsIf (liveWeight x.2 && liveWeight y.2)
      ((dOp n x.1 y.1).flagsIf (liveWeight w.code), w)
    let c := condense (r.map fun x => (x.1.code, x.2.code))
    ({ pts := c.1, tags, lineage := 0 },
      c.2 ||| resFlags (r.map Prod.fst) ||| resFlags (r.map Prod.snd)
        ||| (if a.pairing b = .conflict then Fx.dep else Fx.none))

/-- The mixture of two registers, scaled by α and 1 − α where α is given (R180). -/
def dMix (alpha : Option Nat) (a b : Dist) : Dist × Fx :=
  let scale := fun (f : Nat) (l : List Point) => l.map fun (p : Point) => (p.1, (dMul p.2 f).flagsIf (liveWeight p.2))
  let p := match alpha with
    | none => (a.pts ++ b.pts).map fun (p : Point) => (p.1, FloatRes.pure p.2)
    | some f => scale f a.pts ++ scale (dSub oneCode f).code b.pts
  let c := condense (p.map fun (x : Nat × FloatRes) => (x.1, x.2.code))
  ({ pts := c.1, tags := Nat.lor a.tags b.tags, lineage := 0 }, c.2 ||| resFlags (p.map Prod.snd))

/-- The flags that a Damask instruction raises: never UF or NX (R173). -/
def damaskFlags (f : Fx) : Fx := f &&& (Fx.nv ||| Fx.dz ||| Fx.of ||| Fx.dep)

/-- An instruction that writes dD in each live lane. -/
def toDist (f : Info) (s : State) (d : Nat) (op : Lane → Dist × Fx) : Out :=
  lanesFx f s fun _ _ _ l => (l.setDist d (op l).1, damaskFlags (op l).2)

/-- An instruction that writes gX in each live lane. -/
def toReg (f : Info) (s : State) (x : Nat) (op : Lane → FloatRes) : Out :=
  lanesFx f s fun _ _ _ l => (l.setReg x (BitVec.ofNat 32 (op l).code), damaskFlags (op l).flags)

/-- DBIN minors 0 to 5 (R179): a conflict raises DEP where TMODE enables it (R177). -/
def dbin (f : Info) (s : State) (n a b d : Nat) : Out :=
  gated f s fun i e live =>
    match (e.lanesOf live).find? fun kl => (kl.2.dist a).pairing (kl.2.dist b) == .conflict && e.tmode.getLsbD 5 with
    | some kl => .next (s.trap i .dep live 0 ((kl.2.dist a).tags + (kl.2.dist b).tags * 2 ^ 16))
    | none => toDist f s d fun l => dBin n (l.dist a) (l.dist b)

/-! ## Unary instructions (R181 to R184) -/

/-- The value of each point by a function; only live points raise flags (R173). -/
def Dist.mapValues (d : Dist) (f : Nat → FloatRes) : Dist × Fx :=
  let r := d.pts.map fun p => ((f p.1).flagsIf (liveWeight p.2), p.2)
  ({ d with pts := r.map fun x => (x.1.code, x.2) }, resFlags (r.map Prod.fst))

/-- The functions of `dmap` (R181). -/
def dmapFn (n v : Nat) : FloatRes :=
  match n with
  | 0 => sfuExp2 v
  | 1 => sfuLog2 v
  | 2 => sfuSqrt (.plain .rne) v
  | 3 => sfuRcp (.plain .rne) v
  | 4 => sfuTanh v
  | 5 => .pure (v % 2 ^ 31)
  | 6 => dMul v v
  | _ => fMinMax .f32 true v 0

/-- The relations of `dcond` (R182). -/
def dcondHolds (rel v x : Nat) : Bool :=
  if isNan32 v || isNan32 x then rel == 5
  else
    let o := FloatFmt.f32.compare v x
    match rel with
    | 0 => o == .lt
    | 1 => o != .gt
    | 2 => o == .gt
    | 3 => o != .lt
    | 4 => o == .eq
    | _ => o != .eq

/-- The live mass W with the NV of a weight that is negative, infinite or NaN (R184, R187). -/
def Dist.mass (d : Dist) : FloatRes := (massOf (livePoints d.pts)).nvIf (d.pts.any fun p => badWeight p.2)

/-- `dnorm` (R184). -/
def Dist.norm (d : Dist) : Dist × Fx :=
  let w := d.mass
  if w.code = 0 then (d, w.flags ||| Fx.nv)
  else
    let r := d.pts.map fun p => (p.1, if liveWeight p.2 then dDiv p.2 w.code else .pure 0)
    ({ d with pts := r.map fun x => (x.1, x.2.code) }, w.flags ||| resFlags (r.map Prod.snd))

/-- The code that a register holds. -/
def Lane.code (l : Lane) (r : Nat) : Nat := (l.reg r).toNat

/-- A condensed register with one point more (R185). -/
def Dist.push (d : Dist) (p : Point) : Dist × Fx :=
  let c := condense (d.pts ++ [p])
  ({ pts := c.1, tags := d.tags, lineage := 0 }, c.2)

/-! ## Extraction (R188, R189) -/

/-- The moment instructions (R188): `n` is 1 for the mean, otherwise the order of the central moment.  DEDUCED (log entry 50): W is formed
as in R184, flags included, so a negative, infinite or NaN weight raises NV here too. -/
def Dist.moment (d : Dist) (n : Nat) : FloatRes :=
  let w := d.mass
  let l := livePoints d.pts
  let step := fun (f : Point → FloatRes) => l.foldl (fun a p =>
    a.bind fun x => (f p).bind fun y => (dMul p.2 y).bind fun z => dAdd x z) (FloatRes.pure 0)
  if w.code = 0 then ⟨FloatFmt.f32.nanCode, w.flags ||| Fx.nv⟩
  else
    let mu := (step fun p => .pure p.1).bind fun x => dDiv x w.code
    let r :=
      if n = 1 then mu
      else
        let dev := fun (p : Point) => (dSub p.1 mu.code).bind fun x =>
          (List.range (n - 1)).foldl (fun t _ => t.bind fun y => dMul y x) (.pure x)
        let a := (step dev).bind fun x => dDiv x w.code
        ⟨a.code, a.flags ||| mu.flags⟩
    ⟨r.code, r.flags ||| w.flags⟩

/-- The extraction of R189 from the sorted live points; NaN with NV where there are none or one of them is NaN. -/
def Dist.extract (d : Dist) (f : List Point → FloatRes) : FloatRes :=
  let s := sortPoints (livePoints d.pts)
  if s.isEmpty ∨ s.any (fun p => isNan32 p.1) then FloatFmt.f32.nanRes true else f s

/-- The value of the first point at which the cumulative weight reaches a target, else the last value (R189). -/
def quantile (target : Nat) : FloatRes → Nat → List Point → FloatRes
  | acc, last, [] => ⟨last, acc.flags⟩
  | acc, _, p :: r =>
    let acc := acc.bind fun x => dAdd x p.2
    if geCode acc.code target then ⟨p.1, acc.flags⟩ else quantile target acc p.1 r

/-- `dqnt` (R189). -/
def Dist.quantileOf (d : Dist) (p : Nat) : FloatRes :=
  d.extract fun s =>
    if isNan32 p then FloatFmt.f32.nanRes true
    else
      let w := d.mass
      let target := dMul p w.code
      let r := if isNan32 target.code then .pure ((s.getLastD (0, 0)).1) else quantile target.code (.pure 0) 0 s
      ⟨r.code, r.flags ||| w.flags ||| target.flags⟩

/-- `dcdf` (R189). -/
def Dist.cdf (d : Dist) (x : Nat) : FloatRes :=
  d.extract fun s =>
    if isNan32 x then FloatFmt.f32.nanRes true
    else massOf (s.filter fun p => geCode x p.1)

/-! ## The instructions -/

/-- DADD: the sum of two registers (R179). -/
def execDadd (g : Guard) (b : Fin 8) (a : Fin 8) (d : Fin 8) (s : State) : Out :=
  dbin (infoDadd g b a d) s 0 a b d

/-- DSUB: the difference of two registers (R179). -/
def execDsub (g : Guard) (b : Fin 8) (a : Fin 8) (d : Fin 8) (s : State) : Out :=
  dbin (infoDsub g b a d) s 1 a b d

/-- DMUL: the product of two registers (R179). -/
def execDmul (g : Guard) (b : Fin 8) (a : Fin 8) (d : Fin 8) (s : State) : Out :=
  dbin (infoDmul g b a d) s 2 a b d

/-- DDIV: the quotient of two registers (R179). -/
def execDdiv (g : Guard) (b : Fin 8) (a : Fin 8) (d : Fin 8) (s : State) : Out :=
  dbin (infoDdiv g b a d) s 3 a b d

/-- DMIN: the minimum of two registers (R179). -/
def execDmin (g : Guard) (b : Fin 8) (a : Fin 8) (d : Fin 8) (s : State) : Out :=
  dbin (infoDmin g b a d) s 4 a b d

/-- DMAX: the maximum of two registers (R179). -/
def execDmax (g : Guard) (b : Fin 8) (a : Fin 8) (d : Fin 8) (s : State) : Out :=
  dbin (infoDmax g b a d) s 5 a b d

/-- DMIX: the mixture of two registers, with α where the g field names a register (R180). -/
def execDmix (g : Guard) (x : Fin 64) (b : Fin 8) (a : Fin 8) (d : Fin 8) (s : State) : Out :=
  toDist (infoDmix g x b a d) s d fun l => dMix (if x.val = 0 then none else some (l.code x)) (l.dist a) (l.dist b)

/-- DSCALE: every value times gS (R181). -/
def execDscale (g : Guard) (x : Fin 64) (a : Fin 8) (d : Fin 8) (s : State) : Out :=
  toDist (infoDscale g x a d) s d fun l => (l.dist a).mapValues fun v => dMul v (l.code x)

/-- DSHIFT: every value plus gS (R181). -/
def execDshift (g : Guard) (x : Fin 64) (a : Fin 8) (d : Fin 8) (s : State) : Out :=
  toDist (infoDshift g x a d) s d fun l => (l.dist a).mapValues fun v => dAdd v (l.code x)

/-- DMAP: a function of every value (R181). -/
def execDmap (g : Guard) (f : Fin 8) (a : Fin 8) (d : Fin 8) (s : State) : Out :=
  toDist (infoDmap g f a d) s d fun l => (l.dist a).mapValues (dmapFn f)

/-- DNEG: every value with its sign inverted (R181). -/
def execDneg (g : Guard) (a : Fin 8) (d : Fin 8) (s : State) : Out :=
  toDist (infoDneg g a d) s d fun l => (l.dist a).mapValues fun v => .pure (Nat.xor v (2 ^ 31))

/-- DMOV: a copy (R181). -/
def execDmov (g : Guard) (a : Fin 8) (d : Fin 8) (s : State) : Out :=
  toDist (infoDmov g a d) s d fun l => (l.dist a, Fx.none)

/-- DCOND: weights kept where the relation holds (R182). -/
def execDcond (g : Guard) (f : Fin 8) (x : Fin 64) (a : Fin 8) (d : Fin 8) (s : State) : Out :=
  toDist (infoDcond g f x a d) s d fun l =>
    ({ l.dist a with pts := (l.dist a).pts.map fun p => (p.1, if dcondHolds f p.1 (l.code x) then p.2 else 0) }, Fx.none)

/-- DTAG: the tag set and the lineage from gS, or the tag set joined (R183). -/
def execDtag (g : Guard) (f : Fin 2) (x : Fin 64) (a : Fin 8) (d : Fin 8) (s : State) : Out :=
  toDist (infoDtag g f x a d) s d fun l =>
    let v := l.code x
    (if f.val = 1 then { l.dist a with tags := Nat.lor (l.dist a).tags (v % 2 ^ 16) }
      else { l.dist a with tags := v % 2 ^ 16, lineage := v / 2 ^ 16 % 2 ^ 8 }, Fx.none)

/-- DNORM: the weights divided by their mass (R184). -/
def execDnorm (g : Guard) (a : Fin 8) (d : Fin 8) (s : State) : Out :=
  toDist (infoDnorm g a d) s d fun l => (l.dist a).norm

/-- DSRC: one point of weight 1 (R185). -/
def execDsrc (g : Guard) (x : Fin 64) (d : Fin 8) (s : State) : Out :=
  toDist (infoDsrc g x d) s d fun l => ({ Dist.empty with pts := eightPoints [(l.code x, oneCode)] }, Fx.none)

/-- DPUSH: one point of weight 1 more (R185). -/
def execDpush (g : Guard) (x : Fin 64) (d : Fin 8) (s : State) : Out :=
  toDist (infoDpush g x d) s d fun l => (l.dist d).push (l.code x, oneCode)

/-- DPUSHW: one point with its weight more (R185). -/
def execDpushw (g : Guard) (x : Fin 64) (d : Fin 8) (s : State) : Out :=
  toDist (infoDpushw g x d) s d fun l => (l.dist d).push (l.code x, l.code (x + 1))

/-- DSEL_V: value k (R187). -/
def execDselV (g : Guard) (k : Fin 8) (x : Fin 64) (a : Fin 8) (s : State) : Out :=
  toReg (infoDselV g k x a) s x fun l => .pure ((l.dist a).pts.getD k (0, 0)).1

/-- DSEL_W: weight k (R187). -/
def execDselW (g : Guard) (k : Fin 8) (x : Fin 64) (a : Fin 8) (s : State) : Out :=
  toReg (infoDselW g k x a) s x fun l => .pure ((l.dist a).pts.getD k (0, 0)).2

/-- DMASS: the live mass (R187). -/
def execDmass (g : Guard) (x : Fin 64) (a : Fin 8) (s : State) : Out :=
  toReg (infoDmass g x a) s x fun l => (l.dist a).mass

/-- DMOM1: the mean (R188). -/
def execDmom1 (g : Guard) (x : Fin 64) (a : Fin 8) (s : State) : Out :=
  toReg (infoDmom1 g x a) s x fun l => (l.dist a).moment 1

/-- DMOM2C: the second central moment (R188). -/
def execDmom2c (g : Guard) (x : Fin 64) (a : Fin 8) (s : State) : Out :=
  toReg (infoDmom2c g x a) s x fun l => (l.dist a).moment 2

/-- DMOM3C: the third central moment (R188). -/
def execDmom3c (g : Guard) (x : Fin 64) (a : Fin 8) (s : State) : Out :=
  toReg (infoDmom3c g x a) s x fun l => (l.dist a).moment 3

/-- DMOM4C: the fourth central moment (R188). -/
def execDmom4c (g : Guard) (x : Fin 64) (a : Fin 8) (s : State) : Out :=
  toReg (infoDmom4c g x a) s x fun l => (l.dist a).moment 4

/-- DQNT: the quantile gX (R189). -/
def execDqnt (g : Guard) (x : Fin 64) (a : Fin 8) (s : State) : Out :=
  toReg (infoDqnt g x a) s x fun l => (l.dist a).quantileOf (l.code x)

/-- DCDF: the weight at or below gX (R189). -/
def execDcdf (g : Guard) (x : Fin 64) (a : Fin 8) (s : State) : Out :=
  toReg (infoDcdf g x a) s x fun l => (l.dist a).cdf (l.code x)

/-- DLO: the lowest value (R189). -/
def execDlo (g : Guard) (x : Fin 64) (a : Fin 8) (s : State) : Out :=
  toReg (infoDlo g x a) s x fun l => (l.dist a).extract fun s => .pure (s.headD (0, 0)).1

/-- DHI: the highest value (R189). -/
def execDhi (g : Guard) (x : Fin 64) (a : Fin 8) (s : State) : Out :=
  toReg (infoDhi g x a) s x fun l => (l.dist a).extract fun s => .pure (s.getLastD (0, 0)).1


/-! ## Memory (R186) -/

/-- REFUSE, REASON 1, for a region in space 0x6, which a distribution access may not use (R186). -/
def distSpace (f : Info) (s : State) (x h : Nat) (k : Out) : Out :=
  gated f s fun i e live =>
    let r := e.region h
    match e.offsets live x with
    | [] => k
    | (n, o) :: _ => if spaceOf r.base = 0x6 then .next (s.refuse i live (r.base + o) 1 0 n) else k

/-- The 128 bytes that `dst` stores (R172). -/
def Lane.distBytes (d : Nat) (l : Lane) : List Byte := (l.dist d).image

/-- DLD: dd := the image at the lane's address (R186). -/
def execDld (g : Guard) (k : Fin 2) (x : Fin 64) (h : Fin 8) (d : Fin 8) (s : State) : Out :=
  distSpace (infoDld g k x h d) s x (8 * k.val + h.val)
    (loadAny (infoDld g k x h d) s (8 * k.val + h.val) x d 7 0 false false false)

/-- DST: the image of dd enters the store buffer, one beat for each lane (R186, R307). -/
def execDst (g : Guard) (k : Fin 2) (x : Fin 64) (h : Fin 8) (d : Fin 8) (s : State) : Out :=
  distSpace (infoDst g k x h d) s x (8 * k.val + h.val)
    (storeAny (infoDst g k x h d) s (8 * k.val + h.val) (fun e live => e.offsets live x) 128 false false (Lane.distBytes d))

end Sys2Proof.Machine
end

