-- ==== Sys2Proof/Machine/Sync.lean ====
section
/-! DEFINITION. Fences, mailboxes, spawn, hand-off queues, sleep and yield (R161, R168, R169, R284, R285, R339, R353). -/

namespace Sys2Proof.Machine

/-! ## Fences (R161, R285) -/

/-- Whether a scope is .gang, .blk or .core (R56, R280). -/
def nearScope (a : Nat) : Bool := a == 0 || a == 1 || a == 3

/-- A fence: a cohort that the block does not hold raises REFUSE, REASON 7; otherwise the lanes go on, and later accesses wait
for the earlier ones; a release before buffered stores that their commit does not perform holds them from that commit on (R161, R285). -/
def fence (f : Info) (s : State) (rel : Bool) (b a : Nat) : Out :=
  gated f s fun i e live =>
    match (e.lanesOf live).find? fun kl => a == 2 && !s.holdsCohort e (kl.2.reg b).toNat with
    | some (k, _) => .next (s.refuse i live 0 7 0 k)
    | none =>
      let e' := (e.advance i).hold (if live = 0 then [] else s.holds i.eng e live rel (nearScope a))
      .next (s.setEngine i.eng (if rel && live != 0 && e.buffersAway (nearScope a) then e'.hold [{ key := .fence live, due := none, tag := 0 }] else e'))

/-- FENCE_ACQ (R161). -/
def execFenceAcq (g : Guard) (b : Fin 64) (a : Fin 64) (s : State) : Out := fence (infoFenceAcq g b a) s false b a

/-- FENCE_REL (R161). -/
def execFenceRel (g : Guard) (b : Fin 64) (a : Fin 64) (s : State) : Out := fence (infoFenceRel g b a) s true b a

/-- FENCE_ACQREL (R161). -/
def execFenceAcqrel (g : Guard) (b : Fin 64) (a : Fin 64) (s : State) : Out := fence (infoFenceAcqrel g b a) s true b a

/-! ## Mailboxes (R168, R353) -/

/-- A mailbox, where it is bound. -/
def State.mailbox (s : State) (n : Nat) : Option Mailbox := s.launch.mailboxes.find? n

/-- A message appended to a bound mailbox. -/
def State.postMessage (s : State) (n : Nat) (msg : List Byte) : State :=
  { s with launch := { s.launch with mailboxes := s.launch.mailboxes.modify n fun m => { m with waiting := m.waiting ++ [msg] } } }

/-- Whether some mailbox of a list of posts has no room for all that go to it (R168). -/
def State.mailboxFull (s : State) (posts : List Nat) : Bool :=
  posts.any fun n => decide (256 < ((s.mailbox n).map fun m => m.waiting.length).getD 0 + (posts.filter fun q => q == n).length)

/-- The message in four registers of a lane. -/
def Lane.message (l : Lane) (r : Nat) : List Byte := (List.range 4).flatMap fun k => leBytes 4 (l.reg (r + k)).toNat

/-- MBPOST: each live lane posts a message; a mailbox that is not bound raises REFUSE, REASON 10; not ready while a mailbox
has no room (R168). -/
def execMbpost (g : Guard) (b : Fin 64) (a : Fin 64) (s : State) : Out :=
  gated (infoMbpost g b a) s fun i e live =>
    let posts := (e.lanesOf live).map fun kl => (kl.1, (kl.2.reg a).toNat % 4096, kl.2.message b)
    match posts.find? fun p => (s.mailbox p.2.1).isNone with
    | some (k, _, _) => .next (s.refuse i live 0 10 0 k)
    | none =>
      if s.mailboxFull (posts.map fun p => p.2.1) then .next s
      else .next (posts.foldl (fun s p => s.postMessage p.2.1 p.2.2) (s.setEngine i.eng (e.advance i)))

/-! ## Spawn (R339) -/

/-- Whether a range of a context's addresses covers one of 512 bytes of a launch-window slot. -/
def State.coversSlot (s : State) (ctx base extent slot : Nat) : Bool :=
  (List.range ((base % 4096 + extent + 4095) / 4096)).any fun k =>
    let page := base / 4096 * 4096 + 4096 * k
    match s.quietLoc ctx .load page with
    | none => false
    | some l =>
      let lo := l + (max base page - page)
      let hi := l + (min (base + extent) (page + 4096) - page)
      decide (lo < 512 * slot + 512) && decide (512 * slot < hi)

/-- The lowest exclusive region of an engine that covers a byte of a slot. -/
def State.slotRegion (s : State) (e : Engine) (slot : Nat) : Option Region :=
  ((List.range 16).map e.region).find? fun r => r.kind == .exclusive && s.coversSlot e.ctx r.base r.extent slot

/-- Whether an engine holds an exclusive region that covers a byte of a slot. -/
def State.holdsSlot (s : State) (e : Engine) (slot : Nat) : Bool := (s.slotRegion e slot).isSome

/-- The objects of a context that cover a slot and lie at a scope narrower than .dev, with no write-back running (R339). -/
def State.narrowObjects (s : State) (ctx slot : Nat) : List Nat :=
  (s.own.entries.filter fun kv => kv.2.ctx == ctx && kv.2.kind != .free && kv.2.kind != .excl
      && (kv.2.scope == 1 || kv.2.scope == 3) && !(s.own.writeBacks.any fun w => w.obj == kv.1 && w.away.isNone)
      && s.coversSlot ctx kv.2.base kv.2.span slot).map Prod.fst

/-- Write-backs to .dev started for them (R265, R339). -/
def State.pushSlot (s : State) (ctx slot : Nat) : State :=
  (s.narrowObjects ctx slot).foldl (fun s o => s.startWriteBack o 6 none) s

/-- Whether a spawn with a number must wait: another exclusive borrow or a write-back covers the slot, or an earlier access of the gang is
to be performed (R339). -/
def State.spawnWaits (s : State) (eng : Nat) (e : Engine) (slot before : Nat) : Bool :=
  (s.work.engines.any fun kv => kv.1 != eng && kv.2.ctx == e.ctx && s.holdsSlot kv.2 slot) ||
    (s.own.writeBacks.any fun w => let x := s.entry w.obj; w.away.isNone && x.ctx == e.ctx && s.coversSlot e.ctx x.base x.span slot) ||
    !(s.narrowObjects e.ctx slot).isEmpty || s.outstanding eng (BitVec.allOnes 64) false before

/-- The seal of a spawn is written; its register takes the id 132 cycles later (R339). -/
def State.spawnSeal (s : State) (w : Wait) (slot dest : Nat) : State :=
  let id := if (Store.get .idle s.launch.slots slot).busy then none else some 0
  let s := s.perform [(512 * slot + 511, 1)]
  let kind := WaitKind.spawned (s.clock.cyc + 132) slot id dest
  { s with work := { s.work with waits := s.work.waits.map fun x => if x.id = w.id then { x with kind } else x } }

/-- A spawn that its lanes have issued: they go on, and its register is pending until the id is written (R74, R339). -/
def State.startSpawn (s : State) (f : Info) (i : Issue) (live : Dword) (slot dest : Nat) : Wait × State :=
  let (id, s) := (s.commitDone i live).fresh
  let w : Wait := { id, eng := i.eng, lanes := live, pc := i.pc, insn := i.insn, len := i.len, commit := true, kind := .spawn slot dest }
  let s := s.modEngine i.eng fun e => e.bookTag f id
  (w, { s with work := { s.work with waits := s.work.waits ++ [w] } })

/-- The id of a spawn reaches its register in the lanes that issued it. -/
def State.endSpawn (s : State) (w : Wait) (dest : Nat) (v : Word) : State :=
  (s.modEngine w.eng fun e => (e.mapLanes w.lanes fun _ l => l.setReg dest v).clearTag w.id).dropWait w

/-- SPAWN: seals a launch-window slot of the context, in the first cycle in which nothing that R339 names is pending. -/
def execSpawn (g : Guard) (a : Fin 64) (d : Fin 64) (s : State) : Out :=
  gang (infoSpawn g a d) s fun i e live =>
    let slot := ((e.low live).reg a).toNat % 4096
    let c := s.context e.ctx
    if slot < c.slotFirst ∨ c.slotFirst + c.slotCount ≤ slot then .next (s.refuse i live 0 6 6 0)
    else if s.holdsSlot e slot then .next (s.refuse i live ((s.slotRegion e slot).getD .empty).base 6 1 0)
    else
      let (w, s) := (s.pushSlot e.ctx slot).startSpawn (infoSpawn g a d) i live slot d
      .next (if s.spawnWaits i.eng e slot w.id then s else s.spawnSeal w slot d)

/-! ## Hand-off queues (R168) -/

/-- Queue q of a cluster. -/
def hqKey (cluster q : Nat) : Nat := 16 * cluster + q % 16

def State.hq (s : State) (key : Nat) : List Dword := Store.get [] s.work.handoff key

def State.setHq (s : State) (key : Nat) (l : List Dword) : State :=
  { s with work := { s.work with handoff := Store.set [] s.work.handoff key l } }

/-- The wait of the oldest taker of a queue whose context runs. -/
def State.taker (s : State) (key : Nat) : Option (Wait × Nat) :=
  firstSome (fun w => match w.kind with
    | .hqTake k d =>
      if k = key ∧ ((s.engine w.eng).map fun e => (s.context e.ctx).state) = some .active then some (w, d) else none
    | _ => none) s.work.waits

/-- Waiting takers of a queue are given its oldest entries: their lanes continue 12 cycles later (R168). -/
def State.serveTakers (s : State) (key : Nat) : Nat → State
  | 0 => s
  | n + 1 =>
    match s.hq key, s.taker key with
    | v :: rest, some (w, d) =>
      let s := (s.setHq key rest).modEngine w.eng fun e => e.mapLanes w.lanes fun _ l => l.setPair d v
      let kind := WaitKind.until_ (s.clock.cyc + 12)
      State.serveTakers
        { s with work := { s.work with waits := s.work.waits.map fun x => if x.id = w.id then { x with kind } else x } } key n
    | _, _ => s

/-- An entry enters a queue. -/
def State.hqEnter (s : State) (key : Nat) (v : Dword) : State :=
  let s := s.setHq key (s.hq key ++ [v])
  s.serveTakers key s.work.waits.length

/-- HQPOST: the pair enters the queue once earlier accesses are performed and the queue has room; a commit point (R168). -/
def execHqpost (g : Guard) (b : Fin 64) (a : Fin 64) (s : State) : Out :=
  gang (infoHqpost g b a) s fun i e live =>
    let key := hqKey e.place.clusterId ((e.low live).reg a).toNat
    let v := (e.low live).pair b
    let s' := s.commitIssue i
    if s'.outstanding i.eng live false s'.nextId || decide (32 ≤ (s.hq key).length) then
      .next (s'.sleep i.eng live i.pc i.insn i.len true (.hqPost key v)).2
    else .next ((s.commitDone i live).hqEnter key v)

/-- HQTAKE: the oldest entry into the pair, or sleep until one enters (R168). -/
def execHqtake (g : Guard) (a : Fin 64) (d : Fin 64) (s : State) : Out :=
  gang (infoHqtake g a d) s fun i e live =>
    let key := hqKey e.place.clusterId ((e.low live).reg a).toNat
    let hold := s.holds i.eng e live false false
    match s.hq key, s.taker key with
    | v :: rest, none =>
      let e' := (e.mapLanes live fun _ l => l.setPair d v).advance i
      let e' := e'.book (infoHqtake g a d) s.clock.cyc 12
      .next ((s.setEngine i.eng (e'.hold hold)).setHq key rest)
    | _, _ =>
      .next (((s.passAway i).modEngine i.eng fun e => e.hold hold).sleepFor (infoHqtake g a d) i.eng live i false
        (.hqTake key d)).2

/-- HQPEEK: the number of entries (R168). -/
def execHqpeek (g : Guard) (a : Fin 64) (d : Fin 64) (s : State) : Out :=
  gang (infoHqpeek g a d) s fun i e live =>
    let n := (s.hq (hqKey e.place.clusterId ((e.low live).reg a).toNat)).length
    .next (s.setEngine i.eng ((e.setAll live d (BitVec.ofNat 32 n)).retire (infoHqpeek g a d) i live s.clock.cyc))

/-! ## Sleep and yield (R169) -/

/-- One lane asleep until its cycle; a cycle that has come lets it go on at once. -/
def State.sleepLane (s : State) (i : Issue) (k t : Nat) : State :=
  let m : Dword := (1 : Dword) <<< k
  if t ≤ s.clock.cyc then s.modEngine i.eng fun e => e.mapLanes m fun _ l => { l with pc := i.next, issued := true }
  else (s.sleep i.eng m i.pc i.insn i.len false (.until_ t)).2

/-- SLEEP_UNTIL: each live lane sleeps until CYC reaches its pair (R169). -/
def execSleepUntil (g : Guard) (a : Fin 64) (s : State) : Out :=
  gated (infoSleepUntil g a) s fun i e live =>
    .next ((e.lanesOf live).foldl (fun s kl => s.sleepLane i kl.1 (kl.2.pair a).toNat) (s.passAway i))

/-- YIELD: the gang is passed over until another gang of its core issues, or for 16 cycles (R169). -/
def execYield (g : Guard) (s : State) : Out :=
  gang (infoYield g) s fun i e _ => .next (s.setEngine i.eng { e.advance i with yieldFrom := some s.clock.cyc })

end Sys2Proof.Machine
end

