-- ==== Sys2Proof/Machine/Fetch.lean ====
section
/-! DEFINITION. How the tile fetch unit and the copy engine reach memory: translation, lines that are not at hand, the bytes
they read and the bytes they write (R165, R287, R289, R295, R296, R303, R398). -/

namespace Sys2Proof.Machine

/-- What an engine finds at an address: a location at hand, a DRAM line that L2 does not hold, a fault, a host page or line
that is requested, a line of another package, or nothing that can be reached. -/
inductive LineNeed
  | ready (loc : Nat)
  | dram (loc : Nat)
  | fault (kind level entry : Nat)
  | ats (iova : Nat)
  | host (line : Nat)
  | remote
  | dead
deriving DecidableEq, Repr

/-- Who translates for an engine of a cluster. -/
def Engine.engineAsker (e : Engine) : Asker := { last := none, core := none, cluster := e.place.clusterId, ctx := e.ctx }

/-- What an engine of a party's cluster finds at an address, for reading or for writing; `data` holds what came from another
package. -/
def State.lineNeed (s : State) (e : Engine) (write : Bool) (data : Store Byte) (va : Nat) : LineNeed :=
  match resolve s e.engineAsker (s.scratchOf e) (if write then .store else .engine) va with
  | .at_ l _ _ =>
    if isHost l then
      if write then
        if s.lineOwned (lineOf l) then .ready l
        else if s.hostReachable l then .host (lineOf l) else .dead
      else if s.lineHeld (lineOf l) then .ready l
      else if s.hostReachable l then .host (lineOf l) else .dead
    else if (if write then s.writeWaits l else !s.atHand l) then .host (lineOf l)
    else if !write && isDram l && (s.mem.l2.find? (lineOf l)).isNone then .dram l
    else .ready l
  | .fault k l n _ => .fault k l n
  | .ats v _ => .ats v
  | .remote pkg _ =>
    if write || (data.find? va).isSome then .ready (remoteLoc va)
    else if s.reachable pkg then .remote else .dead
  | .outside => .dead

/-- Whether an engine must wait for something at an address; a DRAM line is fetched in a known time. -/
def LineNeed.waits : LineNeed → Bool
  | .fault _ _ _ | .ats _ | .host _ | .remote => true
  | _ => false

/-- What an engine asks for, by a number; 0 where it asks for nothing. -/
def LineNeed.ask : LineNeed → Nat
  | .fault _ _ _ => 1
  | .ats _ => 2
  | .host _ => 3
  | .remote => 4
  | _ => 0

def LineNeed.isDram : LineNeed → Bool
  | .dram _ => true
  | _ => false

/-- Whether a page's fault report is outstanding: what waits on it waits for the verdict (R399, R400). -/
def State.reported (s : State) (ctx va : Nat) : Bool :=
  s.xlat.reports.any fun r => r.ctx == ctx && r.page == reportPage va

/-- What an engine asks for at an address that is not at hand: a fault report with ACCESS 4, an ATS translation, a host line, a
line of another package (R296, R303, R399). -/
def State.askLine (s : State) (e : Engine) (owner obj : Nat) (write : Bool) (data : Store Byte) (va : Nat) : State :=
  match s.lineNeed e write data va with
  | .fault k l n => (s.report e.ctx va k l n .engine).2
  | .ats v => s.requestAts v
  | .host l => s.askFor l write
  | .remote =>
    let line := va / 128 * 128
    if s.host.remote.any fun r => r.kind == 8 && r.wait == owner && r.addr == line then s
    else
      let (id, s) := s.fresh
      let pkg := va / 2 ^ 48 % 2 ^ 12
      let k : Packet := { s.packet id (line % 2 ^ 48) 128 with key := (s.importKey e.ctx pkg obj).getD 0, obj }
      let r : RemoteReq :=
        { id, pkg, port := 17, sent := s.clock.cyc, kind := 8, eng := 0, pc := 0, lane := 0, dest := 0, size := 7, signed := false,
          addr := line, wait := owner, resendAt := none, packet := k }
      { s with host := { s.host with remote := s.host.remote ++ [r] } }.sendPacket pkg 0 k
  | _ => s

/-- Everything that an engine needs at a list of addresses asked for. -/
def State.askLines (s : State) (e : Engine) (owner obj : Nat) (write : Bool) (data : Store Byte) (vas : List Nat) : State :=
  vas.foldl (fun s va => s.askLine e owner obj write data va) s

/-- The first byte of each 128-byte line that a run of addresses meets. -/
def lineStarts (lo len : Nat) : List Nat :=
  if len = 0 then []
  else lo :: (List.range ((lo + len - 1) / 128 - lo / 128)).map fun k => (lo / 128 + k + 1) * 128

/-- The byte that an engine reads at an address, through a region's object and version: 0 where nothing can be reached. -/
def State.engineByte (s : State) (e : Engine) (hold : Nat × Nat) (data : Store Byte) (va : Nat) : Byte :=
  match s.lineNeed e false data va with
  | .ready l | .dram l => if 2 ^ 64 ≤ l then Store.get (0 : Byte) data va else s.loadByte e.unbuffered hold.1 hold.2 (spaceOf va) l
  | _ => 0

/-- The value of little-endian bytes that an engine reads. -/
def State.engineValue (s : State) (e : Engine) (hold : Nat × Nat) (data : Store Byte) (va n : Nat) : Nat :=
  leValue ((List.range n).map fun i => s.engineByte e hold data (va + i))

/-- Whether the line at an address is poisoned, or can no longer be reached. -/
def State.enginePoison (s : State) (e : Engine) (data : Store Byte) (va : Nat) : Bool :=
  match s.lineNeed e false data va with
  | .ready l | .dram l => (s.poisonAt l 1).isSome
  | .dead => true
  | _ => false

/-- Cells removed from an L1's bytes and their lines from its lines, under every object and version (R165). -/
def Mem.dropCells (m : Mem) (core : Nat) (locs : List Nat) : Mem :=
  let lines := (locs.map lineOf).dedup
  { m with l1 := (m.l1.map fun t =>
    if t.core = core then
      { t with lines := t.lines.filter (fun l => !lines.contains l), bytes := t.bytes.filter fun c => !locs.contains c.1 }
    else t).filter fun t => !(t.lines.isEmpty && t.bytes.isEmpty) }

/-- Bytes that an engine writes at an address: at their homes, or as posted writes to another package. -/
def State.engineWrite (s : State) (eng : Nat) (e : Engine) (obj : Nat) (pc : Word) (poison : Bool) (cells : List (Nat × Byte)) : State :=
  let at_ := cells.filterMap fun c => match s.lineNeed e true [] c.1 with
    | .ready l => some (l, c.2)
    | _ => none
  let here := at_.filter fun c => decide (c.1 < 2 ^ 64)
  let away := cells.filter fun c => spaceOf c.1 == 0x4
  let s := ((here.map fun c => lineOf c.1).dedup.filter fun l => isHost (l * 128)).foldl (fun s l => s.ownLine e.place.die l) s
  let s := s.performL2 here
  let s := if poison then
      { s with mem := { s.mem with poison := ((here.map fun c => lineOf c.1) ++ s.mem.poison).dedup } } else s
  let s := { s with mem := s.mem.dropCells e.l1 (here.map Prod.fst) }
  (storeBeats 0x4 obj 0 (away.map fun c => (c.1, [(remoteLoc c.1, c.2)]))).foldl (fun s b => s.remoteStore eng e pc poison b) s

/-- Lines that L2 now holds. -/
def State.fillL2 (s : State) (locs : List Nat) : State :=
  locs.foldl (fun s l =>
    if l < 2 ^ 61 ∧ (s.mem.l2.find? (lineOf l)).isNone then
      { s with mem := { s.mem with l2 := s.mem.l2.put (lineOf l) false } }
    else s) s

end Sys2Proof.Machine
end

