-- ==== Sys2Proof/Machine/Uniform.lean ====
section
/-! DEFINITION. Integer compares, predicates, flags, masks, uniform registers and system values (R98, R100 to R105, R83). -/

namespace Sys2Proof.Machine

/-- ICMP: pd combined with a condition on S1 and S2 (R98). -/
def icmp (cond c : Nat) (signed : Bool) (a b d : Nat) (l : Lane) : Lane :=
  l.setPred d (combine c (l.pred d) (condHolds cond (intOrder signed (l.reg a) (l.reg b))))

/-- ICMP_EQ: pd combined with S1 eq S2 (R98). -/
def execIcmpEq (g : Guard) (c : Fin 4) (b : Fin 64) (a : Fin 64) (d : Fin 8) (s : State) : Out :=
  lanes (infoIcmpEq g c b a d) s (icmp 0 c false a b d)

/-- ICMP_NE: pd combined with S1 ne S2 (R98). -/
def execIcmpNe (g : Guard) (c : Fin 4) (b : Fin 64) (a : Fin 64) (d : Fin 8) (s : State) : Out :=
  lanes (infoIcmpNe g c b a d) s (icmp 1 c false a b d)

/-- ICMP_LT: pd combined with S1 lt S2 (R98). -/
def execIcmpLt (g : Guard) (c : Fin 4) (s : Fin 2) (b : Fin 64) (a : Fin 64) (d : Fin 8) (st : State) : Out :=
  lanes (infoIcmpLt g c s b a d) st (icmp 2 c (s.val == 1) a b d)

/-- ICMP_LE: pd combined with S1 le S2 (R98). -/
def execIcmpLe (g : Guard) (c : Fin 4) (s : Fin 2) (b : Fin 64) (a : Fin 64) (d : Fin 8) (st : State) : Out :=
  lanes (infoIcmpLe g c s b a d) st (icmp 3 c (s.val == 1) a b d)

/-- ICMP_GT: pd combined with S1 gt S2 (R98). -/
def execIcmpGt (g : Guard) (c : Fin 4) (s : Fin 2) (b : Fin 64) (a : Fin 64) (d : Fin 8) (st : State) : Out :=
  lanes (infoIcmpGt g c s b a d) st (icmp 4 c (s.val == 1) a b d)

/-- ICMP_GE: pd combined with S1 ge S2 (R98). -/
def execIcmpGe (g : Guard) (c : Fin 4) (s : Fin 2) (b : Fin 64) (a : Fin 64) (d : Fin 8) (st : State) : Out :=
  lanes (infoIcmpGe g c s b a d) st (icmp 5 c (s.val == 1) a b d)

/-- PAND: on predicates (R100). -/
def execPand (g : Guard) (b : Fin 64) (a : Fin 64) (d : Fin 64) (s : State) : Out :=
  lanes (infoPand g b a d) s (pred2 (fun x y => x && y) a b d)

/-- POR: on predicates (R100). -/
def execPor (g : Guard) (b : Fin 64) (a : Fin 64) (d : Fin 64) (s : State) : Out :=
  lanes (infoPor g b a d) s (pred2 (fun x y => x || y) a b d)

/-- PXOR: on predicates (R100). -/
def execPxor (g : Guard) (b : Fin 64) (a : Fin 64) (d : Fin 64) (s : State) : Out :=
  lanes (infoPxor g b a d) s (pred2 (fun x y => x != y) a b d)

/-- PANDN: on predicates (R100). -/
def execPandn (g : Guard) (b : Fin 64) (a : Fin 64) (d : Fin 64) (s : State) : Out :=
  lanes (infoPandn g b a d) s (pred2 (fun x y => x && !y) a b d)

/-- PNOT: pD := NOT pS1 (R100). -/
def execPnot (g : Guard) (a : Fin 64) (d : Fin 64) (s : State) : Out :=
  lanes (infoPnot g a d) s fun l => l.setPred d (!l.pred a)

/-- P2G: gD := p7 to p0, with bit 0 reading 1 (R100). -/
def execP2g (g : Guard) (d : Fin 64) (s : State) : Out :=
  lanes (infoP2g g d) s fun l => l.setReg d (BitVec.ofNat 32 (l.preds.toNat / 2 * 2 + 1))

/-- G2P: p7 to p1 := bits [7:1] of gS1 (R100). -/
def execG2p (g : Guard) (a : Fin 64) (s : State) : Out :=
  lanes (infoG2p g a) s fun l => { l with preds := ((l.reg a).setWidth 8) ||| 1 }

/-- PSET: pD := k (R100). -/
def execPset (g : Guard) (a : Fin 64) (d : Fin 64) (s : State) : Out :=
  lanes (infoPset g a d) s fun l => l.setPred d (a.val == 1)

/-! ## Flags (R101) -/

/-- FXRD: gD := fx (R101). -/
def execFxrd (g : Guard) (d : Fin 64) (s : State) : Out :=
  lanes (infoFxrd g d) s fun l => l.setReg d (l.fx.setWidth 32)

/-- FXCLR: fx := fx AND NOT k (R101). -/
def execFxclr (g : Guard) (b : Fin 64) (s : State) : Out :=
  lanes (infoFxclr g b) s fun l => { l with fx := l.fx &&& ~~~(BitVec.ofNat 6 b.val) }

/-- FXOR: fx := fx OR gS1[5:0]; no FPX (R101). -/
def execFxor (g : Guard) (a : Fin 64) (s : State) : Out :=
  lanes (infoFxor g a) s fun l => { l with fx := l.fx ||| (l.reg a).setWidth 6 }

/-- FXTEST: pD := (fx AND k) ≠ 0 (R101). -/
def execFxtest (g : Guard) (b : Fin 64) (d : Fin 64) (s : State) : Out :=
  lanes (infoFxtest g b d) s fun l => l.setPred d (l.fx &&& BitVec.ofNat 6 b.val != 0)

/-! ## Masks (R102, R103) -/

/-- MSET: mD := sS1:sS1+1 (R102). -/
def execMset (g : Guard) (a : Fin 64) (d : Fin 64) (s : State) : Out :=
  once (infoMset g a d) s fun e _ => e.setMask d (e.sreg (a + 1) ++ e.sreg a)

/-- MGET: gD:gD+1 := mS1 (R102). -/
def execMget (g : Guard) (a : Fin 64) (d : Fin 64) (s : State) : Out :=
  gated (infoMget g a d) s fun i e live =>
    .next (s.setEngine i.eng ((e.mapLanes live fun _ l => l.setPair d (e.mask a)).retire (infoMget g a d) i live s.clock.cyc))

/-- MAND: mD := mS1 AND mS2 (R102). -/
def execMand (g : Guard) (b : Fin 64) (a : Fin 64) (d : Fin 64) (s : State) : Out :=
  once (infoMand g b a d) s fun e _ => e.setMask d (e.mask a &&& e.mask b)

/-- MOR: mD := mS1 OR mS2 (R102). -/
def execMor (g : Guard) (b : Fin 64) (a : Fin 64) (d : Fin 64) (s : State) : Out :=
  once (infoMor g b a d) s fun e _ => e.setMask d (e.mask a ||| e.mask b)

/-- MFROMP: mD := the live lanes with pS1 true (R102). -/
def execMfromp (g : Guard) (a : Fin 64) (d : Fin 64) (s : State) : Out :=
  once (infoMfromp g a d) s fun e live =>
    e.setMask d (listMask ((e.lanesOf live).filterMap fun kl => if kl.2.pred a then some kl.1 else none))

/-! ## Uniform registers (R104) -/

/-- sD := f sS1 sS2, once. -/
def uni2 (f : Word → Word → Word) (a b d : Nat) (e : Engine) (_ : Dword) : Engine := e.setSreg d (f (e.sreg a) (e.sreg b))

/-- SADD: on s registers (R104). -/
def execSadd (g : Guard) (b : Fin 64) (a : Fin 64) (d : Fin 64) (s : State) : Out :=
  once (infoSadd g b a d) s (uni2 (fun x y => x + y) a b d)

/-- SSUB: on s registers (R104). -/
def execSsub (g : Guard) (b : Fin 64) (a : Fin 64) (d : Fin 64) (s : State) : Out :=
  once (infoSsub g b a d) s (uni2 (fun x y => x - y) a b d)

/-- SAND: on s registers (R104). -/
def execSand (g : Guard) (b : Fin 64) (a : Fin 64) (d : Fin 64) (s : State) : Out :=
  once (infoSand g b a d) s (uni2 (fun x y => x &&& y) a b d)

/-- SOR: on s registers (R104). -/
def execSor (g : Guard) (b : Fin 64) (a : Fin 64) (d : Fin 64) (s : State) : Out :=
  once (infoSor g b a d) s (uni2 (fun x y => x ||| y) a b d)

/-- SSHL: on s registers (R104). -/
def execSshl (g : Guard) (b : Fin 64) (a : Fin 64) (d : Fin 64) (s : State) : Out :=
  once (infoSshl g b a d) s (uni2 (fun x y => x <<< (y.toNat % 32)) a b d)

/-- SSHR: on s registers (R104). -/
def execSshr (g : Guard) (b : Fin 64) (a : Fin 64) (d : Fin 64) (s : State) : Out :=
  once (infoSshr g b a d) s (uni2 (fun x y => x >>> (y.toNat % 32)) a b d)

/-- S2G: gD := sS1 in each live lane (R104). -/
def execS2g (g : Guard) (a : Fin 64) (d : Fin 64) (s : State) : Out :=
  once (infoS2g g a d) s fun e live => e.setAll live d (e.sreg a)

/-- G2S: sD := gS1 of the lowest live lane (R104). -/
def execG2s (g : Guard) (a : Fin 64) (d : Fin 64) (s : State) : Out :=
  once (infoG2s g a d) s fun e live => e.setSreg d ((e.low live).reg a)

/-! ## System values (R105, R83) -/

/-- An index by its component: x, y or z of a linear index under extents (R225). -/
def component (ext : Nat × Nat × Nat) (n : Nat) : Nat → Nat
  | 0 => n % ext.1
  | 1 => n / ext.1 % ext.2.1
  | _ => n / (ext.1 * ext.2.1)

/-- The value of an SV code that stands in the engine or in the lane's logical identity (R105). -/
def svValue (st : State) (e : Engine) (k : Nat) (l : Lane) : Nat → Nat
  | 0 => k
  | 1 => component (((st.launchOf l.launch).map Launch.block).getD (1, 1, 1)) l.thread 0
  | 2 => component (((st.launchOf l.launch).map Launch.block).getD (1, 1, 1)) l.thread 1
  | 3 => component (((st.launchOf l.launch).map Launch.block).getD (1, 1, 1)) l.thread 2
  | 4 => component (((st.launchOf l.launch).map Launch.grid).getD (1, 1, 1)) l.block 0
  | 5 => component (((st.launchOf l.launch).map Launch.grid).getD (1, 1, 1)) l.block 1
  | 6 => component (((st.launchOf l.launch).map Launch.grid).getD (1, 1, 1)) l.block 2
  | 7 => if e.block.isNone then 2 ^ 32 - 1 else e.gangIndex
  | 8 => e.width
  | 9 => e.place.core
  | 10 => e.place.cluster
  | 11 => e.place.die
  | 12 => st.clock.cyc % 2 ^ 32
  | 13 => (e.cycHi.map BitVec.toNat).getD (st.clock.cyc / 2 ^ 32 % 2 ^ 32)
  | 14 => st.clock.ptime % 2 ^ 32
  | 15 => (e.ptimeHi.map BitVec.toNat).getD (st.clock.ptime / 2 ^ 32 % 2 ^ 32)
  | 16 => l.launch
  | _ => if e.haltPend then 1 else 0

/-- The latches of R83 after an SV read. -/
def svLatch (st : State) (e : Engine) : Nat → Engine
  | 12 => { e with cycHi := some (BitVec.ofNat 32 (st.clock.cyc / 2 ^ 32)) }
  | 14 => { e with ptimeHi := some (BitVec.ofNat 32 (st.clock.ptime / 2 ^ 32)) }
  | _ => e

/-- SV: gD := a system value (R105). -/
def execSv (g : Guard) (a : Fin 64) (d : Fin 64) (s : State) : Out :=
  gated (infoSv g a d) s fun i e live =>
    let e' := if live = 0 then e else svLatch s (e.mapLanes live fun k l => l.setReg d (BitVec.ofNat 32 (svValue s e k l a))) a
    .next (s.setEngine i.eng (e'.retire (infoSv g a d) i live s.clock.cyc))

end Sys2Proof.Machine
end

