-- ==== Sys2Proof/Machine/Matrix.lean ====
section
/-! DEFINITION. The tile configuration block and the matrix engine: issue checks, the operation queue, chunk values, feeds,
drains, spans and `mcommit` (R195 to R204, R20 to R23, R37, R38, R293 to R301). -/

namespace Sys2Proof.Machine

/-! ## The tile configuration block (R195, R196) -/

/-- The fields of the two words of a TCB. -/
structure Tcb where
  mt : Nat
  nt : Nat
  kstep : Nat
  afmt : Nat
  bfmt : Nat
  drm : Nat
  dph : Nat
  base : Nat
  span : Nat
  pos : Nat
deriving DecidableEq, Repr

def Tcb.of (w : Nat × Nat) : Tcb :=
  { mt := bits w.1 28 24, nt := bits w.1 20 16, kstep := bits w.1 12 0, afmt := bits w.2 31 28, bfmt := bits w.2 27 24,
    drm := bits w.2 23 21, dph := bits w.2 18 16, base := bits w.2 10 8, span := bits w.2 5 4, pos := bits w.2 1 0 }

/-- S, P and N of R196 and R200. -/
def Tcb.s (t : Tcb) : Nat := 2 ^ t.span
def Tcb.p (t : Tcb) : Nat := t.mt / t.s
def Tcb.n (t : Tcb) : Nat := t.nt * 128

/-- Rows of the part, and the first row of the part in the result. -/
def Tcb.rows (t : Tcb) : Nat := t.p * 128
def Tcb.row0 (t : Tcb) : Nat := t.pos * t.rows

/-- How many tiles the part fills (R196). -/
def Tcb.tileCount (t : Tcb) : Nat := (t.p * t.nt + 3) / 4

/-- The tiles of the part, as a mask. -/
def Tcb.tiles (t : Tcb) : Nat := ((List.range t.tileCount).map fun k => 2 ^ (t.base + k)).sum

/-- The step class of a format (R207): 1 for q4, 2 for 8-bit, 4 for 16-bit formats, 0 for the others. -/
def stepClass (fmt : Nat) : Nat := if fmt = 5 then 1 else if fmt = 3 ∨ fmt = 4 then 2 else if fmt = 1 ∨ fmt = 2 then 4 else 0

/-- The TILECFG detail of staged words that are not valid on a cluster (R196). -/
def tcbDetail (cluster : Nat) (w : Nat × Nat) : Option Nat :=
  let t := Tcb.of w
  let reserved := bits w.1 31 29 + bits w.1 23 21 + bits w.1 15 13 + bits w.2 20 19 + bits w.2 15 11 + bits w.2 7 6 + bits w.2 3 2
  if reserved ≠ 0 ∨ t.mt = 0 ∨ 16 < t.mt ∨ t.nt = 0 ∨ 8 < t.nt ∨ t.kstep = 0 ∨ 4096 < t.kstep ∨ t.span = 3 then some 1
  else if stepClass t.afmt = 0 ∨ stepClass t.afmt ≠ stepClass t.bfmt then some 2
  else if 8 < t.base + t.tileCount then some 3
  else if t.mt % t.s ≠ 0 ∨ t.pos ≠ cluster % 16 % t.s then some 4
  else none

/-- The active and the staged words of a sequencer. -/
def Engine.tcbWords (e : Engine) : Nat × Nat := ((Store.get 0 e.tcb 0).toNat, (Store.get 0 e.tcb 1).toNat)
def Engine.stagedWords (e : Engine) : Nat × Nat := ((Store.get 0 e.staged 0).toNat, (Store.get 0 e.staged 1).toNat)

/-! ## The state of a cluster's engine -/

def State.setMatrix (s : State) (cluster : Nat) (m : Matrix) : State :=
  { s with work := { s.work with matrix := s.work.matrix.put cluster m } }

/-- The cluster's cells of some tiles set to +0 (R199, R202). -/
def State.zeroTiles (s : State) (cluster tiles : Nat) : State :=
  { s with mem := { s.mem with cells := s.mem.cells.filter fun c =>
    !(decide (accLoc cluster 0 ≤ c.1) && decide (c.1 < accLoc cluster (2 ^ 21)) && tiles.testBit (c.1 % 2 ^ 21 / 2 ^ 18)) } }

/-- The exception records of some tiles cleared (R300). -/
def State.clearRecords (s : State) (cluster tiles : Nat) : State :=
  let m := s.matrix cluster
  s.setMatrix cluster { m with records := m.records.filter fun r => !tiles.testBit r.1 }

/-- Bits ORed into the exception record of a tile (R300). -/
def State.orRecord (s : State) (cluster tile v : Nat) : State :=
  if v = 0 then s
  else
    let m := s.matrix cluster
    s.setMatrix cluster { m with records := Store.set 0 m.records tile (Nat.lor (Store.get 0 m.records tile) v) }

/-- Flags ORed into a record under bit [5] or [6] (R300). -/
def recordBits (b : Nat) (f : Fx) : Nat := if f.toNat % 32 = 0 then 0 else 2 ^ b + f.toNat % 32

/-- PSN set in the records of some tiles (R299). -/
def State.poisonTiles (s : State) (cluster tiles : Nat) : State :=
  (List.range 8).foldl (fun s k => if tiles.testBit k then s.orRecord cluster k 0x80 else s) s

/-- Whether a party other than the cluster's sequencer holds a borrow of window bytes of some tiles, its answer being perhaps still on its
way, or a load from one of them has yet to return after it released its borrow (R201, R301). -/
def State.tilesHeld (s : State) (cluster tiles : Nat) : Bool :=
  (s.work.engines.any fun kv => !(kv.2.isSeq && kv.2.place.clusterId == cluster) && kv.2.regions.any fun hr =>
    hr.2.kind != .none && Nat.land (tilesOf cluster hr.2.base hr.2.extent) tiles != 0) ||
    (s.own.requests.any fun r => r.granted && Nat.land (tilesOf cluster r.base r.extent) tiles != 0) ||
    (s.matrix cluster).loads.any fun l => tiles.testBit l.1 && decide (s.clock.cyc < l.2)

/-! ## Issue (R197 to R204) -/

/-- MCFG: staged word w := cS (R199). -/
def execMcfg (g : Guard) (b : Fin 64) (a : Fin 64) (s : State) : Out :=
  gang (infoMcfg g b a) s fun i e live =>
    let e' := { e with staged := Store.set 0 e.staged b.val ((e.low live).reg a) }
    .next (s.setEngine i.eng (e'.retire (infoMcfg g b a) i live s.clock.cyc))

/-- The tiles are cleared and the staged words become active (R199, steps 3 to 5). -/
def State.commitTcb (s : State) (eng : Nat) (e : Engine) : State :=
  let c := e.place.clusterId
  let t := Tcb.of e.stagedWords
  let s := (s.zeroTiles c 0xFF).clearRecords c 0xFF
  let s := s.setMatrix c { s.matrix c with commitWait := false }
  s.modEngine eng fun e => { e with tcb := e.staged, committed := true, chained := e.chained && t.span == 0 }

/-- Where an `mcommit` stands: it waits, its words are invalid, or it commits (R199). -/
inductive CommitGo | wait | bad (detail : Nat) | go
deriving DecidableEq, Repr

def State.commitGo (s : State) (e : Engine) : CommitGo :=
  let c := e.place.clusterId
  if !(s.matrix c).queue.isEmpty then .wait
  else match tcbDetail c e.stagedWords with
    | some n => .bad n
    | none => if s.tilesHeld c 0xFF then .wait else .go

/-- MCOMMIT: waits for every earlier operation, checks the staged words and makes them active; the sequencer goes on 8 cycles
later (R199, R294). -/
def execMcommit (g : Guard) (s : State) : Out :=
  gang (infoMcommit g) s fun i e live =>
    let c := e.place.clusterId
    match s.commitGo e with
    | .bad n => .next (s.trap i .tilecfg live 0 n)
    | .go => .next (((s.commitTcb i.eng e).passAway i).sleep i.eng live i.pc i.insn i.len false (.until_ (s.clock.cyc + 8))).2
    | .wait =>
      let s := s.setMatrix c { s.matrix c with commitWait := true }
      .next ((s.passAway i).sleep i.eng live i.pc i.insn i.len false .commitTcb).2

/-- The earliest `mcommit` that waits no longer. -/
def State.commitDue (s : State) : Option (Wait × Engine) :=
  firstSome (fun w => match w.kind, s.engine w.eng with
    | .commitTcb, some e => if s.commitGo e = .wait then none else some (w, e)
    | _, _ => none) s.work.waits

/-- MCOMMIT_CLEAR: once no other party holds the window, the words become active and the tiles are cleared (R199). -/
def execMcommitClear (s : State) : Out :=
  match s.commitDue with
  | none => .next s
  | some (w, e) =>
    match s.commitGo e with
    | .bad n =>
      let c := e.place.clusterId
      let s := s.setMatrix c { s.matrix c with commitWait := false }
      .next ((s.dropWait w).raise
        { eng := w.eng, cause := .tilecfg, lanes := w.lanes, pc := w.pc, insn := w.insn, faddr := 0, detail := n })
    | _ =>
      let s := s.commitTcb w.eng e
      let kind := WaitKind.until_ (s.clock.cyc + 8)
      .next { s with work := { s.work with waits := s.work.waits.map fun x => if x.id = w.id then { x with kind } else x } }

/-- The region of a sequencer through which an operation reaches a record's bytes: its object and version, or the REASON of the
refusal (R200). -/
def Engine.cover (e : Engine) (r : TRec) (lo hi : Nat) (exclusive : Bool) : Except Nat (Nat × Nat) :=
  let own := (Store.vals e.regions).filter fun h =>
    h.obj == r.obj && h.version != 0 && (if exclusive then h.kind == .exclusive else h.kind != .none)
  if own.isEmpty then .error 1
  else match own.find? fun h => decide (h.base ≤ lo) && decide (hi ≤ h.base + h.extent) with
    | some h => .ok (h.obj, h.version)
    | none => .error 2

/-- The addresses from the first to behind the last byte of K indices [k0, k1) of rows [r0, r1) of a record of rank 2. -/
def TRec.hull (r : TRec) (k0 k1 r0 r1 : Nat) : Nat × Nat :=
  (r.base + r0 * r.str.getD 1 0 + k0 * r.size2 / 2, r.base + (r1 - 1) * r.str.getD 1 0 + (k1 * r.size2 + 1) / 2)

/-- Whether a record's format takes a band scale, and the record gives one (R21, R23). -/
def TRec.hasBands (r : TRec) : Bool := decide (3 ≤ r.fmt) && decide (r.fmt ≤ 5) && r.bandsc != 0

/-- The addresses of the band scales of rows [r0, r1) of a record (R20). -/
def TRec.bandAddrs (r : TRec) (r0 r1 : Nat) : List Nat :=
  if r.hasBands then (List.range ((r1 + 63) / 64 - r0 / 64)).map fun k => r.bandsc + 2 * (r0 / 64 + k) else []

/-- What an engine operation raises at its issue. -/
structure OpDenial where
  cause : Cause
  faddr : Nat
  detail : Nat
deriving DecidableEq, Repr

def refuseOp (r : TRec) (reason : Nat) : OpDenial := ⟨.refuse, r.base, reason * 2 ^ 24⟩

/-- FORMAT for a record that is invalid or malformed (R208). -/
def formatOp (r : TRec) : Option OpDenial := r.useDetail.map fun n => ⟨.format, r.base, n⟩

/-- The rows that one operand of an `mma` reads: the part's rows of A, every row of B. -/
def Tcb.operandRows (t : Tcb) (isA : Bool) : Nat × Nat := if isA then (t.row0, t.row0 + t.rows) else (0, t.n)

/-- The K indices that an `mma` from chunk `c` reads. -/
def Tcb.kRange (t : Tcb) (r : TRec) (c : Nat) : Nat × Nat := (32 * c, min (32 * (c + t.kstep)) (r.ext.getD 0 0))

/-- The checks of R200 before those of the span and the band scales: the regions that cover A and B, or what is raised. -/
def Engine.mmaCheck (e : Engine) (a b : TRec) (c : Nat) : Except OpDenial ((Nat × Nat) × (Nat × Nat)) :=
  let t := Tcb.of e.tcbWords
  let k := a.ext.getD 0 0
  let hull := fun (r : TRec) (isA : Bool) =>
    r.hull (t.kRange r c).1 (t.kRange r c).2 (t.operandRows isA).1 (t.operandRows isA).2
  if !e.committed then .error ⟨.tilecfg, 0, 9⟩
  else match formatOp a, formatOp b with
    | some d, _ => .error d
    | none, some d => .error d
    | none, none =>
      if a.fmt ≠ t.afmt ∨ b.fmt ≠ t.bfmt ∨ a.rank ≠ 2 ∨ b.rank ≠ 2 ∨ a.ext.getD 1 0 ≠ t.mt * 128 ∨ b.ext.getD 1 0 ≠ t.n
          ∨ k ≠ b.ext.getD 0 0 then .error ⟨.tilecfg, 0, 6⟩
      else if k ≤ 32 * c then .error ⟨.tilecfg, 0, 6⟩
      else match e.cover a (hull a true).1 (hull a true).2 false with
        | .error n => .error (refuseOp a n)
        | .ok ha => match e.cover b (hull b false).1 (hull b false).2 false with
          | .error n => .error (refuseOp b n)
          | .ok hb => .ok (ha, hb)

/-- The band scales that an `mma` uses: their first address that is not at hand, or whether one is infinite or NaN (R23). -/
inductive BandGo | ok | bad (faddr : Nat) | absent (va : Nat)
deriving DecidableEq, Repr

def State.bandGo (s : State) (e : Engine) (hold : Nat × Nat) (data : Store Byte) (r : TRec) (rows : Nat × Nat) : BandGo :=
  let l := r.bandAddrs rows.1 rows.2
  match l.find? fun va => (s.lineNeed e false data va).waits with
  | some va => .absent va
  | none => match l.find? fun va => bits (s.engineValue e hold data va 2) 14 7 == 255 with
    | some va => .bad va
    | none => .ok

/-- An operation put into a cluster's queue. -/
def State.enqueue (s : State) (cluster : Nat) (o : EngineOp) : State :=
  let (id, s) := s.fresh
  let m := s.matrix cluster
  s.setMatrix cluster { m with queue := m.queue ++ [{ o with id }] }

/-- An operation of a sequencer as it stands at its issue. -/
def Engine.op (e : Engine) (eng cyc : Nat) (at_ : Word × Word) (kind : EngineOpKind) (recA recB : List Byte) (tiles : Nat) : EngineOp :=
  { id := 0, kind, eng, pc := at_.1, insn := at_.2, recA, recB, holdA := (0, 0), holdB := (0, 0), cfg := e.tcbWords, tiles
    issue := cyc, began := none, fill := 0, extra := 0, step := 0, hand := [], pend := [], asked := [], stale := [], sick := []
    met := none, group := none, data := [] }

/-- Whether a cluster's queue has no room (R198). -/
def State.queueFull (s : State) (e : Engine) : Bool := decide (16 ≤ (s.matrix e.place.clusterId).queue.length)

/-- The bytes of a record that an operand register names. -/
def State.opRecord (s : State) (e : Engine) (t : Nat) : List Byte := s.tensorBytes e.ctx (t % 4096)

/-! ### Spans (R204, R294) -/

/-- The clusters of a sequencer's span. -/
def Engine.span (e : Engine) : List Nat :=
  let t := Tcb.of e.tcbWords
  let c := e.place.clusterId
  (List.range t.s).map fun k => c / t.s * t.s + k

/-- H of R293, by the size of the span. -/
def spanHops (size : Nat) : Nat := if size = 4 then 3 else if size = 2 then 1 else 0

/-- The streams of a span, with their numbers; none where a member has no stream. -/
def State.spanStreams (s : State) (l : List Nat) : Option (List (Nat × Engine)) := l.mapM s.streamOf

/-- The wait of a sequencer at its `mchain`, with its value. -/
def State.chainWait (s : State) (eng : Nat) : Option (Wait × Word) :=
  firstSome (fun w => match w.kind with
    | .rendezvous v => if w.eng = eng then some (w, v) else none
    | _ => none) s.work.waits

/-- The fields that must agree at a rendezvous (R204). -/
def Tcb.shared (t : Tcb) : Nat × Nat × Nat × Nat × Nat × Nat × Nat := (t.mt, t.nt, t.kstep, t.afmt, t.bfmt, t.drm, t.span)

/-- TILECFG raised by a waiting sequencer. -/
def State.raiseWait (s : State) (w : Wait) (cause : Cause) (faddr detail : Nat) : State :=
  (s.dropWait w).raise { eng := w.eng, cause, lanes := w.lanes, pc := w.pc, insn := w.insn, faddr, detail }

/-- A rendezvous whose members have all issued `mchain`: they are chained and go on 4 + 4H cycles later, or all raise TILECFG,
detail 5 (R204, R294). -/
def State.rendezvous (s : State) (e : Engine) : State :=
  match s.spanStreams e.span with
  | none => s
  | some ms =>
    let ws := ms.map fun m => (m, s.chainWait m.1)
    if ws.any fun w => w.2.isNone then s
    else
      let key := fun (w : (Nat × Engine) × Option (Wait × Word)) => ((Tcb.of w.1.2.tcbWords).shared, w.2.map Prod.snd)
      let agree := ws.all fun w => key w == key (ws.headD ((0, e), none))
      if agree then
        ws.foldl (fun s w =>
          match w.2 with
          | none => s
          | some (x, _) =>
            let c := w.1.2.place.clusterId
            let s := (s.modEngine w.1.1 fun e => { e with chained := true }).setMatrix c { s.matrix c with mmaCount := 0 }
            let kind := WaitKind.until_ (s.clock.cyc + 4 + 4 * spanHops ms.length)
            { s with work := { s.work with waits := s.work.waits.map fun y => if y.id = x.id then { y with kind } else y } }) s
      else
        ws.foldl (fun s w => match w.2 with
          | none => s
          | some (x, _) => s.raiseWait x .tilecfg 0 5) s

/-- MCHAIN: a rendezvous of the span; with S = 1 it occupies its issue slot (R204). -/
def execMchain (g : Guard) (a : Fin 64) (s : State) : Out :=
  gang (infoMchain g a) s fun i e live =>
    if (Tcb.of e.tcbWords).span = 0 then .next (s.setEngine i.eng (e.advance i))
    else
      let v := (e.low live).reg a
      let s := ((s.passAway i).sleep i.eng live i.pc i.insn i.len false (.rendezvous v)).2
      .next ((s.work.engines.filter fun kv => kv.2.isSeq && !kv.2.ended && kv.2.place.die == e.place.die
        && kv.2.span.contains e.place.clusterId).foldl (fun s kv => s.rendezvous kv.2) s)

/-- The wait of a sequencer at a chained `mma`. -/
def State.mmaWait (s : State) (eng : Nat) : Option Wait := s.work.waits.find? fun w => w.eng == eng && (match w.kind with
    | .spanMma _ _ _ _ _ _ _ => true
    | _ => false)

/-- The operands of a member's k-th chained `mma`, if it has issued it: in its queue, or at its wait. -/
def State.memberMma (s : State) (eng cluster k : Nat) : Option (Nat × Nat × Nat) :=
  let m := s.matrix cluster
  match firstSome (fun (o : EngineOp) => match o.kind with
      | .mma a b c => if o.group = some k then some (a, b, c) else none
      | _ => none) m.queue with
  | some x => some x
  | none => if m.mmaCount = k then (s.mmaWait eng).bind fun w => match w.kind with
      | .spanMma a b c _ _ _ _ => some (a, b, c)
      | _ => none
    else none

/-- An `mma` whose other checks have passed: its band scales are checked, and it is queued; a scale that is infinite or NaN
raises FORMAT, detail 8, and one that is not at hand leaves it waiting (R200). -/
inductive MmaGo | queued (s : State) | bad (faddr : Nat) | waits (va obj : Nat)

def State.mmaQueue (s : State) (w : Wait) (e : Engine) (a b c : Nat) (recA recB : List Byte) (data : Store Byte) (group : Option Nat) :
    MmaGo :=
  let t := Tcb.of e.tcbWords
  let ra := TRec.ofBytes recA
  let rb := TRec.ofBytes recB
  let (ha, hb) := match e.mmaCheck ra rb c with
    | .ok x => x
    | .error _ => ((0, 0), (0, 0))
  match s.bandGo e ha data ra (t.operandRows true), s.bandGo e hb data rb (t.operandRows false) with
  | .bad f, _ => .bad f
  | .absent va, _ => .waits va ha.1
  | .ok, .bad f => .bad f
  | .ok, .absent va => .waits va hb.1
  | .ok, .ok =>
    let cl := e.place.clusterId
    let o := { e.op w.eng s.clock.cyc (w.pc, w.insn) (.mma a b c) recA recB t.tiles with holdA := ha, holdB := hb, group }
    let s := s.enqueue cl o
    let m := s.matrix cl
    .queued (s.setMatrix cl { m with mmaCount := if group.isSome then m.mmaCount + 1 else m.mmaCount })

/-- What a waiting `mma` does now: its step group, and whether it may be queued. -/
def State.mmaGo (s : State) (w : Wait) (e : Engine) : Option MmaGo :=
  match w.kind with
  | .spanMma a b c ra rb _ data =>
    some (s.mmaQueue w e a b c ra rb data (if (Tcb.of e.tcbWords).span = 0 then none else some (s.matrix e.place.clusterId).mmaCount))
  | _ => none

/-- A line of band scales that a waiting `mma` has asked for, by what it asked (R23, R200, R295). -/
def State.askScale (s : State) (w : Wait) (e : Engine) (va obj : Nat) : State :=
  match w.kind with
  | .spanMma a b c ra rb asked data =>
    let kind := WaitKind.spanMma a b c ra rb ((va, (s.lineNeed e false data va).ask) :: asked) data
    let s := { s with work := { s.work with waits := s.work.waits.map fun (x : Wait) => if x.id = w.id then { x with kind } else x } }
    s.askLine e w.id obj false data va
  | _ => s

/-- A waiting `mma` whose step group agrees: its operation is queued and the sequencer goes on, it traps, or it asks for band scales. -/
def State.memberGo (s : State) (w : Wait) : State :=
  match s.engine w.eng with
  | none => s
  | some e => match s.mmaGo w e with
    | some (.queued s) => s.finishWait w id
    | some (.bad f) => s.raiseWait w .format f 8
    | some (.waits va obj) => s.askScale w e va obj
    | none => s

/-- A step group all of whose members have issued their `mma`: the waiting ones queue it, or raise TILECFG, detail 7, where the
operands differ (R204). -/
def State.groupMma (s : State) (e : Engine) : State :=
  match s.spanStreams e.span with
  | none => s
  | some ms =>
    let k := (s.matrix e.place.clusterId).mmaCount
    let l := ms.map fun m => (m, s.memberMma m.1 m.2.place.clusterId k)
    if l.any fun x => x.2.isNone then s
    else
      let agree := l.all fun x => x.2 == (l.headD ((0, e), none)).2
      let ws := ms.filterMap fun m => if (s.matrix m.2.place.clusterId).mmaCount = k then s.mmaWait m.1 else none
      ws.foldl (fun s w => if agree then s.memberGo w else s.raiseWait w .tilecfg 0 7) s

/-- MMA: the checks of R200; the operation enters the queue once its band scales are checked, and after its step group where the span
has more than one cluster. -/
def execMma (g : Guard) (b : Fin 64) (a : Fin 64) (s : State) : Out :=
  gang (infoMma g b a) s fun i e live =>
    let l := e.low live
    let ta := (l.reg a).toNat % 4096
    let tb := bits (l.reg a).toNat 27 16
    let c := (l.reg b).toNat % 2 ^ 20
    let ra := s.opRecord e ta
    let rb := s.opRecord e tb
    if s.queueFull e then .next s
    else match e.mmaCheck (TRec.ofBytes ra) (TRec.ofBytes rb) c with
    | .error d => .next (s.trap i d.cause live d.faddr d.detail)
    | .ok _ =>
      let alone := (Tcb.of e.tcbWords).span == 0
      if !alone && !e.chained then .next (s.trap i .tilecfg live 0 7)
      else
        let at_ : Wait := { id := 0, eng := i.eng, lanes := live, pc := i.pc, insn := i.insn, len := i.len, commit := false
                            kind := .spanMma ta tb c ra rb [] [] }
        match alone, s.mmaGo at_ e with
        | true, some (.queued s) => .next (s.modEngine i.eng fun e => e.advance i)
        | true, some (.bad f) => .next (s.trap i .format live f 8)
        | _, _ =>
          let (id, s) := (s.passAway i).sleep i.eng live i.pc i.insn i.len false at_.kind
          .next (if alone then s.memberGo { at_ with id } else s.groupMma e)

/-- The first `mma` whose band scales are at hand, or which has more to ask for (R200). -/
def State.scaleDue (s : State) : Option Wait :=
  s.work.waits.find? fun w => match w.kind, s.engine w.eng with
    | .spanMma _ _ _ _ _ asked data, some e =>
      !asked.isEmpty && (match s.mmaGo w e with
        | some (.waits va _) => !asked.contains (va, (s.lineNeed e false data va).ask) && !s.reported e.ctx va
        | _ => true)
    | _, _ => false

/-- MZERO: sets tiles to +0 and clears their records (R202). -/
def execMzero (g : Guard) (a : Fin 64) (s : State) : Out :=
  gang (infoMzero g a) s fun i e live =>
    let m := ((e.low live).reg a).toNat % 256
    if s.queueFull e then .next s
    else .next ((s.enqueue e.place.clusterId (e.op i.eng s.clock.cyc (i.pc, i.insn) (.zero m) [] [] m)).setEngine i.eng (e.advance i))

/-- The checks of `mfeed` and `mdrain`: the region that covers the part's rows of the record, or what is raised (R202, R203). -/
def Engine.partCheck (e : Engine) (r : TRec) (drain : Bool) : Except OpDenial (Nat × Nat) :=
  let t := Tcb.of e.tcbWords
  let fmtOk := decide (r.fmt ≤ 2) || (drain && (r.fmt == 3 || r.fmt == 4))
  match formatOp r with
  | some d => .error d
  | none =>
    if r.rank ≠ 2 ∨ fmtOk = false ∨ r.ext.getD 0 0 ≠ t.n ∨ r.ext.getD 1 0 ≠ t.mt * 128 ∨ t.mt = 0 then .error ⟨.tilecfg, 0, 8⟩
    else
      let h := r.hull 0 t.n t.row0 (t.row0 + t.rows)
      match e.cover r h.1 h.2 drain with
      | .error n => .error (refuseOp r n)
      | .ok x => .ok x

/-- MFEED: loads the part from a tensor (R202). -/
def execMfeed (g : Guard) (a : Fin 64) (s : State) : Out :=
  gang (infoMfeed g a) s fun i e live =>
    let t := ((e.low live).reg a).toNat % 4096
    let r := s.opRecord e t
    if s.queueFull e then .next s
    else match e.partCheck (TRec.ofBytes r) false with
      | .error d => .next (s.trap i d.cause live d.faddr d.detail)
      | .ok h =>
        let o := { e.op i.eng s.clock.cyc (i.pc, i.insn) (.feed t) r [] (Tcb.of e.tcbWords).tiles with holdA := h }
        .next ((s.enqueue e.place.clusterId o).setEngine i.eng (e.advance i))

/-- TCB1 with DPH one further, modulo 8 (R203). -/
def tcbNextDph (w : Word) : Word := BitVec.ofNat 32 (setBits w.toNat 18 16 ((bits w.toNat 18 16 + 1) % 8))

/-- MDRAIN: stores the part into a tensor; DPH advances at its issue (R203). -/
def execMdrain (g : Guard) (a : Fin 64) (s : State) : Out :=
  gang (infoMdrain g a) s fun i e live =>
    let v := (e.low live).reg a
    let t := v.toNat % 4096
    let r := s.opRecord e t
    let clear := v.getLsbD 31
    if s.queueFull e then .next s
    else match e.partCheck (TRec.ofBytes r) true with
      | .error d => .next (s.trap i d.cause live d.faddr d.detail)
      | .ok h =>
        let c := Tcb.of e.tcbWords
        let o := { e.op i.eng s.clock.cyc (i.pc, i.insn) (.drain t clear c.dph) r [] (if clear then c.tiles else 0) with holdA := h }
        let e' := { e.advance i with tcb := Store.set 0 e.tcb 1 (tcbNextDph (Store.get 0 e.tcb 1)) }
        .next ((s.enqueue e.place.clusterId o).setEngine i.eng e')

/-! ## Waiting for the engine (R204, R299) -/

/-- Whether at most `n` operations of a cluster are incomplete. -/
def State.opsAtMost (s : State) (cluster n : Nat) : Bool := decide ((s.matrix cluster).queue.length ≤ n)

/-- MWAIT: waits until at most N operations are incomplete; poison that an operation met raises POISON (R204, R299). -/
def execMwait (g : Guard) (a : Fin 64) (s : State) : Out :=
  gang (infoMwait g a) s fun i e live =>
    let n := ((e.low live).reg a).toNat % 32
    let c := e.place.clusterId
    if s.opsAtMost c n then
      match (s.matrix c).psnMet with
      | some va => .next ((s.trap i .poison live va 0).setMatrix c { s.matrix c with psnMet := none })
      | none => .next (s.setEngine i.eng (e.advance i))
    else .next ((s.passAway i).sleep i.eng live i.pc i.insn i.len false (.engineOps n)).2

/-- The waits at `mwait` of a cluster that its queue now lets go. -/
def State.wakeMwait (s : State) (cluster : Nat) : State :=
  s.work.waits.foldl (fun s w =>
    match w.kind, s.engine w.eng with
    | .engineOps n, some e =>
      if e.place.clusterId = cluster ∧ s.opsAtMost cluster n then
        match (s.matrix cluster).psnMet with
        | some va => (s.setMatrix cluster { s.matrix cluster with psnMet := none }).raiseWait w .poison va 0
        | none => s.finishWait w id
      else s
    | _, _ => s) s

/-! ## Steps and operand lines (R293 to R297) -/

/-- The addresses of the lines that a run of bytes meets. -/
def lineAddrs (lo len : Nat) : List Nat :=
  if len = 0 then [] else (List.range ((lo + len - 1) / 128 - lo / 128 + 1)).map fun k => (lo / 128 + k) * 128

/-- The lines that rows [r0, r1) and K indices [k0, k1) of a record stand in, with those of their scales. -/
def TRec.lines (r : TRec) (k0 k1 r0 r1 : Nat) : List Nat :=
  if k1 ≤ k0 then []
  else
    let rows := (List.range (r1 - r0)).map (r0 + ·)
    let data := rows.flatMap fun x =>
      let lo := r.base + x * r.str.getD 1 0 + k0 * r.size2 / 2
      lineAddrs lo (r.base + x * r.str.getD 1 0 + (k1 * r.size2 + 1) / 2 - lo)
    let blocks := if r.fmt = 5 then
        rows.flatMap fun x => lineAddrs (r.blksc + x * (r.ext.getD 0 0 / 8) + k0 / 8) ((k1 + 7) / 8 - k0 / 8)
      else []
    (data ++ blocks ++ (r.bandAddrs r0 r1).map fun a => a / 128 * 128).dedup

/-- How many steps an operation takes: one for each 128 × 128 × 32 part of an `mma`, each tile that `mzero` names, and each 1,024 elements
of a feed or drain (R293). -/
def EngineOp.steps (o : EngineOp) : Nat :=
  let t := Tcb.of o.cfg
  match o.kind with
  | .mma _ _ _ => t.kstep * t.p * t.nt
  | .zero n => ((List.range 8).filter n.testBit).length
  | .feed _ | .drain _ _ _ => (t.rows * t.n + 1023) / 1024

/-- The cycles of a step: f of R293 for an `mma`. -/
def EngineOp.pace (o : EngineOp) : Nat :=
  match o.kind with
  | .mma _ _ _ => stepClass (Tcb.of o.cfg).afmt
  | _ => 1

/-- The chunk, the block of rows and the block of columns of an `mma`'s step: chunk by chunk, and in a chunk by rows. DESIGN CHOICE (log
entry 42): the spec orders the chunks of an element and nothing else. -/
def Tcb.stepAt (t : Tcb) (c n : Nat) : Nat × Nat × Nat := (c + n / (t.p * t.nt), n / t.nt % t.p, n % t.nt)

/-- The elements of the part that a feed's or drain's step covers, by their places in row order. -/
def Tcb.stepRun (t : Tcb) (n : Nat) : List (Nat × Nat) :=
  (List.range (min 1024 (t.rows * t.n - 1024 * n))).map fun k => ((1024 * n + k) / t.n, (1024 * n + k) % t.n)

/-- The lines that a step reads, each with the object and version through which it is reached; for a drain those of its destination. In a
span the lines of B are those that the member fetches (R204, R295). -/
def EngineOp.stepLines (o : EngineOp) (n : Nat) : List (Nat × Nat × Nat) :=
  let t := Tcb.of o.cfg
  let a := TRec.ofBytes o.recA
  let b := TRec.ofBytes o.recB
  match o.kind with
  | .mma _ _ c =>
    let (ch, i, j) := t.stepAt c n
    let top := min (32 * ch + 32) (a.ext.getD 0 0)
    (a.lines (32 * ch) top (t.row0 + 128 * i) (t.row0 + 128 * i + 128)).map (·, o.holdA) ++
      (if ch % t.s = t.pos then (b.lines (32 * ch) top (128 * j) (128 * j + 128)).map (·, o.holdB) else [])
  | .zero _ => []
  | .feed _ | .drain _ _ _ =>
    let rows := (t.stepRun n).map Prod.fst
    (a.lines 0 t.n (t.row0 + rows.headD 0) (t.row0 + rows.getLastD 0 + 1)).map (·, o.holdA)

/-- The lines of every step of an operation. -/
def EngineOp.lines (o : EngineOp) : List (Nat × Nat × Nat) := ((List.range o.steps).flatMap o.stepLines).dedup

/-- The lines that the fetch unit works on: those of the step that comes next and of at most 64 steps behind it (R295). -/
def EngineOp.ahead (o : EngineOp) : List (Nat × Nat × Nat) :=
  ((List.range (min 65 (o.steps - o.step))).flatMap fun k => o.stepLines (o.step + k)).dedup

def EngineOp.isDrain (o : EngineOp) : Bool :=
  match o.kind with
  | .drain _ _ _ => true
  | _ => false

def EngineOp.isMma (o : EngineOp) : Bool :=
  match o.kind with
  | .mma _ _ _ => true
  | _ => false

/-- Whether the fetch unit holds a line. -/
def EngineOp.holds (o : EngineOp) (va : Nat) : Bool := o.hand.any fun h => h.1 == va

/-- The cycle in which an operation that has begun in `u` performs its next step, or completes after the last (R293, R296). -/
def EngineOp.slot (o : EngineOp) (u : Nat) : Nat := u + o.fill + o.extra + o.step * o.pace

/-- The set of its slice in which a line stands (R298). -/
def l2Set (loc : Nat) : Nat := Nat.xor (loc / 2048 % 4096) (loc / 2 ^ 23 % 4096)

/-- Whether the fetch unit of a cluster may pin one more line: it pins at most 4,096, and half the ways of a set (R297). -/
def State.mayPin (s : State) (die : Nat) (o : EngineOp) (loc : Nat) : Bool :=
  let near := o.hand.filter fun h => l2Set h.2 == l2Set loc && homeOf s die h.2 == homeOf s die loc
  o.isDrain || (decide (o.hand.length < 4096) && decide (near.length < 12))

/-- What the fetch unit does for a line: it takes it in its hands, waits for DRAM, or asks for what is missing. -/
inductive FetchGo | take (loc : Nat) | dram | ask (what : Nat)
deriving DecidableEq, Repr

/-- The same for one line now; `now` says that the step that comes next needs it. Such a line is taken beyond the limits of pins too. DESIGN
CHOICE (log entry 42): a step that alone exceeds them could never be performed. -/
def State.fetchGo (s : State) (e : Engine) (o : EngineOp) (now : Bool) (va : Nat) : Option FetchGo :=
  if o.holds va then none
  else
    let room := fun (l : Nat) => now || s.mayPin e.place.die o l
    match s.lineNeed e o.isDrain o.data va with
    | .ready l => if room l then some (.take l) else none
    | .dead => some (.take (2 ^ 64))
    | .dram l => match o.pend.find? fun p => p.1 == va with
      | some p => if p.2 ≤ s.clock.cyc then some (.take l) else none
      | none => if room l then some .dram else none
    | n => if o.asked.contains (va, n.ask) || s.reported e.ctx va then none else some (.ask n.ask)

/-- The farthest home of an operation's lines (R293). -/
def State.opReach (s : State) (e : Engine) (o : EngineOp) : Nat :=
  (o.lines.map fun l => match s.lineNeed e o.isDrain o.data l.1 with
    | .ready a | .dram a => if a < 2 ^ 61 then l2Latency e.place.clusterId (homeOf s e.place.die a) else 96
    | _ => 96).foldl max 96

/-- F of an operation that begins when an `mma` has just completed, or not (R293). -/
def State.opFill (s : State) (e : Engine) (o : EngineOp) (follows : Bool) : Nat :=
  match o.kind with
  | .mma _ _ _ => if follows then 0 else 40 + 4 * spanHops (Tcb.of o.cfg).s
  | .zero _ => 0
  | .feed _ | .drain _ _ _ => 16 + s.opReach e o

/-- Whether a cluster's head operation may begin, apart from its step group. -/
def State.headReady (s : State) (cluster : Nat) : Bool :=
  match (s.matrix cluster).queue with
  | o :: _ => o.began.isNone && decide (o.issue ≤ s.clock.cyc) && !s.tilesHeld cluster o.tiles
  | [] => false

/-- The clusters whose head operations begin together: a cluster alone, or the members of a step group that all stand at the
head of their queues (R294). -/
def State.beginners (s : State) (cluster : Nat) : Option (List Nat) :=
  match (s.matrix cluster).queue with
  | [] => none
  | o :: _ =>
    match o.group with
    | none => if s.headReady cluster then some [cluster] else none
    | some k =>
      let n := (Tcb.of o.cfg).s
      let l := (List.range n).map fun j => cluster / n * n + j
      if l.all fun c => s.headReady c && ((s.matrix c).queue.head?.bind EngineOp.group) == some k then some l else none

/-- The first cluster whose head operation begins now. -/
def State.beginDue (s : State) : Option (List Nat) := firstSome s.beginners (Store.keys s.work.matrix)

/-- The head operation of a cluster replaced. -/
def State.setHead (s : State) (cluster : Nat) (o : EngineOp) : State :=
  let m := s.matrix cluster
  s.setMatrix cluster { m with queue := o :: m.queue.drop 1 }

/-- F of a cluster's head operation that begins now. -/
def State.headFill (s : State) (cluster : Nat) : Nat :=
  let m := s.matrix cluster
  match m.queue with
  | [] => 0
  | o :: _ => ((s.engine o.eng).map fun e => s.opFill e o (m.lastWasMma && m.lastDone == s.clock.cyc)).getD 0

/-- ENGINE_OP_BEGIN: an operation begins in the latest of its issue cycle, the completion of the previous operation and the release of its
tiles (R293); the members of a step group begin together, and with the longest F of them (R294). -/
def execEngineOpBegin (s : State) : Out :=
  match s.beginDue with
  | none => .next s
  | some l =>
    let fill := (l.map s.headFill).foldl max 0
    .next (l.foldl (fun s c => match (s.matrix c).queue with
      | [] => s
      | o :: _ => if (s.engine o.eng).isSome then s.setHead c { o with began := some s.clock.cyc, fill }
        else s.setMatrix c { s.matrix c with queue := (s.matrix c).queue.drop 1 }) s)

/-- The operation that a cluster performs, with its engine. -/
def State.underWay (s : State) (m : Matrix) : Option (EngineOp × Engine) :=
  match m.queue with
  | o :: _ => if o.began.isSome then (s.engine o.eng).map fun e => (o, e) else none
  | [] => none

/-- What the fetch unit of a cluster does next, and for which line. -/
def State.clusterFetch (s : State) (m : Matrix) : Option (EngineOp × Engine × (Nat × Nat × Nat) × FetchGo) :=
  (s.underWay m).bind fun oe =>
    let try_ := fun (now : Bool) (l : Nat × Nat × Nat) => (s.fetchGo oe.2 oe.1 now l.1).map fun g => (oe.1, oe.2, l, g)
    if oe.1.steps ≤ oe.1.step then none
    else (firstSome (try_ true) (oe.1.stepLines oe.1.step)).or (firstSome (try_ false) oe.1.ahead)

/-- The first cluster whose fetch unit has something to do. -/
def State.fetchDue (s : State) : Option (Nat × EngineOp × Engine × (Nat × Nat × Nat) × FetchGo) :=
  firstSome (fun (kv : Nat × Matrix) => (s.clusterFetch kv.2).map fun x => (kv.1, x)) s.work.matrix

/-- Lines that L2 now holds, where DRAM has just supplied one. -/
def State.supplyLine (s : State) (e : Engine) (o : EngineOp) (va loc : Nat) : State :=
  if (s.lineNeed e o.isDrain o.data va).isDram then s.fillL2 [loc] else s

/-- The fetch unit takes a line in its hands with its bytes, starts a fetch from DRAM, or asks (R295, R296, R299). -/
def State.fetchLineGo (s : State) (c : Nat) (o : EngineOp) (e : Engine) (l : Nat × Nat × Nat) (g : FetchGo) : State :=
  match g with
  | .take loc =>
    let bs := if o.isDrain then [] else (List.range 128).map fun i => (l.1 + i, s.engineByte e l.2 o.data (l.1 + i))
    let sick := if !o.isDrain && s.enginePoison e o.data l.1 then l.1 :: o.sick else o.sick
    (s.supplyLine e o l.1 loc).setHead c { o with
      hand := (l.1, loc) :: o.hand, pend := o.pend.filter (·.1 != l.1), asked := o.asked.filter (·.1 != l.1), sick
      data := bs.foldl (fun m b => Store.put m b.1 b.2) o.data }
  | .dram => s.setHead c { o with pend := (l.1, s.clock.cyc + dramCycles) :: o.pend }
  | .ask n => (s.setHead c { o with asked := (l.1, n) :: o.asked.filter (·.1 != l.1) }).askLine e o.id l.2.1 o.isDrain o.data l.1

/-! ## Chunk values (R37, R38) -/

/-- The float format of a tensor format code (R207). -/
def fmtOf (code : Nat) : FloatFmt :=
  match code with
  | 1 => .f16 | 2 => .bf16 | 3 => .e4m3 | 4 => .e5m2 | 5 => .e2m1 | _ => .f32

/-- A block scale as m × 2^e (R22). -/
def blockScale (b : Nat) : Nat × Int :=
  if b / 32 = 0 then (b % 32, -7) else (32 + b % 32, (b / 32 : Int) - 8)

/-- An element with its block scale, exactly (R23). -/
def scaled (v : FloatVal) (b : Nat × Int) : FloatVal :=
  match v with
  | .num n m e => .num n (m * b.1) (e + b.2)
  | x => x

/-- The value of one chunk from its pairs of scaled elements and the two band scales, with its flags (R37, R38). -/
def chunkValue (pairs : List (FloatVal × FloatVal)) (bandA bandB : FloatVal) : FloatRes :=
  let prods := pairs.map fun p => (p.1.mul p.2).1
  let band := (bandA.mul bandB).1
  let pos := prods.contains (.inf false)
  let neg := prods.contains (.inf true)
  if prods.any FloatVal.isNan || (pos && neg) then FloatFmt.f32.nanRes true
  else if pos || neg then
    if band.isZero then FloatFmt.f32.nanRes true
    else ⟨FloatFmt.f32.withSign (neg != band.isNeg) FloatFmt.f32.infCode, Fx.none⟩
  else
    let d := prods.foldl (fun acc t => acc.add t.dyadic) (⟨0, 0⟩ : Dyadic)
    if d.m = 0 then ⟨FloatFmt.f32.withSign (prods.all fun t => t.isNeg && t.isZero) 0, Fx.none⟩
    else match band with
      | .num n m e => roundNum .f32 (.plain .rne) (decide (d.m < 0) != n) (d.m.natAbs * m) (d.e + e)
      | _ => FloatFmt.f32.nanRes true

/-- One accumulation step (R37, step 3). -/
def accumulate (c : Nat) (v : FloatRes) : FloatRes :=
  let r := fAdd .f32 (.plain .rne) c v.code
  ⟨r.code, r.flags ||| v.flags⟩

/-- A byte in the hands of the fetch units of a step group. -/
def handByte (ds : List (Store Byte)) (va : Nat) : Byte := (firstSome (fun (d : Store Byte) => d.find? va) ds).getD 0

/-- A little-endian value in their hands. -/
def handValue (ds : List (Store Byte)) (va n : Nat) : Nat := leValue ((List.range n).map fun i => handByte ds (va + i))

/-- The value of a band scale: 1.0 where the format takes none (R21, R23). -/
def TRec.bandScale (r : TRec) (ds : List (Store Byte)) (row : Nat) : FloatVal :=
  if r.hasBands then FloatFmt.bf16.decode (handValue ds (r.bandsc + 2 * (row / 64)) 2) else .num false 1 0

/-- Element k of a row of a record with its block scale; indices at or beyond the K extent are +0 (R37). -/
def TRec.element (r : TRec) (ds : List (Store Byte)) (row k : Nat) : FloatVal :=
  if r.ext.getD 0 0 ≤ k then .num false 0 0
  else
    let a := r.base + row * r.str.getD 1 0 + k * r.size2 / 2
    if r.fmt = 5 then
      let sc := handValue ds (r.blksc + row * (r.ext.getD 0 0 / 8) + k / 8) 1
      scaled (FloatFmt.e2m1.decode (handValue ds a 1 / 16 ^ (k % 2) % 16)) (blockScale sc)
    else (fmtOf r.fmt).decode (handValue ds a (r.size2 / 2))

/-- One element of the part after a chunk, with its flags (R200). A chunk beyond the K extent adds +0. -/
def mmaElement (a b : TRec) (ds : List (Store Byte)) (row j ch old : Nat) : FloatRes :=
  let pairs := (List.range 32).map fun k => (a.element ds row (32 * ch + k), b.element ds j (32 * ch + k))
  let band := fun (r : TRec) (x : Nat) => if r.ext.getD 0 0 ≤ 32 * ch then FloatVal.num false 1 0 else r.bandScale ds x
  accumulate old (chunkValue pairs (band a row) (band b j))

/-! ## Completion (R198 to R204, R299, R300) -/

/-- The byte of the accumulator store at which element (i, j) of a part stands (R196). -/
def Tcb.at (t : Tcb) (i j : Nat) : Nat := t.base * 262144 + (i * t.n + j) * 4

/-- The code of an element of a part. -/
def State.accValue (s : State) (cluster off : Nat) : Nat := leValue (s.mem.cells.readBytes (accLoc cluster off) 4)

/-- Elements of a part replaced by a function of the row, the column and the old code, with the flags in the tile's record under bit [5]
(R300). -/
def State.mapElements (s : State) (cluster : Nat) (t : Tcb) (l : List (Nat × Nat)) (f : Nat → Nat → Nat → FloatRes) : State :=
  l.foldl (fun s p =>
    let r := f p.1 p.2 (s.accValue cluster (t.at p.1 p.2))
    let s := { s with mem := { s.mem with cells := s.mem.cells.writeBytes (accLoc cluster (t.at p.1 p.2)) (leBytes 4 r.code) } }
    s.orRecord cluster (t.at p.1 p.2 / 262144) (recordBits 5 r.flags)) s

/-- The drain roundings (R195). -/
def drainMode (n : Nat) : RoundMode :=
  match n with
  | 1 => .rz | 2 => .rd | 3 => .ru | 4 => .sd | 5 => .rneSat | 6 => .sdSat | 7 => .rna | _ => .rne

/-- One element as a drain converts it (R203). -/
def drainValue (t : Tcb) (fmt dph j old : Nat) : FloatRes :=
  cvtVal (.float (fmtOf fmt)) ⟨drainMode t.drm, j % 8, dph⟩ (FloatFmt.f32.decode old)

/-- A drain's stores and records (R203, R299). -/
def State.drainPart (s : State) (e : Engine) (o : EngineOp) (dph : Nat) (poison : Bool) : State :=
  let t := Tcb.of o.cfg
  let r := TRec.ofBytes o.recA
  let c := e.place.clusterId
  (List.range t.rows).foldl (fun s' i =>
    let row := (List.range t.n).map fun j => drainValue t r.fmt dph j (s.accValue c (t.at i j))
    let a := r.base + (t.row0 + i) * r.str.getD 1 0
    let cells := row.zipIdx.flatMap fun p => cellsAt (a + p.2 * (r.size2 / 2)) (leBytes (r.size2 / 2) p.1.code)
    let s' := s'.engineWrite o.eng e o.holdA.1 o.pc poison cells
    row.zipIdx.foldl (fun s' p => s'.orRecord c (t.at i p.2 / 262144) (recordBits 6 p.1.flags)) s') s

/-- The part of an `mma`'s step, in row order. -/
def Tcb.block (i j : Nat) : List (Nat × Nat) :=
  (List.range 16384).map fun k => (128 * i + k / 128, 128 * j + k % 128)

/-- The results of a step, from the bytes in the hands of its step group (R296, R299). -/
def State.stepEffect (s : State) (e : Engine) (o : EngineOp) (ds : List (Store Byte)) (poison : Bool) : State :=
  let t := Tcb.of o.cfg
  let c := e.place.clusterId
  let a := TRec.ofBytes o.recA
  let s := match o.kind with
    | .mma _ _ c0 =>
      let (ch, i, j) := t.stepAt c0 o.step
      s.mapElements c t (Tcb.block i j) fun i j old => mmaElement a (TRec.ofBytes o.recB) ds (t.row0 + i) j ch old
    | .zero n =>
      let k := 2 ^ (((List.range 8).filter n.testBit).getD o.step 0)
      (s.zeroTiles c k).clearRecords c k
    | .feed _ => s.mapElements c t (t.stepRun o.step) fun i j _ =>
        cvtVal (.float .f32) (.plain .rne) ((fmtOf a.fmt).decode (handValue ds
          (a.base + (t.row0 + i) * a.str.getD 1 0 + j * (a.size2 / 2)) (a.size2 / 2)))
    | .drain _ _ _ => s
  if poison then s.poisonTiles c t.tiles else s

/-- An operation after a step: what no later step of its look-ahead needs is unpinned, and what the host has taken back is let go for a
later step to fetch again (R297). -/
def EngineOp.afterStep (o : EngineOp) (met : Option Nat) : EngineOp :=
  let used := (o.stepLines o.step).map Prod.fst
  let gone := o.stale.filter used.contains
  let o := { o with step := o.step + 1, met := o.met.or met, stale := o.stale.filter fun l => !gone.contains l }
  let want := o.ahead.map Prod.fst
  let keep := fun (l : Nat) => want.contains l && !gone.contains l
  { o with
    hand := o.hand.filter fun h => keep h.1
    pend := o.pend.filter fun p => want.contains p.1
    sick := o.sick.filter keep
    data := o.data.filter fun b => keep (b.1 / 128 * 128) || (spaceOf b.1 == 0x4 && want.contains (b.1 / 128 * 128)) }

/-- The members of an operation's step group that perform it now: a cluster alone, or the members of its span (R294). -/
def State.groupOf (s : State) (cluster : Nat) (o : EngineOp) : List (Nat × EngineOp × Engine) :=
  let n := (Tcb.of o.cfg).s
  let member := fun (c : Nat) => (s.underWay (s.matrix c)).bind fun x => if x.1.group = o.group then some (c, x) else none
  match o.group with
  | none => [cluster].filterMap member
  | some _ => ((List.range n).map fun j => cluster / n * n + j).filterMap member

/-- The step group whose next step's cycle has come. -/
def State.stepDue (s : State) : Option (List (Nat × EngineOp × Engine)) :=
  firstSome (fun (kv : Nat × Matrix) => (s.underWay kv.2).bind fun oe => oe.1.began.bind fun u =>
    if oe.1.step < oe.1.steps ∧ oe.1.slot u ≤ s.clock.cyc then some (s.groupOf kv.1 oe.1) else none) s.work.matrix

/-- A step group performs its next step, or waits a whole cycle for lines that are not in its fetch units' hands (R294, R296). -/
def State.stepGo (s : State) (l : List (Nat × EngineOp × Engine)) : State :=
  let sick := firstSome (fun (x : Nat × EngineOp × Engine) => ((x.2.1.stepLines x.2.1.step).find? fun v => x.2.1.sick.contains v.1).map Prod.fst) l
  if l.all fun x => (x.2.1.stepLines x.2.1.step).all fun v => x.2.1.holds v.1 then
    l.foldl (fun s x =>
      let ds := x.2.1.data :: l.map fun y => y.2.1.data
      let s := s.stepEffect x.2.2 x.2.1 ds sick.isSome
      s.setHead x.1 (x.2.1.afterStep sick)) s
  else
    l.foldl (fun s x =>
      let wait := s.clock.cyc + 1 - x.2.1.slot (x.2.1.began.getD 0)
      s.setHead x.1 { x.2.1 with extra := x.2.1.extra + wait }) s

/-- TILE_FETCH_ARRIVE: lines come into the hands of a fetch unit or are asked for, band scales of an `mma` arrive, and the steps whose
lines are at hand are performed; a step whose lines are not waits, which adds to X (R200, R295, R296). -/
def execTileFetchArrive (s : State) : Out :=
  match s.scaleDue, s.fetchDue, s.stepDue with
  | some w, _, _ => .next (s.memberGo w)
  | none, some (c, o, e, l, g), _ => .next (s.fetchLineGo c o e l g)
  | none, none, some l => .next (s.stepGo l)
  | none, none, none => .next s

/-- What remains to be done when an operation completes: a drain's stores, and the poison that `mwait` reports (R203, R299). -/
def State.opEffect (s : State) (e : Engine) (o : EngineOp) : State :=
  let t := Tcb.of o.cfg
  let c := e.place.clusterId
  let psnTile := (List.range 8).any fun k => (t.tiles.testBit k) && bit (Store.get 0 (s.matrix c).records k) 7
  let met := match o.met, o.kind with
    | some va, _ => some va
    | none, .zero _ => none
    | none, _ => if psnTile then some (s.matrix c).psnLast else none
  let s := match o.kind with
    | .drain _ clear dph =>
      let s := s.drainPart e o dph psnTile
      if clear then s.zeroTiles c t.tiles else s
    | _ => s
  match met with
  | none => s
  | some va => s.setMatrix c { s.matrix c with psnMet := (s.matrix c).psnMet.or (some va), psnLast := va }

/-- The first cluster whose head operation completes now (R293). -/
def State.completeDue (s : State) : Option (Nat × EngineOp) :=
  firstSome (fun (kv : Nat × Matrix) => (s.underWay kv.2).bind fun oe => oe.1.began.bind fun u =>
    if oe.1.steps ≤ oe.1.step ∧ oe.1.slot u ≤ s.clock.cyc then some (kv.1, oe.1) else none) s.work.matrix

/-- ENGINE_OP_COMPLETE: the operation's results stand in the tiles or in its destination, and `mwait` is released (R293,
R198). -/
def execEngineOpComplete (s : State) : Out :=
  match s.completeDue with
  | none => .next s
  | some (c, o) =>
    let s := match s.engine o.eng with
      | some e => s.opEffect e o
      | none => s
    let m := s.matrix c
    let s := s.setMatrix c { m with queue := m.queue.drop 1, lastDone := s.clock.cyc, lastWasMma := o.isMma }
    .next (s.wakeMwait c)

/-- The location of a host line that a fetch unit holds is taken back: its bytes serve the step that comes next for it, and a later step
fetches it again (R297). -/
def State.unpinHost (s : State) (line : Nat) : State :=
  { s with work := { s.work with matrix := s.work.matrix.mapKV fun _ m =>
    { m with queue := m.queue.map fun o =>
      { o with stale := ((o.hand.filter fun h => h.2 / 128 == line).map Prod.fst) ++ o.stale } } } }

end Sys2Proof.Machine
end

