-- ==== Sys2Proof/Machine/Arbitrate.lean ====
section
/-! DEFINITION. Readiness and the choice of what issues in a cycle (R69 to R72, R79 to R81, R120, R175, R198, R309, R313). -/

namespace Sys2Proof.Machine

/-- What an engine's selected instruction is: its words, its decoding with its requirements, and the lanes in which its guard holds. -/
structure Chosen where
  issue : Issue
  instr : Option (Instr × Info)
  live : Dword

/-- The instruction in fetched bytes with its requirements; none where the words are illegal. -/
noncomputable def infoOfBytes (bytes : List Byte) : Option (Instr × Info) :=
  match decode bytes with
  | .ok (i, _) => (infoOf i).map fun f => (i, f)
  | .error _ => none

/-- The decoded words of every engine's selected program counters. -/
noncomputable def State.predecode (s : State) : State :=
  let words := s.work.engines.flatMap fun kv => if s.mayIssue kv.1 kv.2 then kv.2.selected.filterMap fun g =>
      match s.fetch kv.2 g.1 with
      | .words bs => some bs
      | _ => none
    else []
  { s with decoded := words.foldl (fun m bs => m.put (leValue bs) (infoOfBytes bs)) [] }

/-! ## Units and queues (R71, R79, R80, R175) -/

/-- The unit whose queue an instruction enters: the SFU, whatever lanes execute it; the Damask unit, where some lane executes it (R79,
R175). -/
def Info.unit (f : Info) (width : Nat) (live : Dword) : UnitUse :=
  match f.lat with
  | .sfu => .sfu (width / 16)
  | .perWidth _ num den => if live = 0 then .none else .damask (width * num / den)
  | _ => .none

/-- What a core has given out in a cycle: its lane-groups, and the service ends of its SFU and Damask queues. -/
structure Units where
  groups : Nat
  sfu : List Nat
  damask : List Nat

/-- The queues of a core as a cycle finds them: an entry is held until its service ends (R80). -/
def State.unitsOf (s : State) (core groups : Nat) : Units :=
  let held := fun (m : Store (List Nat)) => (Store.get [] m core).filter fun c => decide (s.clock.cyc < c)
  ⟨groups, held s.work.sfu, held s.work.damask⟩

/-- A queue of `cap` entries with one more, which is served for `n` cycles once those before it are, and the cycles it waits; none where
the queue is full (R80, R81). -/
def enterQueue (cap cyc n : Nat) (ends : List Nat) : Option (Nat × List Nat) :=
  if cap ≤ ends.length then none
  else
    let start := ends.foldl max cyc
    some (start - cyc, ends ++ [start + n])

/-- An instruction entering its unit's queue: the cycles it waits there (R80). -/
def Units.enter (q : Units) (cyc : Nat) : UnitUse → Option (Nat × Units)
  | .none => some (0, q)
  | .sfu n => (enterQueue 8 cyc n q.sfu).map fun r => (r.1, { q with sfu := r.2 })
  | .damask n => (enterQueue 4 cyc n q.damask).map fun r => (r.1, { q with damask := r.2 })

/-- Whether a queue that an instruction enters accepts it: the store buffer with its draining places (R309), and a release's earlier
accesses; a mailbox (R168); the pool (R120, R234); the matrix engine's queue (R198).  DESIGN CHOICE (log entry 55): it is judged as each
engine is chosen, so of two that need the last room the later one issues and finds none. -/
def State.queuesAccept (s : State) (eng : Nat) (e : Engine) (pc : Word) (live : Dword) (x : Instr) : Bool :=
  let store := fun (h : Nat) (offs : List (Nat × Nat)) (size : Nat) (rel merge : Bool) (bytes : Lane → List Byte) =>
    s.storeStart eng e live h offs size rel merge bytes != .waits
  let start : Issue := { eng, pc, lanes := live, away := 0, insn := 0, len := 4 }
  live == 0 || (match x with
    | .st _ z r x h d => store h (e.offsets live x) (sizeBytes z) (r.val == 1) true fun l => l.storeBytes d z
    | .sti _ z i h d => store h ((e.offsets live 0).map fun p => (p.1, p.2 + i.val * sizeBytes z)) (sizeBytes z) false true
        fun l => l.storeBytes d z
    | .dst _ k x h d => store (8 * k.val + h.val) (e.offsets live x) 128 false false (Lane.distBytes d)
    | .mbpost _ _ a => !s.mailboxFull ((e.lanesOf live).map fun kl => (kl.2.reg a).toNat % 4096)
    | .park _ o => s.parkReady e live (start.target o)
    | .mma _ _ _ | .mzero _ _ | .mfeed _ _ | .mdrain _ _ => !s.queueFull e
    | _ => true)

/-! ## Readiness (R71) -/

/-- The h registers of its own gang that a split writes (R72, R73, R158). -/
def Engine.childKeys (e : Engine) (live : Dword) (x : Instr) : List SbKey :=
  let kids := fun (n x h : Nat) => (List.range n).filterMap fun k =>
    if bits ((e.low live).reg (x + k / 4)).toNat (8 * (k % 4) + 7) (8 * (k % 4)) = e.gangIndex then some (SbKey.reg .h (h + k)) else none
  if live = 0 then []
  else match x with
    | .split2 _ x _ h => kids 2 x h
    | .split4 _ x _ h => kids 4 x h
    | .split8 _ x _ h => kids 8 x h
    | _ => []

/-- Whether a load of an engine would await its translation, behind which no commit point issues (R313). -/
def State.loadPends (s : State) (e : Engine) (live : Dword) (x : Instr) : Bool :=
  let pends := fun (h : Nat) (offs : List (Nat × Nat)) =>
    let parts := offs.map fun p => (p.1, (e.region h).base + p.2)
    s.xlatCycles e .load parts != 0 || (match s.reached e .load parts with
      | .go _ => false
      | _ => true)
  match x with
  | .ld _ _ _ _ x h _ | .ldv _ _ _ x h _ => pends h (e.offsets live x)
  | .ldi _ z i h _ => pends h ((e.offsets live 0).map fun p => (p.1, p.2 + i.val * sizeBytes (ldiSize z)))
  | .dld _ k x h _ => pends (8 * k.val + h.val) (e.offsets live x)
  | _ => false

/-- Whether what an instruction needs is at hand: no scoreboard entry blocks it, no register that it names is lent, no translation holds
back a commit point, and its queues accept it (R71, R74, R159, R313); words that raise ILLEGAL or PRIV need nothing. -/
def State.readyToGo (s : State) (eng : Nat) (e : Engine) (pc : Word) (live : Dword) (x : Instr) (f : Info) : Bool :=
  !f.legal e.isSeq e.regCount ||
    (!e.blocked f (e.childKeys live x) pc live && !s.lentBlocks eng e f && !(f.commit && s.xlat.pending.any fun p => p.eng == eng)
      && s.queuesAccept eng e pc live x)

/-- The instruction at a selected program counter, where its words are fetched and decoded and it is ready but for its unit's queue
(R71). -/
def State.chosen (s : State) (eng : Nat) (e : Engine) (g : Word × Dword) : Option Chosen :=
  match s.fetch e g.1 with
  | .words bs =>
    let i : Issue := { eng, pc := g.1, lanes := g.2, away := 0, insn := BitVec.ofNat 32 (leValue bs), len := bs.length }
    match s.decoded.find? (leValue bs) with
    | none => none
    | some none => some ⟨i, none, 0⟩
    | some (some (x, f)) =>
      let live := e.guarded f.guard g.2
      if s.readyToGo eng e g.1 live x f then some ⟨{ i with unit := if f.legal e.isSeq e.regCount then f.unit e.width live else .none },
        some (x, f), live⟩ else none
  | _ => none

/-- What the selected program counters of an engine ask of the instruction fetch: lines and translations. -/
def State.fetchNeeds (s : State) (eng : Nat) (e : Engine) : List (Word × Dword) → State
  | [] => s
  | g :: r =>
    let s := match s.fetch e g.1 with
      | .words _ | .never => s
      | .line l => s.fetchLine e l
      | .xlat va n => s.fetchXlat eng g.1 va n
    State.fetchNeeds s eng e r

/-! ## Pairs (R72) -/

/-- The gang-wide registers of a class that an instruction reads or writes, and the system registers: one that may raise flags reads FPM
and TMODE (R25, R72, R218, R220). -/
def Info.wide (f : Info) (write : Bool) : List SbKey :=
  ((f.refs.filter fun r => (r.cls == .s || r.cls == .m || r.cls == .h) && (if write then r.write else r.read || r.write)).flatMap
    fun r => (List.range r.len).map fun k => SbKey.reg r.cls (r.num + k)) ++
    (f.sysWrites ++ (if write then [] else f.sysReads ++ if f.fx == FxUse.raises then [0, 1] else [])).map SbKey.sys

/-- Whether the higher instruction of a pair must wait for the lower (R72), or is a commit point behind a load of the lower whose
translation is not complete (R313). -/
def State.pairConflicts (s : State) (e : Engine) (lo hi : Chosen) : Bool :=
  match lo.instr, hi.instr with
  | some (x, f), some (y, g) =>
    let writes := fun (f : Info) (c : Chosen) (z : Instr) => f.wide true ++ e.childKeys c.live z
    let uses := fun (f : Info) (c : Chosen) (z : Instr) => f.wide false ++ e.childKeys c.live z
    (writes f lo x).any (fun k => (uses g hi y).contains k) || (writes g hi y).any (fun k => (uses f lo x).contains k)
      || (g.commit && s.loadPends e lo.live x)
  | _, _ => false

/-- The issue of a chosen instruction whose unit's queue accepts it (R71, R80). -/
def Chosen.enter (c : Chosen) (cyc : Nat) (q : Units) : Option (Issue × Units) :=
  (q.enter cyc c.issue.unit).map fun r => ({ c.issue with late := r.1 }, r.2)

/-- The issues of an engine in a cycle, the lower address first (R71, R72). -/
def State.issuesOf (s : State) (eng : Nat) (e : Engine) (q : Units) : List Issue × Units :=
  let one := fun (c : Chosen) (q : Units) => match c.enter s.clock.cyc q with
    | some (i, q) => ([i], q)
    | none => ([], q)
  match e.selected.filterMap (s.chosen eng e) with
  | [a, b] =>
    match a.enter s.clock.cyc q with
    | none => one b q
    | some (i, r) =>
      if s.pairConflicts e a b then ([i], r)
      else ((i :: (one b r).1), (one b r).2)
  | [a] => one a q
  | _ => ([], q)

/-! ## The core's choice (R69) -/

/-- The order in which a core considers its gangs (R69). -/
def considerBefore (a b : Nat × Engine) : Bool :=
  let key := fun (e : Engine) => match e.lastIssue with
    | none => 0
    | some c => c + 1
  if a.2.prio ≠ b.2.prio then decide (a.2.prio < b.2.prio)
  else if key a.2 ≠ key b.2 then decide (key a.2 < key b.2)
  else decide (a.2.place.slot ≤ b.2.place.slot)

/-- The gangs of a core that issue: each takes its lane-groups if they are all free (R69). -/
def State.coreIssues (s : State) : Units → List (Nat × Engine) → List Issue
  | _, [] => []
  | q, (id, e) :: r =>
    let l := s.issuesOf id e q
    if l.1.isEmpty || Nat.land q.groups e.place.groups != 0 then State.coreIssues s q r
    else l.1 ++ State.coreIssues s { l.2 with groups := Nat.lor q.groups e.place.groups } r

/-- The engines of a unit, in the order in which the unit considers them: the units are each cluster's sequencer and then
its cores (R81). -/
def State.unitIssues (s : State) (l : List (Nat × Engine)) (cluster unit : Nat) : List Issue :=
  let mine := l.filter fun kv => kv.2.place.clusterId == cluster &&
    (if unit = 0 then kv.2.isSeq else !kv.2.isSeq && kv.2.place.core + 1 == unit)
  let held := s.work.engines.filter fun kv => kv.2.place.clusterId == cluster && !kv.2.isSeq && kv.2.place.core + 1 == unit &&
    !kv.2.ended && decide (s.clock.cyc < kv.2.slotUntil)
  s.coreIssues (s.unitsOf (cluster * 8 + (unit - 1)) (held.foldl (fun n kv => Nat.lor n kv.2.place.groups) 0))
    (sortBy considerBefore mine)

/-- Every issue of this cycle, unit by unit. -/
def State.allIssues (s : State) : List Issue :=
  let l := s.work.engines.filter fun kv => s.mayIssue kv.1 kv.2
  let clusters := sortBy (fun a b => decide (a ≤ b)) (l.map fun kv => kv.2.place.clusterId).dedup
  clusters.flatMap fun c => (List.range 9).flatMap fun u => s.unitIssues l c u

/-- The cycles for which an issue holds its gang's issue slot beyond its own (R79). -/
def UnitUse.slotCycles : UnitUse → Nat
  | .sfu n => n
  | _ => 0

/-- Engines with their last issue cycle set, and the cycle until which their issue slot is held (R69, R79). -/
def State.stampIssues (s : State) (l : List Issue) : State :=
  (l.map Issue.eng).dedup.foldl (fun s id => s.modEngine id fun e =>
    let n := ((l.filter fun i => i.eng == id).map fun i => i.unit.slotCycles).sum
    { e with lastIssue := some s.clock.cyc, slotUntil := s.clock.cyc + n }) s

/-- An issue enters its unit's queue, from which its service ends take it (R80). -/
def State.queueIssue (s : State) (i : Issue) : State :=
  match s.engine i.eng with
  | none => s
  | some e =>
    let core := e.place.coreId
    let q := s.unitsOf core 0
    match i.unit with
    | .none => s
    | .sfu n => { s with work := { s.work with sfu := s.work.sfu.put core (q.sfu ++ [s.clock.cyc + i.late + n]) } }
    | .damask n => { s with work := { s.work with damask := s.work.damask.put core (q.damask ++ [s.clock.cyc + i.late + n]) } }

/-- Whether an engine that yielded is let go by an issue of another gang of its core (R169). -/
def Engine.yieldEnds (e : Engine) (id cyc : Nat) (l : List (Nat × Engine)) : Bool :=
  match e.yieldFrom with
  | none => false
  | some t => decide (t < cyc) && l.any fun kv => kv.1 != id && !kv.2.isSeq && kv.2.place.coreId == e.place.coreId

/-- ISSUE_ARBITRATION: the instructions that issue in this cycle are chosen (R69 to R72) and enter their units' queues (R80), the fetches
that selected program counters need are started (R71), and an issue by another gang of its core ends a gang's yield (R169). -/
def execIssueArbitration (s : State) : Out :=
  let l := s.allIssues
  let live := s.work.engines.filter fun kv => s.mayIssue kv.1 kv.2
  let s := live.foldl (fun s kv => s.fetchNeeds kv.1 kv.2 kv.2.selected) s
  let s := l.foldl State.queueIssue (s.stampIssues l)
  let who := s.work.engines.filter fun kv => l.any fun i => i.eng == kv.1
  let engines := s.work.engines.mapKV fun id e =>
    if e.yieldEnds id s.clock.cyc who then { e with yieldFrom := none } else e
  .next { s with agenda := l, arbitrated := true, work := { s.work with engines } }

end Sys2Proof.Machine
end

