-- ==== Sys2Proof/Machine/Far.lean ====
section
/-! DEFINITION. Far operations and signals: their issue, their arithmetic and what they do at their home (R149 to R153, R314,
R476). -/

namespace Sys2Proof.Machine

/-! ## What a far operation does to memory (R149, R151) -/

/-- Each half of a word by a function of bf16 codes. -/
def halves (f : Nat → Nat → Nat) (m v : Word) : Word :=
  BitVec.ofNat 32 (f (m.toNat % 2 ^ 16) (v.toNat % 2 ^ 16) + f (m.toNat / 2 ^ 16) (v.toNat / 2 ^ 16) * 2 ^ 16)

/-- The memory word after a far operation of a code of R51, from the old word and the operands (R149). -/
def farApply (op : Nat) (m v w : Word) : Word :=
  let rne : Rounding := .plain (roundOfRm 0)
  match op with
  | 0 => m + v
  | 1 => BitVec.ofNat 32 (fAdd .f32 rne m.toNat v.toNat).code
  | 2 => halves (fun a b => (fAdd .bf16 rne a b).code) m v
  | 3 => minS m v
  | 4 => maxS m v
  | 5 => minN m v
  | 6 => maxN m v
  | 7 => BitVec.ofNat 32 (fMinMax .f32 false m.toNat v.toNat).code
  | 8 => BitVec.ofNat 32 (fMinMax .f32 true m.toNat v.toNat).code
  | 9 => m &&& v
  | 10 => m ||| v
  | 11 => m ^^^ v
  | 12 => v
  | 13 => if m = v then w else m
  | 14 => if v.toNat ≤ m.toNat then 0 else m + 1
  | _ => if m = 0 ∨ v.toNat < m.toNat then v else m - 1

/-- The memory doubleword after a FARO of 8 bytes (R151). -/
def faroApply (op : Nat) (m v w : Dword) : Dword :=
  match op with
  | 3 => m + v
  | 4 => v
  | 5 => if m = v then w else m
  | 6 => if m.toNat ≤ v.toNat then m else v
  | _ => if m.toNat ≤ v.toNat then v else m

/-- A word at its home changed by a far operation; waiters on a signal there are judged again. -/
def State.farAt (s : State) (op : Nat) (v w : Word) (loc : Nat) : State :=
  let m : Word := BitVec.ofNat 32 (leValue (s.readHomeBytes loc 4))
  let s := s.perform (cellsAt loc (leBytes 4 (farApply op m v w).toNat))
  s.answerWaiters (loc / 8 * 8) (s.signal (loc / 8 * 8)) s.mem.waiters

/-- A doubleword at its home changed by a FARO. -/
def State.faroAt (s : State) (op : Nat) (v w : Dword) (loc : Nat) : State :=
  s.setSignal loc (faroApply op (s.signal loc) v w)

/-! ## At the home (R150, R153, R476) -/

/-- The far operation of a lane at a program counter is performed: the lane's restart point is the next instruction (R311). -/
def Engine.farPerformed (e : Engine) (lane : Nat) (pc : Word) : Engine :=
  let l := e.lane lane
  if l.restart = pc ∧ (e.lanes.find? lane).isSome then e.setLane lane { l with restart := l.restart + 4 } else e

def State.farDone (s : State) (q : MeshReq) (lane : Nat) : State := s.modEngine q.eng fun e => e.farPerformed lane q.pc

/-- One part of a mesh request performed at its home; a wait that is not satisfied leaves a waiter there. -/
def State.performPart (s : State) (q : MeshReq) (p : MeshPart) : State × MeshPart :=
  let old := fun n => some (s.readHomeBytes p.loc n)
  let wait := fun (ge : Bool) (v : Dword) =>
    let w : SigWaiter :=
      { loc := p.loc, eng := q.eng, lane := p.lane, dest := q.dest, ge, value := v,
        legs := 70 + 2 * q.hops + 18 * q.crossings, wait := q.wait }
    if w.met (s.signal p.loc) then (s, { p with value := old 8, done := true })
    else ({ s with mem := { s.mem with waiters := s.mem.waiters ++ [w] } }, { p with done := true })
  match p.op with
  | .load z _ src =>
    let bs := (List.range (sizeBytes z)).map fun j =>
      ((src.given.find? fun o => o.1 == j).map Prod.snd).getD (s.versionByte src.obj src.version (p.loc + j))
    (s, { p with value := some bs, done := true })
  | .store bs =>
    let s := s.perform (cellsAt p.loc bs)
    (s.answerWaiters (p.loc / 8 * 8) (s.signal (p.loc / 8 * 8)) s.mem.waiters, { p with done := true })
  | .far op ret v w _ =>
    ((s.farAt op (v.setWidth 32) (w.setWidth 32) p.loc).farDone q p.lane,
      { p with value := if ret then old 4 else none, done := true })
  | .faro op _ v w size =>
    if size = 4 then
      ((s.farAt op (v.setWidth 32) (w.setWidth 32) p.loc).farDone q p.lane, { p with value := old 4, done := true })
    else ((s.faroAt op v w p.loc).farDone q p.lane, { p with value := old 8, done := true })
  | .sigAdd v => ((s.setSignal p.loc (s.signal p.loc + v)).farDone q p.lane, { p with done := true })
  | .sigMax v =>
    let m := s.signal p.loc
    ((s.setSignal p.loc (if m.toNat ≤ v.toNat then v else m)).farDone q p.lane, { p with done := true })
  | .sigTest => (s.farDone q p.lane, { p with value := old 8, done := true })
  | .sigWaitGe v => wait true v
  | .sigWaitEq v => wait false v

/-- What the lane of a part receives when its value returns. -/
def Lane.receive (l : Lane) (dest : Nat) (op : MeshOp) (bs : List Byte) : Lane :=
  match op with
  | .load z signed _ => l.loadValue dest z signed bs
  | _ => l.setRegs dest (wordsOf bs)

/-! ## Issue (R150 to R153, R314) -/

/-- A core's L1 bytes written home before a far operation on their lines, so that it acts on the newest bytes. -/
def State.spillLines (s : State) (core obj ver : Nat) (lines : List Nat) : State :=
  let t := s.mem.l1Get core obj ver
  let here := t.bytes.filter fun c => lines.contains (lineOf c.1)
  if here.isEmpty then s
  else
    let s := s.writeCells here
    { s with mem := s.mem.l1Put { t with bytes := t.bytes.filter fun c => !lines.contains (lineOf c.1) } }

/-- The lanes of a far operation at its issue: the instruction is their restart point, and they continue after it; lanes
whose guard is false only continue (R311). -/
def Engine.farIssue (e : Engine) (i : Issue) (live : Dword) : Engine :=
  ((e.advance i).mapLanes live fun _ l => { l with restart := i.pc, issued := false }).countEntry

/-- How a far operation's lanes act: the form and the operands of each lane. -/
structure FarForm where
  cls : AccessClass
  size : Nat
  acq : Bool
  rel : Bool
  sleeps : Bool
  op : Lane → MeshOp

/-- Far operations held by a DET launch for `dflush` or the kernel's end (R152). -/
def State.holdDet (s : State) (eng : Nat) (e : Engine) (pc obj : Nat) (atEnd : Bool) (parts : List MeshPart) : State :=
  parts.foldl (fun s p =>
    match p.op with
    | .far op _ v w _ =>
      let d : DetHeld :=
        { core := e.place.coreId, eng, pc, ctx := e.ctx, obj, launch := e.launch, block := (e.lane p.lane).block, gang := e.gangIndex
          lane := p.lane, seq := s.nextId, atEnd, loc := p.loc, op, v, w }
      { s with nextId := s.nextId + 1, mem := { s.mem with held := s.mem.held ++ [d] } }
    | _ => s) s

/-- DETORDER for a far operation of a DET launch (R152): detail 2 for a form that returns, detail 1 for a full buffer. -/
def State.detDenies (s : State) (e : Engine) (form : FarForm) (live : Dword) : Option Nat :=
  if !s.isDet e then none
  else match form.op (e.low live) with
    | .far _ ret _ _ _ =>
      if ret then some 2
      else if 4096 < (s.mem.held.filter fun d => d.core == e.place.coreId).length + (e.lanesOf live).length then some 1
      else none
    | .faro _ _ _ _ _ => some 2
    | _ => none

/-- Whether a far operation of a DET launch waits for the kernel's end (R152).  DESIGN CHOICE (log entry 39): the two rows name the integer
and bitwise operations and the two sums; `min.f32` and `max.f32`, which neither names, are applied at `dflush`. -/
def MeshOp.atEnd : MeshOp → Bool
  | .far op _ _ _ _ => op == 1 || op == 2
  | _ => false

/-- The packet of a far operation or signal (R418): its kind, its operation code and its operand words.  The codes are those of R149;
16 and up those of FARO; and for a signal 0 add, 1 max, 2 test, 3 wait for at least, 4 wait for equal. -/
def MeshOp.packet : MeshOp → Nat × Nat × Dword × Dword
  | .far op _ v w _ => (1, op, v, w)
  | .faro op _ v w _ => (1, 16 + op, v, w)
  | .sigAdd v => (2, 0, v, 0)
  | .sigMax v => (2, 1, v, 0)
  | .sigTest => (2, 2, 0, 0)
  | .sigWaitGe v => (2, 3, v, 0)
  | .sigWaitEq v => (2, 4, v, 0)
  | _ => (1, 0, 0, 0)

/-- A far operation or signal to another package: a packet for each lane, held until earlier writes to further packages have been
completed back (R418, R422), and a release until earlier accesses of its lanes are performed (R151). -/
def State.farRemote (s : State) (eng ctx : Nat) (pc : Word) (obj dest tag size : Nat) (rel : Bool) (parts : List (Nat × Nat × MeshOp)) :
    State :=
  parts.foldl (fun s p =>
    let (id, s) := s.fresh
    let addr := p.2.1
    let op := p.2.2
    let pkg := addr / 2 ^ 48 % 2 ^ 12
    let (kind, code, v, w) := op.packet
    let k : Packet :=
      { s.packet id (addr % 2 ^ 48) size with
        op := code, key := (s.importKey ctx pkg obj).getD 0, obj, count := Store.get 0 s.host.posted pkg
        reason := if op.returns then 1 else 0
        data := (leBytes 8 v.toNat ++ leBytes 8 w.toNat).map some }
    let q : RemoteReq :=
      { id, pkg, port := 17, sent := s.clock.cyc, kind, eng, pc, lane := p.1, dest, size,
        signed := op.returns, addr, wait := tag, resendAt := none, packet := k, rel }
    let held := rel || s.host.remote.any fun x => x.kind == 4 && x.pkg != pkg
    let s := { s with host := { s.host with remote := s.host.remote ++ [if held then { q with port := 16 } else q] } }
    if held then s else s.sendPacket pkg kind k) s

/-- The parts of a far operation with their locations. -/
def farParts (e : Engine) (form : FarForm) (ps : List Place1) : List MeshPart :=
  ps.map fun p =>
    { lane := p.lane, addr := p.addr, loc := p.loc, op := form.op (e.lane p.lane), value := none, done := false }

/-- A far operation whose page is absent (R314), or whose host page awaits ATS: held, and later accesses of its lanes wait
behind it. -/
def State.holdFar (s : State) (eng : Nat) (e : Engine) (pc dest tag seq obj : Nat) (rel : Bool) (form : FarForm) (parts : List (Nat × Nat)) :
    State :=
  let (id, s) := s.fresh
  let q : MeshReq :=
    { id, eng, pc, dest, home := 0, hops := 0, crossings := 0, order := 0, stage := .held seq, due := 0, wait := tag, obj, rel
      parts := parts.map fun p =>
        { lane := p.1, addr := p.2, loc := 0, op := form.op (e.lane p.1), value := none, done := false } }
  let s := s.modEngine eng fun e => e.holdMem true (listMask (parts.map Prod.fst)) none tag
  { s with mem := { s.mem with mesh := s.mem.mesh.put id q } }

/-- The parts of a far operation performed at the scratchpad at once, lanes ascending (R149). -/
def State.farHere (s : State) (q : MeshReq) : List MeshPart → State
  | [] => s
  | p :: r =>
    let (s, p) := s.performPart q p
    let s := match p.value with
      | some bs => if p.op.returns then s.modEngine q.eng fun e =>
          e.setLane p.lane ((e.lane p.lane).receive q.dest p.op bs) else s
      | none => s
    State.farHere s q r

/-- The scratchpad operations of an instruction performed: its registers can be read 110 cycles later (R77, R149). -/
def State.farScratch (s : State) (q : MeshReq) : State :=
  (s.farHere q q.parts).modEngine q.eng fun e => { e with sb := e.sb.map fun y =>
    if y.tag = q.wait ∧ y.due.isNone then { y with due := some (s.clock.cyc + 110), tag := 0 } else y }

/-- Whether an earlier release of some lanes still has buffered stores before it (R161, R285). -/
def Engine.fenced (e : Engine) (lanes : Dword) : Bool :=
  e.sb.any fun x => match x.key with
    | .fence l => l &&& lanes != 0
    | _ => false

/-- A far operation, FARO or SIG (R149 to R153): after the checks of R143 and of R152 it commits the gang's stores, and its operations go
to their homes, as a release once the earlier accesses of its lanes are performed; a form that waits puts its lanes to sleep. -/
def farAny (f : Info) (s : State) (h x d : Nat) (form : FarForm) : Out :=
  gated f s fun i e live =>
    if live = 0 then .next (s.setEngine i.eng (e.advance i))
    else
      let r := e.region h
      match s.denied e r form.cls form.size (e.offsets live x) with
      | some c => .next (s.trap i c.cause live c.faddr c.detail)
      | none =>
        match s.detDenies e form live with
        | some n => .next (s.trap i .detorder live r.base n)
        | none =>
          let parts := (e.offsets live x).map fun p => (p.1, r.base + p.2)
          let fenced := e.fenced live
          if spaceOf r.base = 0x4 ∧ s.reachable (r.base / 2 ^ 48 % 2 ^ 12) = false then
            .next (s.trap i .poison live (parts.headD (0, 0)).2 0)
          else
            let s := s.commit i.eng
            let e := (s.engine i.eng).getD e
            let (tag, s) := s.fresh
            let rel := (form.rel || fenced) && s.outstanding i.eng live false tag
            let s := s.setEngine i.eng (((e.farIssue i live).bookTag (if form.sleeps then { f with refs := [] } else f) tag).holdMem form.acq live none tag)
            let s :=
              if form.sleeps then
                (e.lanesOf live).foldl (fun s kl =>
                  (s.sleep i.eng (listMask [kl.1]) i.pc i.insn i.len true .signal).2) s
              else s
            match s.reached e .far parts with
            | .fault a k l n =>
              let (seq, s) := s.report e.ctx a k l n .far
              .next (s.holdFar i.eng e i.pc.toNat d tag seq r.obj rel form parts)
            | .ats vs => .next ((vs.foldl State.requestAts s).holdFar i.eng e i.pc.toNat d tag 0 r.obj rel form parts)
            | .go ps =>
              let s := s.installAll i.eng e .far parts
              let s := if cachedSpace (spaceOf r.base) then
                  s.spillLines e.l1 r.obj r.version (ps.map fun p => lineOf p.loc) else s
              if s.isDet e && form.cls == .far then
                .next (s.holdDet i.eng e i.pc.toNat r.obj (form.op (e.low live)).atEnd (farParts e form ps))
              else if spaceOf r.base = 0x4 then
                .next (s.farRemote i.eng e.ctx i.pc r.obj d tag form.size rel (parts.map fun p => (p.1, p.2, form.op (e.lane p.1))))
              else if spaceOf r.base = 0x3 then
                let q : MeshReq :=
                  { id := tag, eng := i.eng, pc := i.pc.toNat, dest := d, home := 0, hops := 0, crossings := 0, order := 0,
                    stage := if rel then .after else .queued, due := 0, wait := tag, rel, parts := farParts e form ps }
                .next (if rel then { s with mem := { s.mem with mesh := s.mem.mesh.put tag q } } else s.farScratch q)
              else .next (s.meshSend i.eng e i.pc.toNat d tag r.obj rel (farParts e form ps))

/-- The form of FAR with an operation code (R149). -/
def farForm (op d : Nat) (ret : Bool) : FarForm :=
  { cls := .far, size := 4, acq := false, rel := false, sleeps := false
    op := fun l => .far op ret ((l.reg d).setWidth 64) ((l.reg (d + 1)).setWidth 64) 4 }

/-- The form of a FARO of 4 bytes, by the FAR code of its operation; order 0 rlx, 1 acq, 2 rel, 3 acqrel (R151). -/
def faroForm32 (op d order : Nat) : FarForm :=
  { cls := .far, size := 4, acq := order % 2 == 1, rel := decide (2 ≤ order), sleeps := false
    op := fun l => .faro op order ((l.reg d).setWidth 64) ((l.reg (d + 1)).setWidth 64) 4 }

/-- The form of a FARO of 8 bytes (R151). -/
def faroForm64 (op d order : Nat) : FarForm :=
  { cls := .far, size := 8, acq := order % 2 == 1, rel := decide (2 ≤ order), sleeps := false
    op := fun l => .faro op order (l.pair d) (l.pair (d + 2)) 8 }

/-- The form of a signal instruction (R153). -/
def sigForm (d : Nat) (sleeps : Bool) (op : Dword → MeshOp) : FarForm :=
  { cls := .signal, size := 8, acq := false, rel := false, sleeps, op := fun l => op (l.pair d) }

/-! ## The instructions -/

/-- FAR_ADD_S32: one far operation in each live lane, code 0, returning the old value where t is set (R149). -/
def execFarAddS32 (g : Guard) (t : Fin 2) (x : Fin 64) (h : Fin 16) (d : Fin 64) (s : State) : Out :=
  farAny (infoFarAddS32 g t x h d) s h x d (farForm 0 d (t.val == 1))

/-- FAR_ADD_F32: one far operation in each live lane, code 1, returning the old value where t is set (R149). -/
def execFarAddF32 (g : Guard) (t : Fin 2) (x : Fin 64) (h : Fin 16) (d : Fin 64) (s : State) : Out :=
  farAny (infoFarAddF32 g t x h d) s h x d (farForm 1 d (t.val == 1))

/-- FAR_ADD_BF16X2: one far operation in each live lane, code 2, returning the old value where t is set (R149). -/
def execFarAddBf16x2 (g : Guard) (t : Fin 2) (x : Fin 64) (h : Fin 16) (d : Fin 64) (s : State) : Out :=
  farAny (infoFarAddBf16x2 g t x h d) s h x d (farForm 2 d (t.val == 1))

/-- FAR_MIN_S32: one far operation in each live lane, code 3, returning the old value where t is set (R149). -/
def execFarMinS32 (g : Guard) (t : Fin 2) (x : Fin 64) (h : Fin 16) (d : Fin 64) (s : State) : Out :=
  farAny (infoFarMinS32 g t x h d) s h x d (farForm 3 d (t.val == 1))

/-- FAR_MAX_S32: one far operation in each live lane, code 4, returning the old value where t is set (R149). -/
def execFarMaxS32 (g : Guard) (t : Fin 2) (x : Fin 64) (h : Fin 16) (d : Fin 64) (s : State) : Out :=
  farAny (infoFarMaxS32 g t x h d) s h x d (farForm 4 d (t.val == 1))

/-- FAR_MIN_N32: one far operation in each live lane, code 5, returning the old value where t is set (R149). -/
def execFarMinN32 (g : Guard) (t : Fin 2) (x : Fin 64) (h : Fin 16) (d : Fin 64) (s : State) : Out :=
  farAny (infoFarMinN32 g t x h d) s h x d (farForm 5 d (t.val == 1))

/-- FAR_MAX_N32: one far operation in each live lane, code 6, returning the old value where t is set (R149). -/
def execFarMaxN32 (g : Guard) (t : Fin 2) (x : Fin 64) (h : Fin 16) (d : Fin 64) (s : State) : Out :=
  farAny (infoFarMaxN32 g t x h d) s h x d (farForm 6 d (t.val == 1))

/-- FAR_MIN_F32: one far operation in each live lane, code 7, returning the old value where t is set (R149). -/
def execFarMinF32 (g : Guard) (t : Fin 2) (x : Fin 64) (h : Fin 16) (d : Fin 64) (s : State) : Out :=
  farAny (infoFarMinF32 g t x h d) s h x d (farForm 7 d (t.val == 1))

/-- FAR_MAX_F32: one far operation in each live lane, code 8, returning the old value where t is set (R149). -/
def execFarMaxF32 (g : Guard) (t : Fin 2) (x : Fin 64) (h : Fin 16) (d : Fin 64) (s : State) : Out :=
  farAny (infoFarMaxF32 g t x h d) s h x d (farForm 8 d (t.val == 1))

/-- FAR_AND: one far operation in each live lane, code 9, returning the old value where t is set (R149). -/
def execFarAnd (g : Guard) (t : Fin 2) (x : Fin 64) (h : Fin 16) (d : Fin 64) (s : State) : Out :=
  farAny (infoFarAnd g t x h d) s h x d (farForm 9 d (t.val == 1))

/-- FAR_OR: one far operation in each live lane, code 10, returning the old value where t is set (R149). -/
def execFarOr (g : Guard) (t : Fin 2) (x : Fin 64) (h : Fin 16) (d : Fin 64) (s : State) : Out :=
  farAny (infoFarOr g t x h d) s h x d (farForm 10 d (t.val == 1))

/-- FAR_XOR: one far operation in each live lane, code 11, returning the old value where t is set (R149). -/
def execFarXor (g : Guard) (t : Fin 2) (x : Fin 64) (h : Fin 16) (d : Fin 64) (s : State) : Out :=
  farAny (infoFarXor g t x h d) s h x d (farForm 11 d (t.val == 1))

/-- FAR_EXCH: one far operation in each live lane, code 12, returning the old value where t is set (R149). -/
def execFarExch (g : Guard) (t : Fin 2) (x : Fin 64) (h : Fin 16) (d : Fin 64) (s : State) : Out :=
  farAny (infoFarExch g t x h d) s h x d (farForm 12 d (t.val == 1))

/-- FAR_CAS: one far operation in each live lane, code 13, returning the old value where t is set (R149). -/
def execFarCas (g : Guard) (t : Fin 2) (x : Fin 64) (h : Fin 16) (d : Fin 64) (s : State) : Out :=
  farAny (infoFarCas g t x h d) s h x d (farForm 13 d (t.val == 1))

/-- FAR_INC_WRAP: one far operation in each live lane, code 14, returning the old value where t is set (R149). -/
def execFarIncWrap (g : Guard) (t : Fin 2) (x : Fin 64) (h : Fin 16) (d : Fin 64) (s : State) : Out :=
  farAny (infoFarIncWrap g t x h d) s h x d (farForm 14 d (t.val == 1))

/-- FAR_DEC_WRAP: one far operation in each live lane, code 15, returning the old value where t is set (R149). -/
def execFarDecWrap (g : Guard) (t : Fin 2) (x : Fin 64) (h : Fin 16) (d : Fin 64) (s : State) : Out :=
  farAny (infoFarDecWrap g t x h d) s h x d (farForm 15 d (t.val == 1))

/-- FARO_ADD_S32: the old value is returned; ordered by w (R151). -/
def execFaroAddS32 (g : Guard) (w : Fin 4) (x : Fin 64) (h : Fin 16) (d : Fin 64) (s : State) : Out :=
  farAny (infoFaroAddS32 g w x h d) s h x d (faroForm32 0 d w)

/-- FARO_EXCH_B32: the old value is returned; ordered by w (R151). -/
def execFaroExchB32 (g : Guard) (w : Fin 4) (x : Fin 64) (h : Fin 16) (d : Fin 64) (s : State) : Out :=
  farAny (infoFaroExchB32 g w x h d) s h x d (faroForm32 12 d w)

/-- FARO_CAS_B32: the old value is returned; ordered by w (R151). -/
def execFaroCasB32 (g : Guard) (w : Fin 4) (x : Fin 64) (h : Fin 16) (d : Fin 64) (s : State) : Out :=
  farAny (infoFaroCasB32 g w x h d) s h x d (faroForm32 13 d w)

/-- FARO_ADD_N64: the old value is returned; ordered by w (R151). -/
def execFaroAddN64 (g : Guard) (w : Fin 4) (x : Fin 64) (h : Fin 16) (d : Fin 64) (s : State) : Out :=
  farAny (infoFaroAddN64 g w x h d) s h x d (faroForm64 3 d w)

/-- FARO_EXCH_B64: the old value is returned; ordered by w (R151). -/
def execFaroExchB64 (g : Guard) (w : Fin 4) (x : Fin 64) (h : Fin 16) (d : Fin 64) (s : State) : Out :=
  farAny (infoFaroExchB64 g w x h d) s h x d (faroForm64 4 d w)

/-- FARO_CAS_B64: the old value is returned; ordered by w (R151). -/
def execFaroCasB64 (g : Guard) (w : Fin 4) (x : Fin 64) (h : Fin 16) (d : Fin 64) (s : State) : Out :=
  farAny (infoFaroCasB64 g w x h d) s h x d (faroForm64 5 d w)

/-- FARO_MIN_N64: the old value is returned; ordered by w (R151). -/
def execFaroMinN64 (g : Guard) (w : Fin 4) (x : Fin 64) (h : Fin 16) (d : Fin 64) (s : State) : Out :=
  farAny (infoFaroMinN64 g w x h d) s h x d (faroForm64 6 d w)

/-- FARO_MAX_N64: the old value is returned; ordered by w (R151). -/
def execFaroMaxN64 (g : Guard) (w : Fin 4) (x : Fin 64) (h : Fin 16) (d : Fin 64) (s : State) : Out :=
  farAny (infoFaroMaxN64 g w x h d) s h x d (faroForm64 7 d w)

/-- SIG_ADD: m := m + v modulo 2^64 (R153). -/
def execSigAdd (g : Guard) (x : Fin 64) (h : Fin 16) (d : Fin 64) (s : State) : Out :=
  farAny (infoSigAdd g x h d) s h x d (sigForm d false .sigAdd)

/-- SIG_MAX: m := max(m, v) as n64 (R153). -/
def execSigMax (g : Guard) (x : Fin 64) (h : Fin 16) (d : Fin 64) (s : State) : Out :=
  farAny (infoSigMax g x h d) s h x d (sigForm d false .sigMax)

/-- SIG_WAIT_GE: the lane sleeps until m[62:0] ≥ v[62:0] or m[63] = 1, and receives m (R153). -/
def execSigWaitGe (g : Guard) (x : Fin 64) (h : Fin 16) (d : Fin 64) (s : State) : Out :=
  farAny (infoSigWaitGe g x h d) s h x d (sigForm d true .sigWaitGe)

/-- SIG_WAIT_EQ: the lane sleeps until m = v or m[63] = 1, and receives m (R153). -/
def execSigWaitEq (g : Guard) (x : Fin 64) (h : Fin 16) (d : Fin 64) (s : State) : Out :=
  farAny (infoSigWaitEq g x h d) s h x d (sigForm d true .sigWaitEq)

/-- SIG_TEST: the current m to the pair (R153). -/
def execSigTest (g : Guard) (x : Fin 64) (h : Fin 16) (d : Fin 64) (s : State) : Out :=
  farAny (infoSigTest g x h d) s h x d (sigForm d false fun _ => .sigTest)

end Sys2Proof.Machine
end

