-- ==== Sys2Proof/Machine/Inbound.lean ====
section
/-! DEFINITION. Accesses that arrive from other packages: their way to a home slice, the faults that hold them and the answers that
leave (R410, R418, R421 to R423, R425). -/

namespace Sys2Proof.Machine

/-- The cluster at which a port stands (R417). -/
def portCluster (port : Nat) : Nat := 16 * (port / 4 % 4) + ([0, 3, 12, 15].getD (port % 4) 0)

/-- An access of another package, by its number. -/
def State.inboundOf (s : State) (id : Nat) : Option HeldInbound := s.xlat.inbound.find? fun x => x.id == id

def State.dropInbound (s : State) (id : Nat) : State :=
  { s with xlat := { s.xlat with inbound := s.xlat.inbound.filter fun x => x.id != id } }

def State.setInbound (s : State) (x : HeldInbound) : State :=
  { s with xlat := { s.xlat with inbound := s.xlat.inbound.map fun y => if y.id = x.id then x else y } }

/-- The context in whose name a request translates: its engine's, or an inbound access's. -/
def State.reqCtx (s : State) (q : MeshReq) : Nat :=
  if q.eng = 0 then ((s.inboundOf q.wait).map HeldInbound.ctx).getD 0 else ((s.engine q.eng).map Engine.ctx).getD 0

/-- An answer to a packet: routed afresh to its sender, with the sender's identifier (R418, R420). -/
def State.answerPacket (s : State) (p : Packet) (kind : Nat) (data : List Byte) (poison : Bool) (reason : Nat) : State :=
  s.sendPacket p.src kind { s.packet p.id p.addr p.len with data := data.map some, poison, reason }

/-- NAK reasons: 0 ABSENT, 1 FULL, 2 FATAL (R410, R425). -/
def State.nakPacket (s : State) (p : Packet) (reason : Nat) : State := s.answerPacket p 8 [] false reason

/-- The kind of access that an inbound access is. -/
def inboundKind (a : Inbound) : AccessKind :=
  match a.kind with
  | .read => .load
  | .write => .store
  | .far | .signal => .far

/-- The size code of a read of some bytes. -/
def readSize (len : Nat) : Nat := ((List.range 8).find? fun z => decide (len ≤ sizeBytes z)).getD 7

/-- The operands of a far operation or signal. -/
def packetWord (p : Packet) (k : Nat) : Dword :=
  BitVec.ofNat 64 (leValue ((List.range 8).map fun i => (p.data.getD (8 * k + i) none).getD 0))

/-- What an inbound access does at its home: each operation with its offset from the address. -/
def inboundOps (a : Inbound) : List (Nat × MeshOp) :=
  let p := a.pkt
  match a.kind with
  | .read => [(0, .load (readSize p.len) false ⟨0, 0, false, []⟩)]
  | .write =>
    let cells := p.data.zipIdx.filterMap fun b => b.1.map fun v => (p.addr % 8 + b.2, v)
    (storeUnits cells).map fun u => (u.1 - p.addr % 8, MeshOp.store u.2)
  | .far =>
    if 16 ≤ p.op then [(0, .faro (p.op - 16) 0 (packetWord p 0) (packetWord p 1) p.len)]
    else [(0, .far p.op (p.reason == 1) (packetWord p 0) (packetWord p 1) p.len)]
  | .signal =>
    match p.op with
    | 0 => [(0, .sigAdd (packetWord p 0))]
    | 1 => [(0, .sigMax (packetWord p 0))]
    | 2 => [(0, .sigTest)]
    | 3 => [(0, .sigWaitGe (packetWord p 0))]
    | _ => [(0, .sigWaitEq (packetWord p 0))]

/-- Posted writes of a package that have been performed, counted; the far operations and signals that waited for them arrive now, in
order (R422). -/
def State.countWrite (s : State) (src : Nat) : State :=
  let n := Store.get 0 s.host.performed src + 1
  let ready := fun (x : Nat × Packet) => x.2.src == src && decide (x.2.count ≤ n)
  let go := (s.host.heldPackets.filter ready).map fun x =>
    Input.inboundAccess { kind := if x.1 = 1 then .far else .signal, pkt := x.2 }
  { s with host :=
    { s.host with
      performed := s.host.performed.put src n
      heldPackets := s.host.heldPackets.filter fun x => !ready x
      inbox := go ++ s.host.inbox } }

/-- An inbound access refused for good: NAK with reason FATAL (R410); a refused write counts as performed for the order of R422. -/
def State.refuseInbound (s : State) (a : Inbound) : State :=
  let s := s.nakPacket a.pkt 2
  if a.kind = .write then s.countWrite a.pkt.src else s

/-- An inbound access translated in its context's name: it goes to its home by the mesh, behind the package's own dies; or it is held
for a fault, reported with ACCESS 5, or for the host's translation (R410, R421, R423). -/
def State.inboundGo (s : State) (x : HeldInbound) : State :=
  let p := x.acc.pkt
  let cl := portCluster p.port
  let q : Asker := { last := none, core := none, cluster := cl, ctx := x.ctx }
  match resolve s q none (inboundKind x.acc) p.addr with
  | .at_ loc n e =>
    let s := match e with
      | some e => install s q (p.addr % 2 ^ 57) e
      | none => s
    let home := homeOf s (cl / 16) loc
    let (id, s) := s.fresh
    let r : MeshReq :=
      { id, eng := 0, pc := 0, dest := 0, home, hops := hops cl home, crossings := crossings cl home, order := 2 ^ 20 + p.port
        stage := .travelling, due := s.clock.cyc + n + 40 + 2 * hops cl home + 18 * crossings cl home, wait := x.id
        parts := (inboundOps x.acc).map fun o =>
          { lane := 0, addr := p.addr + o.1, loc := loc + o.1, op := o.2, value := none, done := false } }
    { s.setInbound { x with seq := none } with mem := { s.mem with mesh := s.mem.mesh.put id r } }
  | .fault k l n _ =>
    let (seq, s) := s.report x.ctx p.addr k l n .inbound
    s.setInbound { x with seq := some seq }
  | .ats v _ => (s.requestAts v).setInbound { x with seq := some 0 }
  | _ => (s.dropInbound x.id).refuseInbound x.acc

/-- The answer to an inbound access whose request has come back: read data, a result or a completion (R418). -/
def State.inboundDone (s : State) (q : MeshReq) (poison : Bool) : State :=
  match s.inboundOf q.wait with
  | none => s
  | some x =>
    let value := firstSome (fun (p : MeshPart) => p.value) q.parts
    let s := s.dropInbound x.id
    match x.acc.kind, value with
    | .read, _ => s.answerPacket x.acc.pkt 5 ((value.getD []).take x.acc.pkt.len) poison 0
    | .write, _ => s.answerPacket x.acc.pkt 6 [] poison 0
    | _, some bs => s.answerPacket x.acc.pkt 7 bs poison 0
    | _, none => s.answerPacket x.acc.pkt (if poison ∧ x.acc.pkt.reason = 1 then 7 else 6) [] poison 0

/-- An inbound access performed at its home: writes are counted, and its answer goes back to the port; a signal's waiter stays
(R422). -/
def State.inboundServed (s : State) (q : MeshReq) (leg : Nat) : State :=
  let waits := q.parts.any fun p => match p.op with
    | .sigWaitGe _ | .sigWaitEq _ => p.value.isNone
    | _ => false
  if waits then { s with mem := { s.mem with mesh := s.mem.mesh.erase q.id } }
  else
    let s := match s.inboundOf q.wait with
      | some x => if x.acc.kind = InboundKind.write then s.countWrite x.acc.pkt.src else s
      | none => s
    { s with mem := { s.mem with mesh := s.mem.mesh.put q.id { q with stage := .returning, due := s.clock.cyc + leg } } }

end Sys2Proof.Machine
end

