-- ==== Sys2Proof/Machine/Copy.lean ====
section
/-! DEFINITION. The copy engine: issue checks, slots and promises, data movement, stalls, shadows and publishes (R164 to R167,
R268, R269, R302 to R306). -/

namespace Sys2Proof.Machine

/-! ## The checks of R164 -/

/-- Whether a region is a shared borrow of a whole object of this package. -/
def State.wholeObject (s : State) (r : Region) : Bool :=
  let x := s.entry r.obj
  r.kind == .shared && !r.child && r.version != 0 && (objPkg r.base).isNone && x.kind != .free && x.base == r.base
    && x.span == r.extent

/-- A REFUSE of a copy, by its reason; the fault address is the destination's base. -/
def refuseCopy (d : Region) (reason : Nat) : Denial := ⟨.refuse, d.base, reason * 2 ^ 24⟩

/-- The moves of a copy of kind 1: the rows of both records in dense order (R164). -/
def tensorMoves (a b : TRec) : List (Nat × Nat × Nat) :=
  let x := a.ext.getD 0 0
  (List.range (a.count / max x 1)).map fun n => (a.addr (a.coords (n * x)), b.addr (b.coords (n * x)), x * a.size2 / 2)

/-- The moves of a copy, or what its checks raise (R164).  A frozen region, or a destination made read-only, refuses the
copy's accesses as R141 and R260 say. -/
def State.copyMoves (s : State) (e : Engine) (src dst : Region) (shadow : Bool) (kind : Nat) (size : Word) :
    Except Denial (List (Nat × Nat × Nat)) :=
  let a := s.tensor e.ctx (size.toNat % 65536)
  let b := s.tensor e.ctx (size.toNat / 65536)
  let c := size.toNat
  let same := src.obj == dst.obj && objPkg src.base == objPkg dst.base && spaceOf src.base == spaceOf dst.base
  let inside := fun (r : TRec) (h : Region) => decide (h.base ≤ r.base) && decide (r.base + r.span ≤ h.base + h.extent)
  let okDst := if shadow then s.wholeObject dst else dst.kind == .exclusive
  if src.kind != .none && dst.kind != .none && (src.frozenChild || src.frozenSelf || dst.frozenChild || dst.frozenSelf) then
    .error (refuseCopy dst 3)
  else if src.kind = .none ∨ okDst = false then .error (refuseCopy dst 1)
  else if !shadow && dst.readOnly then .error (refuseCopy dst 3)
  else if kind = 0 then
    if src.extent < c ∨ dst.extent < c then .error (refuseCopy dst 2)
    else if same && rangesMeet src.base c dst.base c then .error (refuseCopy dst 8)
    else .ok (if c = 0 then [] else [(src.base, dst.base, c)])
  else match a.useDetail, b.useDetail with
    | some n, _ => .error ⟨.format, a.base, n⟩
    | none, some n => .error ⟨.format, b.base, n⟩
    | none, none =>
      if inside a src && inside b dst then
        if (same && rangesMeet a.base a.span b.base b.span) || a.fmt != b.fmt || a.rank != b.rank || a.ext != b.ext then
          .error (refuseCopy dst 8)
        else .ok (tensorMoves a b)
      else .error (refuseCopy dst 2)

/-! ## Slots (R302, R303) -/

/-- The `n` earliest cycles from `t` on, at least `pace` apart, that are not reserved. -/
def freeSlots (used : List Nat) (pace : Nat) : Nat → Nat → Nat → List Nat
  | 0, _, _ => []
  | fuel + 1, t, n =>
    if n = 0 then []
    else if used.contains t then freeSlots used pace fuel (t + 1) n
    else t :: freeSlots used pace fuel (t + pace) (n - 1)

/-- The cycles between two slots of a copy at the nominal rate of its path (R303).  DEDUCED (log entry 43): a link of Abaot carries 128 bytes in five flits a cycle
(R417, R418), CXL 128 GB/s, 1.25 cycles for 128 bytes. -/
def pathPace (moves : List (Nat × Nat × Nat)) : Nat :=
  let in_ := fun (sp : Nat) => moves.any fun m => spaceOf m.1 == sp || spaceOf m.2.1 == sp
  if in_ 0x5 then 40 else if in_ 0x4 then 32 else 1

/-- Slots of a cluster's copy engine reserved from a cycle on. -/
def State.reserveSlots (s : State) (cluster t n pace : Nat) : List Nat × State :=
  let used := (Store.get [] s.work.slots cluster).filter fun c => decide (s.clock.cyc ≤ c)
  let got := freeSlots used pace (used.length + n) t n
  (got, { s with work := { s.work with slots := Store.set [] s.work.slots cluster (used ++ got) } })

/-- Slots of a cluster's copy engine released. -/
def State.releaseSlots (s : State) (cluster : Nat) (l : List Nat) : State :=
  let used := (Store.get [] s.work.slots cluster).filter fun c => !l.contains c
  { s with work := { s.work with slots := Store.set [] s.work.slots cluster used } }

def State.setCopy (s : State) (c : Copy) : State :=
  { s with work := { s.work with copies := s.work.copies.map fun x => if x.id = c.id then c else x } }

/-- The cycles in which a cluster's queued operations complete, if nothing further holds them back (R293). -/
def State.queueEnds (s : State) : Nat → Bool → List EngineOp → List (EngineOp × Nat)
  | _, _, [] => []
  | t, follows, o :: r =>
    let u := o.began.getD (max t o.issue)
    let fill := if o.began.isSome then o.fill else ((s.engine o.eng).map fun e => s.opFill e o (follows && u == t)).getD 0
    let done := max s.clock.cyc (u + fill + o.extra + o.steps * o.pace)
    (o, done) :: State.queueEnds s done o.isMma r

/-- The first cycle in which a copy's slots may stand: 16 cycles after its issue, and after the operations that write its
destination tiles (R302, R306). -/
def State.firstSlot (s : State) (c : Copy) : Nat :=
  let cl := c.dest.base / 2 ^ 36 % 64
  let t := tilesOf cl c.dest.base c.dest.extent
  let m := s.matrix cl
  (((s.queueEnds m.lastDone m.lastWasMma m.queue).filter fun x => Nat.land x.1.tiles t != 0).map Prod.snd).foldl max (s.clock.cyc + 16)

/-- The number of data slots of a copy of `n` bytes (R302). -/
def slotCount (n : Nat) : Nat := (n + 4095) / 4096

/-! ## Acceptance (R165, R268, R302) -/

/-- The shadow of a destination claimed, with its frames of the Voile reserve; none where the reserve cannot supply them
(R268). -/
def State.claimShadow (s : State) (obj launch : Nat) : Option State :=
  let x := s.entry obj
  let c := s.context x.ctx
  if x.shadow then some s
  else if c.voilelen / 65536 < c.frames + x.voileFrames then none
  else some ((s.setEntry obj { x with shadow := true, shadowBy := launch, shadowFrames := [] }).modContext x.ctx
    fun c => { c with frames := c.frames + x.voileFrames })

/-- A copy accepted: its shadow, its slots and its promise T (R165, R302). -/
def State.acceptCopy (s : State) (c : Copy) : Nat × State :=
  let (id, s) := s.fresh
  let (s, status) := if c.shadow then
      match s.claimShadow c.dest.obj (((s.engine c.eng).map Engine.launch).getD 0) with
      | some s => (s, CopyStatus.inFlight)
      | none => (s, CopyStatus.failed)
    else (s, CopyStatus.inFlight)
  let (slots, s) := s.reserveSlots c.cluster (s.firstSlot c) (slotCount c.bytes) (pathPace c.moves)
  let t := match slots.getLast? with
    | some l => l + 1
    | none => s.clock.cyc + 16
  let c := { c with id, promise := t, slots, finish := t, status }
  let s := if status = .failed then s.releaseSlots c.cluster slots else s
  (t, { s with work :=
    { s.work with copies := s.work.copies ++ [c], lastCopy := s.work.lastCopy.put (16 * c.eng + c.destReg) id } })

/-- Whether a `copy.shadow` must wait: it would begin a new shadow while RETIRED is not 0 (R269). -/
def State.shadowWaits (s : State) (obj : Nat) : Bool := !(s.entry obj).shadow && (s.entry obj).retired != 0

/-- COPY and COPY_SHADOW (R164 to R166): a commit point; T goes to the pair of gN. -/
def copyAny (f : Info) (s : State) (shadow : Bool) (kind x hs hd : Nat) : Out :=
  gang f s fun i e live =>
    let src := e.region hs
    let dst := e.region hd
    match s.copyMoves e src dst shadow kind ((e.low live).reg x) with
    | .error d => .next (s.trap i d.cause live d.faddr d.detail)
    | .ok moves =>
      let c : Copy :=
        { id := 0, eng := i.eng, pc := i.pc, cluster := e.place.clusterId, core := e.l1, src, dest := dst, destReg := hd, shadow, moves
          bytes := (moves.map fun m => m.2.2).sum, moved := 0, promise := 0, slots := [], finish := 0, status := .inFlight
          bad := false, data := [] }
      if shadow && s.shadowWaits dst.obj then
        .next ((s.commitIssue i).sleepFor f i.eng live i true (.shadow c x)).2
      else
        let (t, s) := (s.commitDone i live).acceptCopy c
        .next (s.modEngine i.eng fun e =>
          (e.mapLanes live fun _ l => l.setPair x (BitVec.ofNat 64 t)).book f s.clock.cyc 4)

/-- COPY (R164, R165). -/
def execCopy (g : Guard) (k : Fin 8) (x : Fin 64) (s1 : Fin 16) (h : Fin 16) (s : State) : Out :=
  copyAny (infoCopy g k x s1 h) s false k x s1 h

/-- COPY_SHADOW (R166). -/
def execCopyShadow (g : Guard) (k : Fin 8) (x : Fin 64) (s1 : Fin 16) (h : Fin 16) (s : State) : Out :=
  copyAny (infoCopyShadow g k x s1 h) s true k x s1 h

/-- The earliest `copy.shadow` whose RETIRED version is gone: it is accepted, and its lanes go on (R269). -/
def State.shadowDue (s : State) : Option (Wait × Copy × Nat) :=
  firstSome (fun w => match w.kind with
    | .shadow c x => if s.shadowWaits c.dest.obj then none else some (w, c, x)
    | _ => none) s.work.waits

def State.shadowGo (s : State) (w : Wait) (c : Copy) (x : Nat) : State :=
  let (t, s) := s.acceptCopy c
  s.finishWait w fun l => l.setPair x (BitVec.ofNat 64 t)

/-! ## Moving the bytes (R165, R303, R306) -/

/-- The pieces of a copy's moves that stand in bytes [lo, hi) of it: source, destination, bytes. -/
def movePieces (lo hi : Nat) : Nat → List (Nat × Nat × Nat) → List (Nat × Nat × Nat)
  | _, [] => []
  | off, (a, b, n) :: r =>
    let x := max lo off
    let y := min hi (off + n)
    (if x < y then [(a + (x - off), b + (x - off), y - x)] else []) ++ movePieces lo hi (off + n) r

/-- Pieces cut where the source address crosses a line. -/
def linePieces (l : List (Nat × Nat × Nat)) : List (Nat × Nat × Nat) :=
  l.flatMap fun p => (lineStarts p.1 p.2.2).map fun a =>
    (a, p.2.1 + (a - p.1), min (128 - a % 128) (p.1 + p.2.2 - a))

/-- How far a copy has come after its next slot: 4,096 bytes further, but where that would cut an aligned word of the destination, at its
first byte (R288, R302); the last slot takes what is left. -/
def Copy.reach (c : Copy) : Nat :=
  let n := c.moved / 4096 * 4096 + (if c.moved % 4096 < 4093 then 4096 else 8192)
  let at_ := (movePieces n c.bytes 0 c.moves).head?.map fun p => p.2.1 % 4
  let back := match (movePieces (n - at_.getD 0) n 0 c.moves) with
    | [p] => if p.2.2 = at_.getD 0 then at_.getD 0 else 0
    | _ => 0
  if c.bytes ≤ n then c.bytes else n - back

/-- The pieces that a copy moves in its next slot. -/
def Copy.nextPieces (c : Copy) : List (Nat × Nat × Nat) := linePieces (movePieces c.moved c.reach 0 c.moves)

/-- The addresses that a slot needs at hand: source lines, and destination lines unless the copy writes a shadow. -/
def Copy.needs (c : Copy) (ps : List (Nat × Nat × Nat)) : List (Bool × Nat) :=
  (ps.map fun p => (false, p.1)) ++
    (if c.shadow then [] else (ps.flatMap fun p => lineStarts p.2.1 p.2.2).map fun a => (true, a))

/-- What keeps a copy's next slot from moving its bytes: pages and lines that are not at hand, or a busy tile. -/
def State.copyBlocked (s : State) (e : Engine) (c : Copy) : Bool :=
  s.tilesWritten c.dest.base c.dest.extent ||
    (c.needs c.nextPieces).any fun n => (s.lineNeed e n.1 c.data n.2).waits

/-- The slots that a copy has yet to use. -/
def Copy.slotsLeft (c : Copy) : Nat := slotCount c.bytes - (c.moved + 3) / 4096

/-- Bytes put into a shadow's frames by their offset in the object; none marks a poisoned byte. -/
def State.writeShadow (s : State) (obj : Nat) (cells : List (Nat × Option Byte)) : State :=
  let x := s.entry obj
  s.setEntry obj { x with shadowFrames := cells.foldl (fun m c => Store.put m (c.1 - x.base) c.2) x.shadowFrames }

/-- One piece moved; a poisoned source line poisons what it fills (R303). -/
def State.movePiece (s : State) (e : Engine) (c : Copy) (p : Nat × Nat × Nat) : State × Bool :=
  let bad := s.enginePoison e c.data p.1
  let bs := (List.range p.2.2).map fun i => s.engineByte e (c.src.obj, c.src.version) c.data (p.1 + i)
  let s := if c.shadow then
      s.writeShadow c.dest.obj (bs.zipIdx.map fun b => (p.2.1 + b.2, if bad then none else some b.1))
    else s.engineWrite c.eng e c.dest.obj c.pc bad (cellsAt p.2.1 bs)
  (s, bad)

/-- The bytes of a copy's next slot moved. One that meets a poisoned line gives up its other slots, and goes on in the earliest that no copy
has reserved (R303). -/
def State.moveSlot (s : State) (e : Engine) (c : Copy) : State :=
  let (s', bad) := c.nextPieces.foldl (fun (a : State × Bool) p =>
    let (s', b) := a.1.movePiece e c p
    (s', a.2 || b)) (s, false)
  let rest := c.slots.drop 1
  let (rest, s') := if bad then
      (s'.releaseSlots c.cluster c.slots).reserveSlots c.cluster (s.clock.cyc + 1) rest.length (pathPace c.moves)
    else (rest, s'.releaseSlots c.cluster (c.slots.take 1))
  s'.setCopy { c with moved := c.reach, slots := rest, finish := s.clock.cyc + 1, bad := c.bad || bad }

/-- The issuing core's L1 gives up the lines of a copy's destination (R165). -/
def State.dropDestination (s : State) (e : Engine) (c : Copy) : State :=
  let locs := (c.moves.flatMap fun m => lineAddrs m.2.1 m.2.2).filterMap fun va => match s.lineNeed e true [] va with
    | .ready l => if l < 2 ^ 64 then some (va, l) else none
    | _ => none
  let inside := fun (a : Nat) => c.moves.any fun m => decide (m.2.1 ≤ a) && decide (a < m.2.1 + m.2.2)
  let bytes := locs.flatMap fun p => (List.range 128).filterMap fun i => if inside (p.1 + i) then some (p.2 + i) else none
  { s with mem := s.mem.dropCells c.core bytes }

/-- COPY_STALL (R303): the unused slots are released, and what is missing is asked for. -/
def State.stallCopy (s : State) (e : Engine) (c : Copy) : State :=
  let s := (c.needs c.nextPieces).foldl (fun s n =>
    s.askLine e c.id (if n.1 then c.dest.obj else c.src.obj) n.1 c.data n.2) s
  (s.setCopy { c with status := .stalled, slots := [] }).releaseSlots c.cluster c.slots

/-- The engine of a copy, as it stands. -/
def State.copyEngine (s : State) (c : Copy) : Engine := (s.engine c.eng).getD .blank

/-- Whether a copy has something to do in this cycle: a slot, a resumption, or its completion. -/
def State.copyActs (s : State) (c : Copy) : Bool :=
  match c.status with
  | .inFlight =>
    match c.slots with
    | t :: _ => decide (t ≤ s.clock.cyc)
    | [] => decide (c.finish ≤ s.clock.cyc)
  | .stalled =>
    let e := s.copyEngine c
    !s.copyBlocked e c && !(c.needs c.nextPieces).any fun n => s.reported e.ctx n.2
  | _ => false

def State.copyDue (s : State) : Option Copy := s.work.copies.find? s.copyActs

/-- COPY_COMPLETE: a copy moves the bytes of a slot, stalls, resumes in unreserved slots, or, after its last slot, records its
completion (R165, R302, R303). -/
def execCopyComplete (s : State) : Out :=
  match s.copyDue with
  | none => match s.shadowDue with
    | some (w, c, x) => .next (s.shadowGo w c x)
    | none => .next s
  | some c =>
    let e := s.copyEngine c
    match c.status, c.slots with
    | .stalled, _ =>
      let (slots, s) := s.reserveSlots c.cluster s.clock.cyc c.slotsLeft (pathPace c.moves)
      .next (s.setCopy { c with status := .inFlight, slots })
    | _, [] =>
      let s := if c.shadow then s else s.dropDestination e c
      .next (s.setCopy { c with status := if c.bad then .failed else .complete })
    | _, _ :: _ => .next (if s.copyBlocked e c then s.stallCopy e c else s.moveSlot e c)

/-! ## Waiting, status and cancelling (R167, R304) -/

/-- The code of a copy's status (R167). -/
def CopyStatus.code : CopyStatus → Nat
  | .complete => 0 | .inFlight => 1 | .stalled => 1 | .failed => 2 | .cancelled => 3

/-- PROMISE for a gang's copies promised by a cycle: the fault address and the detail of the earliest that has not completed
(R304); a copy that failed with every byte written has no first unwritten byte, so that address is 0 (R316). -/
def State.promiseBroken (s : State) (eng t : Nat) : Option (Nat × Nat) :=
  let l := s.work.copies.filter fun c => c.eng == eng && decide (c.promise ≤ t) && (c.status.code == 1 || c.status.code == 2)
  match sortBy (fun (a b : Copy) => decide (a.promise ≤ b.promise)) l with
  | [] => none
  | c :: _ =>
    let at_ := match movePieces c.moved c.bytes 0 c.moves with
      | p :: _ => p.2.1
      | [] => 0
    some (at_, c.status.code * 2 ^ 28 + min (c.bytes - c.moved) 0x0FFFFFFF)

/-- CPWAIT: the lanes sleep until CYC reaches T; a T already past is checked at once (R167, R304). -/
def execCpwait (g : Guard) (x : Fin 64) (s : State) : Out :=
  gang (infoCpwait g x) s fun i e live =>
    let t := ((e.low live).pair x).toNat
    if t ≤ s.clock.cyc then
      match s.promiseBroken i.eng t with
      | some (a, d) => .next (s.trap i .promise live a d)
      | none => .next (s.setEngine i.eng (e.advance i))
    else .next ((s.passAway i).sleep i.eng live i.pc i.insn i.len false (.copies t)).2

/-- Whether an engine's context runs; true of an engine that is gone. -/
def State.running (s : State) (eng : Nat) : Bool :=
  match s.engine eng with
  | some e => (s.context e.ctx).state == .active
  | none => true

/-- The first `cpwait` whose cycle has come, in a context that runs (R305). -/
def State.cpwaitDue (s : State) : Option (Wait × Nat) :=
  firstSome (fun w => match w.kind with
    | .copies t => if t ≤ s.clock.cyc && s.running w.eng then some (w, t) else none
    | _ => none) s.work.waits

/-- CPWAIT_WAKE: CYC has reached T; a copy promised by then that is not complete raises PROMISE (R167, R304). -/
def execCpwaitWake (s : State) : Out :=
  match s.cpwaitDue with
  | none => .next s
  | some (w, t) =>
    match s.promiseBroken w.eng t with
    | some (a, d) => .next (s.raiseWait w .promise a d)
    | none => .next (s.finishWait w id)

/-- The gang's latest copy into a region register. -/
def State.latestCopy (s : State) (eng h : Nat) : Option Copy :=
  (s.work.lastCopy.find? (16 * eng + h)).bind fun id => s.work.copies.find? fun c => c.id == id

/-- CPSTAT (R167). -/
def execCpstat (g : Guard) (x : Fin 64) (h : Fin 16) (s : State) : Out :=
  gang (infoCpstat g x h) s fun i e live =>
    let n := ((s.latestCopy i.eng h).map fun c => c.status.code).getD 4
    .next (s.setEngine i.eng ((e.setAll live x (BitVec.ofNat 32 n)).retire (infoCpstat g x h) i live s.clock.cyc))

/-- A copy cancelled; its slots are released. -/
def State.cancelCopy (s : State) (c : Copy) : State :=
  (s.setCopy { c with status := .cancelled, slots := [] }).releaseSlots c.cluster c.slots

/-- A shadow discarded, with every copy that still writes it (R167, R268). -/
def State.discardShadow (s : State) (obj : Nat) : State :=
  let x := s.entry obj
  if x.shadow then
    let s := (s.work.copies.filter fun c => c.shadow && c.dest.obj == obj && c.status.code == 1).foldl State.cancelCopy s
    (s.setEntry obj { x with shadow := false, shadowFrames := [] }).releaseVoile x.ctx x.voileFrames
  else s

/-- CPCANCEL: stops the latest copy into a region; a shadow version is discarded (R167). -/
def execCpcancel (g : Guard) (h : Fin 16) (s : State) : Out :=
  gang (infoCpcancel g h) s fun i e _ =>
    let s := s.setEngine i.eng (e.advance i)
    match s.latestCopy i.eng h with
    | none => .next s
    | some c =>
      if c.status.code = 1 then
        let s := s.cancelCopy c
        .next (if c.shadow then s.discardShadow c.dest.obj else s)
      else .next s

/-! ## Publishing (R166, R269) -/

/-- Whether a publish of an object may be performed: no party holds it exclusive, and no copy into its shadow runs (R166). -/
def State.publishReady (s : State) (obj : Nat) : Bool :=
  (s.entry obj).kind != .excl &&
    !(s.work.copies.any fun c => c.shadow && c.dest.obj == obj && c.status.code == 1)

/-- The locations of an object's bytes, ascending by offset, where they are mapped. -/
def State.objectLocs (s : State) (x : OwnEntry) : List (Nat × Nat) :=
  (List.range ((x.base % 4096 + x.span + 4095) / 4096)).flatMap fun k =>
    let page := x.base / 4096 * 4096 + 4096 * k
    match s.quietLoc x.ctx .load page with
    | none => []
    | some l =>
      let lo := max x.base page
      let hi := min (x.base + x.span) (page + 4096)
      (List.range (hi - lo)).map fun i => (lo - x.base + i, l + (lo - page) + i)

/-- Bytes of a version put at their locations: a line that holds a byte from a poisoned source is poisoned, every other is not. -/
def State.putVersion (s : State) (locs : List (Nat × Nat)) (bytes : Store (Option Byte)) : State :=
  let new := fun (o : Nat) => match bytes.find? o with
    | some (some b) => b
    | _ => (0 : Byte)
  let sick := (locs.filter fun p => bytes.find? p.1 == some none).map fun p => lineOf p.2
  let lines := (locs.map fun p => lineOf p.2).dedup
  let s := s.writeCells (locs.map fun p => (p.2, new p.1))
  { s with mem := { s.mem with poison := (sick ++ s.mem.poison.filter fun l => !lines.contains l).dedup } }

/-- A published shadow becomes current: at the locations of the pages that are mapped now; the bytes of the others stand ready until
their pages are (R166). -/
def State.publishBytes (s : State) (obj : Nat) (x : OwnEntry) : State :=
  let locs := s.objectLocs x
  let here := locs.map Prod.fst
  let late := ((List.range x.span).filter fun o => !here.contains o).map fun o => (o, (x.shadowFrames.find? o).getD (some 0))
  (s.putVersion locs x.shadowFrames).setEntry obj { x with late }

/-- The published bytes whose pages are mapped now. -/
def State.lateDue (s : State) : Option (Nat × OwnEntry × List (Nat × Nat)) :=
  firstSome (fun (kv : Nat × OwnEntry) =>
    if kv.2.late.isEmpty then none
    else
      let locs := (s.objectLocs kv.2).filter fun p => (kv.2.late.find? p.1).isSome
      if locs.isEmpty then none else some (kv.1, kv.2, locs)) s.own.entries

/-- They come to stand at their locations; what stood there belongs to the retired version, where one is held (R166, R269). -/
def State.lateGo (s : State) (obj : Nat) (x : OwnEntry) (locs : List (Nat × Nat)) : State :=
  let old := if x.retired = 0 then [] else locs.map fun p => (p.2, s.readHome p.2)
  let done := locs.map Prod.fst
  (s.putVersion locs x.late).setEntry obj { x with
    retiredFrames := old.foldl (fun m c => Store.put m c.1 c.2) x.retiredFrames
    late := x.late.filter fun c => !done.contains c.1 }

/-- The bytes of an object's version before a publish, as its holders read them. -/
def State.currentBytes (s : State) (obj : Nat) (x : OwnEntry) : Store Byte :=
  (s.objectLocs x).foldl (fun m p =>
    Store.put m p.2 ((s.mem.l1Byte x.reachCore obj x.version p.2).getD (s.readHome p.2))) []

/-- A shadow published in one step (R269); `held` says that the publisher itself holds a shared borrow. -/
def State.publishNow (s : State) (obj : Nat) (held : Bool) : State :=
  let x := s.entry obj
  let others := x.holders - (if held then 1 else 0)
  let old := if others = 0 then [] else s.currentBytes obj x
  let s := { s with mem := s.mem.l1Put { s.mem.l1Get x.reachCore obj x.version with bytes := [] } }
  let s := s.publishBytes obj x
  s.setEntry obj
    { s.entry obj with
      retired := if others = 0 then 0 else x.version
      rholders := others
      retiredFrames := old
      version := nextVersion x.version
      holders := if held then 1 else 0
      kind := if held then .shared else if x.kind = .shared then .idle else x.kind
      shadow := false
      shadowFrames := []
      scope := 6
      writing := false }

/-- The publish of a gang's region: hD keeps its shared borrow, now of the new version; with no other holder the old frames are
free at once (R166, R269). -/
def State.publishRegion (s : State) (eng h : Nat) (obj : Nat) : State :=
  let x := s.entry obj
  let s := s.publishNow obj true
  let s := if x.holders ≤ 1 then s.releaseVoile x.ctx x.voileFrames else s
  let v := (s.entry obj).version
  s.modEngine eng fun e => e.setRegion h { e.region h with version := v }

/-- PUBLISH: a commit point that waits for exclusive holders and for the copies into the shadow (R166). -/
def execPublish (g : Guard) (h : Fin 16) (s : State) : Out :=
  gang (infoPublish g h) s fun i e live =>
    let r := e.region h
    if r.kind ≠ .shared ∨ (objPkg r.base).isSome ∨ r.version = 0 ∨ (s.entry r.obj).shadow = false then
      .next (s.refuseGang i live r 1 0)
    else if s.publishReady r.obj then .next ((s.commitBook (infoPublish g h) i live).publishRegion i.eng h r.obj)
    else .next ((s.commitIssue i).sleepFor (infoPublish g h) i.eng live i true (.publish h)).2

/-- The first `publish` that waits no longer: its shadow may become current, or is gone. -/
def State.publishDue (s : State) : Option (Wait × Nat × Nat) :=
  firstSome (fun w => match w.kind with
    | .publish h =>
      let obj := ((s.engine w.eng).map fun e => (e.region h).obj).getD 0
      if s.publishReady obj || !(s.entry obj).shadow then some (w, h, obj) else none
    | _ => none) s.work.waits

/-- PUBLISH_PERFORM: the shadow becomes the object's current version in one indivisible step (R269), or bytes of one published while their
pages were absent come to stand there (R166). -/
def execPublishPerform (s : State) : Out :=
  match s.publishDue with
  | none => match s.lateDue with
    | some (obj, x, locs) => .next (s.lateGo obj x locs)
    | none => .next s
  | some (w, h, obj) =>
    if (s.entry obj).shadow then .next ((s.publishRegion w.eng h obj).finishWait w id)
    else .next (s.raiseWait w .refuse ((s.entry obj).base) (1 * 2 ^ 24))

end Sys2Proof.Machine
end

