-- ==== Sys2Proof/Machine/Layer.lean ====
section
/-! DEFINITION. Layers and Calico: `lbrw` and the other LAYER forms, the queue, swap-ins, eviction and swap faults (R212 to R216,
R382 to R389, R444). -/

namespace Sys2Proof.Machine

/-! ## Layers of a context -/

/-- A layer of a context. -/
def State.layer (s : State) (ctx l : Nat) : Option Layer := (s.context ctx).layers[l]?

def State.setLayer (s : State) (ctx l : Nat) (x : Layer) : State :=
  s.modContext ctx fun c => { c with layers := c.layers.set l x }

def State.modLayer (s : State) (ctx l : Nat) (f : Layer → Layer) : State :=
  match s.layer ctx l with
  | some x => s.setLayer ctx l (f x)
  | none => s

/-- The layer states of R216. -/
def layerAbsent : Nat := 0
def layerArriving : Nat := 1
def layerResident : Nat := 2
def layerEvicting : Nat := 3

/-- The class by which a layer counts for eviction (R216, R388). -/
def Layer.class_ (l : Layer) : Nat := if l.early then 0 else l.cls

/-! ## The queue (R386) -/

/-- A layer entered at the tail of the prefetch part: absent, unmarked and not queued (R386). -/
def State.queuePrefetch (s : State) (ctx l : Nat) : State :=
  match s.layer ctx l with
  | none => s
  | some x =>
    s.modContext ctx fun c =>
      if x.state = layerAbsent ∧ x.failed.isNone ∧ c.demand.contains l = false ∧ c.prefetch.contains l = false then
        { c with prefetch := c.prefetch ++ [l] }
      else c

/-- A layer entered in the demand part, in ascending order behind second swap-ins (R213, R386). -/
def State.queueDemand (s : State) (ctx l : Nat) : State :=
  s.modContext ctx fun c =>
    if c.demand.contains l then c
    else
      let first := fun k => ((c.layers[k]?).map Layer.retrying).getD false
      { c with
        prefetch := c.prefetch.filter (· != l)
        demand := c.demand.takeWhile first ++ insertBy (fun a b => decide (a < b)) l (c.demand.dropWhile first) }

/-- A second swap-in placed at the head of the demand part (R215). -/
def State.queueRetry (s : State) (ctx l : Nat) : State :=
  (s.modLayer ctx l fun x => { x with retrying := true }).modContext ctx fun c =>
    { c with prefetch := c.prefetch.filter (· != l), demand := l :: c.demand.filter (· != l) }

/-- A layer taken out of the queue. -/
def State.dequeue (s : State) (ctx l : Nat) : State :=
  s.modContext ctx fun c => { c with prefetch := c.prefetch.filter (· != l), demand := c.demand.filter (· != l) }

/-! ## Issue (R212 to R216) -/

/-- The operand gL: the layer number and the object index (R212). -/
def layerNumber (v : Word) : Nat := v.toNat % 1024
def layerObject (v : Word) : Nat := bits v.toNat 13 10

/-- The refusals of R212, by their status: no model context, or a number beyond the table. -/
def State.layerDenied (s : State) (e : Engine) (v : Word) (withObj : Bool) : Option Nat :=
  if (s.context e.ctx).model = false then some 5
  else match s.layer e.ctx (layerNumber v) with
    | none => some 7
    | some x => if withObj ∧ x.objs.length ≤ layerObject v then some 7 else none

/-- A LAYER form whose operand names a layer: the refusals of R212, then its own effect. -/
def layerForm (f : Info) (s : State) (a : Nat) (withObj : Bool) (k : Issue → Engine → Dword → Nat → Layer → Out) : Out :=
  gang f s fun i e live =>
    let v := (e.low live).reg a
    match s.layerDenied e v withObj with
    | some n => .next (s.refuse i live 0 6 n 0)
    | none => match s.layer e.ctx (layerNumber v) with
      | some x => k i e live (layerNumber v) x
      | none => .next (s.refuse i live 0 6 7 0)

/-- The detail of SWAP (R214): ATTEMPT is 1 in an `lbrw`'s frame, whose mark is the first failure's, and 2 in a lasting fault's record
(R215). -/
def swapDetail (kind attempt obj l : Nat) : Nat := kind * 2 ^ 24 + attempt % 256 * 2 ^ 16 + obj % 16 * 2 ^ 10 + l % 1024

/-- The SWAP frame of the first attempt, kept for the transient record (R444). -/
def State.keepSwapFrame (s : State) (ctx l : Nat) (eng : Nat) (e : Engine) (lanes : Dword) (pc insn : Word) (detail : Nat) :
    State :=
  let t : TrapReq := { eng, cause := .swap, lanes, pc, insn, faddr := 0, detail }
  s.modLayer ctx l fun x => { x with frame := x.frame.or (some (e.frame t (e.frameFlags false false false))) }

/-- The answer to the records of a layer, judged in order (R383, R254). -/
def State.judgeLayer (s : State) (e : Engine) (objs : List Nat) : Judged :=
  (firstSome (fun t => match s.judgeRecord e (s.tensor e.ctx t) with
    | .ok => none
    | x => some x) objs).getD .ok

/-- A waiting `lbrw` looks at its layer (R213): a request for the object where the layer is resident, SWAP where its mark is
set, otherwise a demand. -/
def State.layerTry (s : State) (w : Wait) (l k dest : Nat) : State :=
  match s.engine w.eng with
  | none => s
  | some e => match s.layer e.ctx l with
    | none => s
    | some x =>
      if x.state = layerResident then
        let t := x.objs.getD k 0
        let r := s.tensor e.ctx t
        let (id, s) := s.fresh
        let q : BorrowReq :=
          { id, who := .eng w.eng, pkg := objPkg r.base, obj := r.obj % 2 ^ 18, exclusive := false, try_ := false, tensor := t,
            base := r.base, extent := r.span, dest, parent := none, pred := 0, layer := some l,
            order := e.portRank (objDie r.obj * 16), stage := .issued, version := 0, wait := w.id }
        { s with own := { s.own with requests := s.own.requests ++ [q] } }
      else match x.failed with
        | some kind =>
          let d := swapDetail kind 1 k l
          (s.keepSwapFrame e.ctx l w.eng e w.lanes w.pc w.insn d).raiseWait w .swap 0 d
        | none => if x.state = layerArriving then s else s.queueDemand e.ctx l

/-- LBRW: a shared borrow of weight object k of a layer, a borrow instruction that waits until the layer is resident (R213). -/
def execLbrw (g : Guard) (a : Fin 64) (d : Fin 64) (s : State) : Out :=
  layerForm (infoLbrw g a d) s a true fun i e live l x =>
    let k := layerObject ((e.low live).reg a)
    if (e.region d).kind ≠ .none then .next (s.refuseGang i live (e.region d) 4 0)
    else match s.judgeLayer e x.objs with
      | .trap c f n => .next (s.trap i c live f n)
      | .status n =>
        let r := s.tensor e.ctx (x.objs.getD k 0)
        .next (s.borrowIssue (infoLbrw g a d) i e live
          { id := 0, who := .eng i.eng, pkg := none, obj := r.obj % 2 ^ 18, exclusive := false, try_ := false, tensor := 0,
            base := r.base, extent := r.span, dest := d, parent := none, pred := 0, layer := some l, order := 0,
            stage := .answered (s.clock.cyc + 60) n, version := 0, wait := 0 })
      | .ok =>
        match x.failed with
        | some kind =>
          if x.state = layerResident then
            let (id, s) := (s.commitIssue i).sleepFor (infoLbrw g a d) i.eng live i true (.layer l k d)
            .next (match s.waitOf id with
              | some w => s.layerTry w l k d
              | none => s)
          else
            let n := swapDetail kind 1 k l
            .next ((s.keepSwapFrame e.ctx l i.eng e live i.pc i.insn n).trap i .swap live 0 n)
        | none =>
          let (id, s) := (s.commitIssue i).sleepFor (infoLbrw g a d) i.eng live i true (.layer l k d)
          .next (match s.waitOf id with
            | some w => s.layerTry w l k d
            | none => s)

/-- The waiting `lbrw` of a layer look at it again: its state or its mark has changed (R213). -/
def State.layerWake (s : State) (ctx l : Nat) : State :=
  s.work.waits.foldl (fun s w =>
    match w.kind, s.engine w.eng with
    | .layer n k d, some e =>
      if n = l ∧ e.ctx = ctx ∧ (s.own.requests.any fun r => r.wait == w.id) = false then s.layerTry w l k d else s
    | _, _ => s) s

/-- A granted `lbrw`: the holder count, LastBorrow and look-ahead (R213, R386). -/
def State.layerGranted (s : State) (ctx l : Nat) : State :=
  let s := s.modLayer ctx l fun x => { x with holders := x.holders + 1, lastBorrow := s.clock.cyc, early := false }
  (List.range (s.context ctx).lookahead).foldl (fun s i => s.queuePrefetch ctx (l + 1 + i)) s

/-- LPREF: queues an absent layer; it never traps after decode, and has no effect where R212 would refuse (R216). -/
def execLpref (g : Guard) (a : Fin 64) (s : State) : Out :=
  gang (infoLpref g a) s fun i e live =>
    let v := (e.low live).reg a
    let s := s.setEngine i.eng (e.advance i)
    match s.layerDenied e v false with
    | some _ => .next s
    | none => .next (s.queuePrefetch e.ctx (layerNumber v))

/-- The word that `lstat` reads (R216).  DESIGN CHOICE (log entry 51): after `lret` with n = 1 it shows class 0, by which the layer counts. -/
def Layer.word (x : Layer) : Nat :=
  x.state % 4 + (if x.failed.isSome then 4 else 0) + (if x.pins ≠ 0 then 8 else 0) + x.class_ % 16 * 16 + x.pins % 256 * 256
    + min x.holders 65535 * 65536

/-- LSTAT (R216). -/
def execLstat (g : Guard) (a : Fin 64) (d : Fin 64) (s : State) : Out :=
  layerForm (infoLstat g a d) s a false fun i e live _ x =>
    .next (s.setEngine i.eng ((e.setAll live d (BitVec.ofNat 32 x.word)).retire (infoLstat g a d) i live s.clock.cyc))

/-- LRET: a shared return of a layer region; with n = 1 the layer counts as class 0 until its next `lbrw` (R216). -/
def execLret (g : Guard) (b : Fin 64) (a : Fin 64) (s : State) : Out :=
  gang (infoLret g b a) s fun i e live =>
    let r := e.region a
    if (s.context e.ctx).model = false then .next (s.refuse i live 0 6 5 0)
    else if r.kind = .none ∨ r.layer = false then .next (s.refuseGang i live r 1 0)
    else if r.children ≠ 0 then .next (s.refuseGang i live r 9 0)
    else
      let s := (s.commitBook (infoLret g b a) i live).returnRegion i.eng a 6 i.pc live
      .next (match b.val, (s.context e.ctx).layerOfTensor r.tensor with
        | 1, some l => s.modLayer e.ctx l fun x => { x with early := true }
        | _, _ => s)

/-- LRETRY: the second swap-in of a layer whose mark is set; the lanes sleep until it ends (R215). -/
def execLretry (g : Guard) (a : Fin 64) (d : Fin 64) (s : State) : Out :=
  layerForm (infoLretry g a d) s a false fun i e live l x =>
    if x.failed.isSome then
      let s := ((s.passAway i).sleepFor (infoLretry g a d) i.eng live i false (.retry l d)).2
      .next (if x.state = layerAbsent ∧ x.retrying = false then s.queueRetry e.ctx l else s)
    else
      let v : Word := if x.state = layerResident then 0 else 1
      let e' := (e.setAll live d v).advance i
      .next (s.setEngine i.eng (e'.book (infoLretry g a d) s.clock.cyc 60))

/-- LPIN: one pin more; an absent layer is queued (R216). -/
def execLpin (g : Guard) (a : Fin 64) (s : State) : Out :=
  layerForm (infoLpin g a) s a false fun i e live l x =>
    if 255 ≤ x.pins then .next (s.refuse i live 0 6 7 0)
    else
      let s := (s.setEngine i.eng (e.advance i)).setLayer e.ctx l { x with pins := x.pins + 1 }
      .next (s.queuePrefetch e.ctx l)

/-- LUNPIN: one pin fewer (R216). -/
def execLunpin (g : Guard) (a : Fin 64) (s : State) : Out :=
  layerForm (infoLunpin g a) s a false fun i e live l x =>
    if x.pins = 0 then .next (s.refuse i live 0 6 7 0)
    else .next ((s.setEngine i.eng (e.advance i)).setLayer e.ctx l { x with pins := x.pins - 1 })

/-! ## Stopping a launch (R215, R315, R350) -/

/-- Every gang and stream of a launch stops; no further block of it starts. -/
def State.stopLaunch (s : State) (launch : Nat) : State :=
  let s := s.modLaunch launch fun l => { l with failed := true }
  (s.work.engines.filter fun kv => kv.2.launch == launch && !kv.2.ended).foldl (fun s kv => s.stopEngine kv.1) s

/-! ## Swap-ins (R383 to R387) -/

/-- The records of a layer's objects, none where one fails or the footprints do not sum to LEN (R383). -/
def State.layerRecords (s : State) (ctx : Nat) (x : Layer) : Option (List TRec) :=
  let rs := x.objs.map fun t => s.tensor ctx t
  let ok := rs.all fun r => r.valid && r.object && r.malformed.isNone && r.obj / 2 ^ 18 == 0 && footprintOk r.base r.span
  if ok && (rs.map TRec.span).sum == x.len then some rs else none

/-- Frames of the reserve that objects take (R385). -/
def framesFor (rs : List TRec) : Nat := (rs.map fun r => (r.span + 65535) / 65536).sum

/-- Whether an `lbrw` of a layer has been sent to its entry and not been answered. -/
def State.layerPending (s : State) (ctx l : Nat) : Bool :=
  s.own.requests.any fun r => r.layer == some l && (match r.who with
    | .eng id => ((s.engine id).map Engine.ctx) == some ctx
    | .package _ _ _ => false)

/-- The layer that Calico evicts next (R388). -/
def State.evictee (s : State) (ctx keep : Nat) : Option Nat :=
  let c := s.context ctx
  let l := (c.layers.zipIdx).filter fun p =>
    p.2 != keep && p.1.state == layerResident && p.1.holders == 0 && p.1.pins == 0 && !s.layerPending ctx p.2
  let before := fun (a b : Layer × Nat) =>
    if a.1.class_ ≠ b.1.class_ then decide (a.1.class_ < b.1.class_)
    else if a.1.lastBorrow ≠ b.1.lastBorrow then decide (a.1.lastBorrow < b.1.lastBorrow)
    else decide (a.2 ≤ b.2)
  ((sortBy before l).head?).map Prod.snd

/-- What Calico can do at the head of a context's queue. -/
inductive CalicoGo
  | nothing
  | drop (l : Nat)
  | evict (l : Nat)
  | start (l : Nat) (frames : Nat)
deriving DecidableEq, Repr

/-- The head of a context's queue (R383, R386, R387). -/
def State.calicoGo (s : State) (ctx : Nat) : CalicoGo :=
  let c := s.context ctx
  match (c.demand ++ c.prefetch).head? with
  | none => .nothing
  | some l => match s.layer ctx l with
    | none => .drop l
    | some x =>
      if x.state = layerEvicting then .nothing
      else if x.state ≠ layerAbsent ∨ (x.failed.isSome ∧ x.retrying = false) then .drop l
      else match s.layerRecords ctx x with
        | none => .drop l
        | some rs =>
          let need := framesFor rs
          let total := c.voilelen / 65536
          let coming := (c.layers.filter fun y => y.state == layerEvicting).map Layer.frames |>.sum
          if total < need then .drop l
          else if c.frames + need ≤ total then .start l need
          else if c.frames + need ≤ total + coming then .nothing
          else match s.evictee ctx l with
            | some v => .evict v
            | none => .nothing

/-- The context whose turn it is among those for which Calico can act: one swap-in for each context, eight in all (R386). -/
def State.calicoDue (s : State) : Option Nat :=
  let can := fun (kv : Nat × Context) =>
    kv.2.model && kv.2.state != .free && kv.2.state != .killing && !(s.ctxs.swapIns.any fun w => w.ctx == kv.1) &&
      (match s.calicoGo kv.1 with
      | .nothing => false
      | .start _ _ => decide (s.ctxs.swapIns.length < 8)
      | _ => true)
  let l := (s.ctxs.table.filter can).map Prod.fst
  (l.find? fun c => decide (s.ctxs.turn ≤ c)).or l.head?

/-- A shadow claimed for an object that Calico brings in; its frames are charged to the layer (R385). -/
def State.calicoClaim (s : State) (obj : Nat) : State := s.setEntry obj { s.entry obj with shadow := true, shadowFrames := [] }

/-- The entries of a layer's objects claimed for the context and marked as layer entries (R383). -/
def State.claimEntries (s : State) (ctx : Nat) (rs : List TRec) : State :=
  rs.foldl (fun s r =>
    let x := s.entry r.obj
    if x.kind = .free then
      s.setEntry r.obj { OwnEntry.blank with
        kind := .idle, ctx, base := r.base, span := r.span, version := 1, scope := 6, layerEntry := true }
    else s.setEntry r.obj { x with layerEntry := x.layerEntry || x.ctx == ctx }) s

/-- A swap-in starts: the layer arrives, its frames are charged, and its first object's shadow is claimed. -/
def State.startSwapIn (s : State) (ctx l need : Nat) : State :=
  match s.layer ctx l with
  | none => s
  | some x => match s.layerRecords ctx x with
    | none => s
    | some rs =>
      let (id, s) := s.fresh
      let s := (s.dequeue ctx l).setLayer ctx l { x with state := layerArriving, frames := need, attempt := x.attempt + 1 }
      let s := (s.modContext ctx fun c => { c with frames := c.frames + need }).claimEntries ctx rs
      let s := s.calicoClaim ((rs.headD (TRec.ofBytes [])).obj)
      let w : SwapIn :=
        { id, ctx, layer := l, obj := 0, sendAt := s.clock.cyc, sent := 0, flying := [], arrived := 0, publishAt := none
          data := [] }
      { s with ctxs := { s.ctxs with swapIns := s.ctxs.swapIns ++ [w], turn := ctx + 1 } }

/-- CALICO_SWAPIN_START: Calico acts at the head of a context's queue: it starts a swap-in, evicts a layer for room, or drops a
layer that it does not start (R386 to R388). -/
def execCalicoSwapinStart (s : State) : Out :=
  match s.calicoDue with
  | none => .next s
  | some ctx =>
    match s.calicoGo ctx with
    | .nothing => .next s
    | .drop l => .next (s.dequeue ctx l)
    | .evict l =>
      .next (s.modLayer ctx l fun x => { x with state := layerEvicting, evictAt := s.clock.cyc + 64 * x.objs.length })
    | .start l n => .next ((s.startSwapIn ctx l n).layerWake ctx l)

/-- The first layer whose eviction ends in this cycle. -/
def State.evictDue (s : State) : Option (Nat × Nat) :=
  firstSome (fun (kv : Nat × Context) =>
    (kv.2.layers.findIdx? fun x => x.state == layerEvicting && decide (x.evictAt ≤ s.clock.cyc)).map fun l => (kv.1, l))
    s.ctxs.table

/-- LAYER_EVICT_COMPLETE: the layer's frames are released and it is absent; an `lbrw` that met it places its demand (R384). -/
def execLayerEvictComplete (s : State) : Out :=
  match s.evictDue with
  | none => .next s
  | some (ctx, l) =>
    let n := ((s.layer ctx l).map Layer.frames).getD 0
    let s := s.modLayer ctx l fun x => { x with state := layerAbsent, frames := 0 }
    .next ((s.releaseVoile ctx n).layerWake ctx l)

/-! ## Source lines (R383, R385, R389) -/

/-- What a swap-in reads: the source address, the bytes, and the object's entry and base. -/
structure SwapObject where
  src : Nat
  len : Nat
  obj : Nat
  base : Nat
deriving DecidableEq, Repr

def State.swapObject (s : State) (w : SwapIn) : Option SwapObject :=
  (s.layer w.ctx w.layer).bind fun x =>
    let rs := x.objs.map fun t => s.tensor w.ctx t
    (rs[w.obj]?).map fun r => ⟨x.src + ((rs.take w.obj).map TRec.span).sum, r.span, r.obj, r.base⟩

/-- The addresses of an object's source lines, ascending. -/
def SwapObject.lines (o : SwapObject) : List Nat := lineStarts o.src o.len

/-- Calico as the party that translates: on cluster 0 of die 0 (R385). -/
def calicoEngine (ctx : Nat) : Engine := { Engine.blank with ctx }

/-- The cycles that a line of device memory takes to arrive (R385). -/
def State.calicoLatency (s : State) (loc : Nat) : Nat :=
  l2Latency 0 (homeOf s 0 loc) + (if (s.mem.l2.find? (lineOf loc)).isSome then 0 else dramCycles)

def State.setSwapIn (s : State) (w : SwapIn) : State :=
  { s with ctxs := { s.ctxs with swapIns := s.ctxs.swapIns.map fun x => if x.id = w.id then w else x } }

/-- A failed swap-in (R389): the shadow is discarded, the frames are released, the layer is absent with its mark, and every
waiting `lbrw` raises SWAP; after a second attempt the fault is lasting (R215). -/
def State.swapFails (s : State) (w : SwapIn) (kind : Nat) : State :=
  let obj := (s.swapObject w).map SwapObject.obj
  let s := { s with ctxs := { s.ctxs with swapIns := s.ctxs.swapIns.filter fun x => x.id != w.id } }
  let s := match obj with
    | some o => s.setEntry o { s.entry o with shadow := false, shadowFrames := [] }
    | none => s
  match s.layer w.ctx w.layer with
  | none => s
  | some x =>
    let s := s.releaseVoile w.ctx x.frames
    if x.attempt < 2 then
      (s.setLayer w.ctx w.layer { x with state := layerAbsent, frames := 0, failed := some kind, retrying := false }).layerWake
        w.ctx w.layer
    else
      let s := s.setLayer w.ctx w.layer
        { x with state := layerAbsent, frames := 0, failed := none, attempt := 0, retrying := false, frame := none }
      let s := s.work.waits.foldl (fun s y =>
        match y.kind, s.engine y.eng with
        | .retry n _, some e =>
          if n = w.layer ∧ e.ctx = w.ctx then
            let t : TrapReq :=
              { eng := y.eng, cause := .swap, lanes := y.lanes, pc := y.pc, insn := y.insn, faddr := 0
                detail := swapDetail kind 2 w.obj w.layer }
            (s.recordFault e.launch (e.frame t (e.frameFlags e.inHandler false false))).stopLaunch e.launch
          else s
        | _, _ => s) s
      s.layerWake w.ctx w.layer

/-- A source line asked for (R385): the cycle in which it arrives where that is known, or KIND 2 where it has no path. -/
def State.sendLine (s : State) (w : SwapIn) (va : Nat) : State × Option (Option Nat) :=
  let e := calicoEngine w.ctx
  match s.lineNeed e false w.data va with
  | .dead => (s, none)
  | .ready l => (s, some (if isHost l ∨ 2 ^ 64 ≤ l then none else some (s.clock.cyc + s.calicoLatency l)))
  | .dram l => (s, some (some (s.clock.cyc + s.calicoLatency l)))
  | _ => (s.askLine e w.id 0 false w.data va, some none)

/-- What a swap-in does in this cycle: it sends its next line, takes a line that has arrived, or waits. -/
inductive SwapAct | send (va : Nat) | arrive (line : Nat) (va : Nat) | idle
deriving DecidableEq, Repr

def State.swapAct (s : State) (w : SwapIn) : SwapAct :=
  match s.swapObject w with
  | none => .idle
  | some o =>
    let ls := o.lines
    let e := calicoEngine w.ctx
    let here := fun (f : Nat × Nat × Option Nat) => match f.2.2 with
      | some t => decide (t ≤ s.clock.cyc)
      | none => decide (f.2.1 < s.clock.cyc) && !(s.lineNeed e false w.data (ls.getD f.1 0)).waits
          && !s.reported w.ctx (ls.getD f.1 0)
    match w.flying.find? here with
    | some f => .arrive f.1 (ls.getD f.1 0)
    | none => if w.sent < ls.length ∧ w.sendAt ≤ s.clock.cyc then .send (ls.getD w.sent 0) else .idle

def State.lineDue (s : State) : Option SwapIn := s.ctxs.swapIns.find? fun w => s.swapAct w != .idle

/-- CALICO_LINE_ARRIVE: a swap-in sends its next source line, or a line arrives and is written into its frame; a poisoned line
or one without a path fails the swap-in (R385, R389). -/
def execCalicoLineArrive (s : State) : Out :=
  match s.lineDue with
  | none => .next s
  | some w =>
    match s.swapAct w, s.swapObject w with
    | .send va, some _ =>
      match s.sendLine w va with
      | (s, none) => .next (s.swapFails w 2)
      | (s, some due) =>
        .next (s.setSwapIn { w with
          sent := w.sent + 1, sendAt := s.clock.cyc + 1, flying := w.flying ++ [(w.sent, s.clock.cyc, due)] })
    | .arrive n va, some o =>
      let e := calicoEngine w.ctx
      match s.lineNeed e false w.data va with
      | .dead => .next (s.swapFails w 2)
      | _ =>
        if s.enginePoison e w.data va then .next (s.swapFails w 1)
        else
          let len := min (128 - va % 128) (o.src + o.len - va)
          let bs := (List.range len).map fun i => s.engineByte e (0, 0) w.data (va + i)
          let s := s.writeShadow o.obj (bs.zipIdx.map fun b => (o.base + (va - o.src) + b.2, some b.1))
          let arrived := w.arrived + 1
          .next (s.setSwapIn { w with
            arrived, flying := w.flying.filter fun f => f.1 != n
            publishAt := if arrived = o.lines.length then some (s.clock.cyc + 16) else none })
    | _, _ => .next s

/-- The layer is resident after its last publish (R384): its mark goes, a transient fault is recorded, and what waits for it
continues (R215, R444). -/
def State.layerArrives (s : State) (ctx l : Nat) : State :=
  match s.layer ctx l with
  | none => s
  | some x =>
    let s := s.setLayer ctx l
      { x with state := layerResident, failed := none, attempt := 0, retrying := false, frame := none }
    let s := s.work.waits.foldl (fun s w =>
      match w.kind, s.engine w.eng with
      | .retry n d, some e =>
        if n = l ∧ e.ctx = ctx then
          let s := match x.frame with
            | some f => s.appendFrame e.launch f
            | none => s
          s.finishWait w fun y => y.setReg d 0
        else s
      | _, _ => s) s
    s.layerWake ctx l

/-- The first swap-in whose object is to be published in this cycle. -/
def State.objectDue (s : State) : Option SwapIn :=
  s.ctxs.swapIns.find? fun w => match w.publishAt with
    | some t => decide (t ≤ s.clock.cyc)
    | none => false

/-- CALICO_OBJECT_PUBLISH: the object's shadow becomes current; the next object follows, or the layer is resident (R385,
R384). -/
def execCalicoObjectPublish (s : State) : Out :=
  match s.objectDue with
  | none => .next s
  | some w =>
    match s.swapObject w with
    | none => .next s
    | some o =>
      let s := s.publishNow o.obj false
      let next := { w with obj := w.obj + 1, sendAt := s.clock.cyc + 1, sent := 0, flying := [], arrived := 0, publishAt := none }
      match s.swapObject next with
      | some o' => .next ((s.calicoClaim o'.obj).setSwapIn next)
      | none =>
        let s := { s with ctxs := { s.ctxs with swapIns := s.ctxs.swapIns.filter fun x => x.id != w.id } }
        .next (s.layerArrives w.ctx w.layer)

/-- The first swap-in with a line that has not been delivered 2^20 cycles after its request (R389). -/
def State.swapTimeoutDue (s : State) : Option SwapIn :=
  s.ctxs.swapIns.find? fun w => w.flying.any fun f => decide (f.2.1 + 2 ^ 20 ≤ s.clock.cyc)

/-- SWAPIN_TIMEOUT: the swap-in fails with KIND 3 (R389). -/
def execSwapinTimeout (s : State) : Out :=
  match s.swapTimeoutDue with
  | none => .next s
  | some w => .next (s.swapFails w 3)

end Sys2Proof.Machine
end

