-- ==== Sys2Proof/Machine/Sys.lean ====
section
/-! DEFINITION. System registers and the SYS instructions: `mfsr`, `mtsr`, trap returns, `halt.ctx`, `ecall`, `dbgmark`, the
sequencer's trap return, and the `ecall` services (R25, R194, R217 to R222, R437, R471). -/

namespace Sys2Proof.Machine

/-! ## System registers (R217 to R219) -/

/-- CTXID of an engine (R219). -/
def State.ctxId (s : State) (e : Engine) : Nat :=
  e.ctx % 1024 + (if (s.context e.ctx).model then 2 ^ 10 else 0) + (if (s.context e.ctx).privileged then 2 ^ 31 else 0)

/-- The value of a system register by its number; a write-only register reads 0 (R11, R217). -/
def State.sysValue (s : State) (e : Engine) (r : Nat) : Nat :=
  match r with
  | 0x000 => e.fpm.toNat
  | 0x001 => e.tmode.toNat
  | 0x002 => e.tvec.toNat
  | 0x003 => e.savep.toNat
  | 0x004 => if s.isDet e then 1 else 0
  | 0x005 => s.ctxId e
  | 0x010 => s.clock.cyc
  | 0x011 => s.clock.wall
  | 0x012 => s.clock.ptime
  | 0x020 => (s.context e.ctx).ptb
  | 0x030 => e.tvec.toNat
  | 0x032 => e.savep.toNat
  | 0x040 => (Store.get 0 e.tcb 0).toNat
  | 0x041 => (Store.get 0 e.tcb 1).toNat
  | _ => 0

/-- FPM after a write: RM keeps its value where 5 to 7 are written, reserved bits read 0 (R25). -/
def fpmWrite (old v : Word) : Word :=
  let rm := if 5 ≤ v.toNat % 8 then old.toNat % 8 else v.toNat % 8
  BitVec.ofNat 32 (rm + bits v.toNat 10 8 * 2 ^ 8)

/-- A system register written by an engine, with its access codes: a read-only register keeps its value (R11, R217, R218). -/
def State.sysWrite (s : State) (eng : Nat) (r : Nat) (v : Dword) : State :=
  let w : Word := v.setWidth 32
  match r with
  | 0x000 => s.modEngine eng fun e => { e with fpm := fpmWrite e.fpm w }
  | 0x001 => s.modEngine eng fun e => { e with tmode := w &&& 0x3F }
  | 0x002 => s.modEngine eng fun e => { e with tvec := w &&& ~~~1 }
  | 0x020 => s.modContext (((s.engine eng).map Engine.ctx).getD 0) fun c => { c with ptb := v.toNat }
  | 0x030 => s.modEngine eng fun e => { e with tvec := w }
  | _ => s

/-- The sequencer's trap return (R194): a write to SRESUME in the handler leaves it, and the stream issues from the written
address; an odd address raises ALIGN (R39), and outside the handler the write is ignored. -/
def State.sresume (s : State) (i : Issue) (v : Word) : State :=
  match s.engine i.eng with
  | none => s
  | some e =>
    if !e.inHandler then s
    else if v.getLsbD 0 then s.trap i .align 1 v.toNat 0
    else
      (s.modEngine i.eng fun e =>
        { e with
          inHandler := false
          sresume := v
          lanes := e.lanes.mapKV fun _ l =>
            { l with pc := v, restart := v, issued := false, handler := false, held := false } }).pendingHalt i.eng

/-! ## The SYS instructions (R220 to R222) -/

/-- MFSR: each live lane reads the gang's register; a register of 64 bits fills an even pair (R220). -/
def execMfsr (g : Guard) (r : Fin 4096) (d : Fin 64) (s : State) : Out :=
  gated (infoMfsr g r d) s fun i e live =>
    let v := s.sysValue e r
    let put := fun (l : Lane) =>
      if sysRegs r = 2 then l.setPair d (BitVec.ofNat 64 v) else l.setReg d (BitVec.ofNat 32 v)
    .next (s.setEngine i.eng ((e.mapLanes live fun _ l => put l).retire (infoMfsr g r d) i live s.clock.cyc))

/-- MTSR: the gang's register takes gD of the lowest live lane (R220). -/
def execMtsr (g : Guard) (r : Fin 4096) (d : Fin 64) (s : State) : Out :=
  gang (infoMtsr g r d) s fun i e live =>
    let l := e.low live
    let v : Dword := if sysRegs r = 2 then l.pair d else (l.reg d).setWidth 64
    let s := s.setEngine i.eng (e.retire (infoMtsr g r d) i live s.clock.cyc)
    if r.val = 0x031 then .next (s.sresume i (v.setWidth 32))
    else .next (s.sysWrite i.eng r v)

/-- Whether the engine that issues is in its handler; outside one a trap return is illegal (R59, R221). -/
def State.engineInHandler (s : State) : Bool := ((s.cur.bind fun i => s.engine i.eng).map Engine.inHandler).getD false

/-- A trap return (R221): the stores commit, the gang's handler ends and its lanes resume; a halt that pended lands (R433). -/
def trapReturnForm (f : Info) (s : State) (skip : Bool) : Out :=
  gang { f with ok := s.engineInHandler } s fun i _ _ => .next (((s.commit i.eng).trapReturn i skip).pendingHalt i.eng)

/-- TRET (R221). -/
def execTret (g : Guard) (s : State) : Out := trapReturnForm (infoTret g) s false

/-- TRET_SKIP (R221). -/
def execTretSkip (g : Guard) (s : State) : Out := trapReturnForm (infoTretSkip g) s true

/-- HALT_CTX: a halt of every gang and sequencer of the context (R222, R433). -/
def execHaltCtx (g : Guard) (s : State) : Out :=
  gang (infoHaltCtx g) s fun i e _ => .next ((s.setEngine i.eng (e.advance i)).haltContext e.ctx)

/-- ECALL: commits, posts the service and gD to Reten, and sleeps until Reten answers (R222). -/
def execEcall (g : Guard) (s1 : Fin 4096) (d : Fin 64) (s : State) : Out :=
  gang (infoEcall g s1 d) s fun i e live =>
    let v := (e.low live).reg d
    let (id, s) := (s.commitIssue i).sleepFor (infoEcall g s1 d) i.eng live i true (.reten s1 v d)
    .next { s with host := { s.host with ecalls := s.host.ecalls ++ [id] } }

/-- The body of a MARK record (R437). -/
def Engine.markBody (e : Engine) (n : Nat) (live : Dword) (v : Word) (pc : Word) : List Byte :=
  let l := e.low live
  leBytes 2 n ++ leBytes 6 0 ++ leBytes 8 live.toNat ++ leBytes 4 v.toNat ++ leBytes 4 (if e.isSeq then e.launch else l.launch)
    ++ leBytes 4 (if e.isSeq then 0 else l.block) ++ leBytes 4 (if e.isSeq then 0 else l.thread) ++ leBytes 8 pc.toNat
    ++ leBytes 24 0

/-- DBGMARK: a MARK record where tracing is enabled, its issue slot otherwise (R222, R437). -/
def execDbgmark (g : Guard) (s1 : Fin 4096) (d : Fin 64) (s : State) : Out :=
  gang (infoDbgmark g s1 d) s fun i e live =>
    let body := e.markBody s1 live ((e.low live).reg d) i.pc
    .next ((s.setEngine i.eng (e.advance i)).trace e.ctx 1 body)

/-- An issue standing for an engine where it is, for a register write that is not an instruction. -/
def Engine.here (e : Engine) (eng : Nat) : Issue :=
  { eng, pc := (e.lane 0).pc, lanes := 1, away := 0, insn := 0, len := 4 }

/-- SRESUME_WRITE: a write to SRESUME of a sequencer (R194). -/
def execSresumeWrite (e : Nat) (v : Word) (s : State) : Out :=
  match s.engine e with
  | some x => if x.isSeq then .next (s.sresume (x.here e) v) else .next s
  | none => .next s

/-- Whether a system register's access code is RP: PTB (R11, R217). -/
def sysPrivileged (r : Nat) : Bool := r == 0x020

/-- REGISTER_WRITE: a write to a system register without behaviour of its own, by its access code: one that the privileged level alone may
access raises PRIV in the live lanes of an unprivileged engine (R11). -/
def execRegisterWrite (e : Nat) (r : Nat) (v : Dword) (s : State) : Out :=
  match (s.engine e).filter fun x => sysPrivileged r && !s.privileged x with
  | some x =>
    let lanes := x.lanesWhere fun _ l => l.live
    let pc := (x.low lanes).pc
    .next (s.raise { eng := e, cause := .priv, lanes, pc, insn := s.insnAt x.ctx pc.toNat, faddr := 0, detail := 0 })
  | none => .next (s.sysWrite e r v)

/-! ## The services of Reten (R222, R471) -/

/-- The `ecall` that Reten takes next, with its service, argument and destination. -/
def State.ecallDue (s : State) : Option (Wait × Nat × Word × Nat) :=
  (s.host.ecalls.head?).bind fun id => (s.waitOf id).bind fun w => match w.kind with
    | .reten n v d => some (w, n, v, d)
    | _ => none

/-- Reten's answer to an `ecall`: every live lane takes it, and goes on. -/
def State.ecallAnswer (s : State) (w : Wait) (d : Nat) (v : Word) : State :=
  { s with host := { s.host with ecalls := s.host.ecalls.drop 1 } }.finishWait w fun l => l.setReg d v

/-- An answer to the head `ecall`, if it asks for a service. -/
def ecallService (s : State) (service : Nat) (k : Wait → Word → State × Word) : Out :=
  match s.ecallDue with
  | some (w, n, v, d) =>
    if n = service then
      let (s, a) := k w v
      .next (s.ecallAnswer w d a)
    else .next s
  | none => .next s

/-- ECALL_NONE: service 0 is answered with 0 (R471). -/
def execEcallNone (s : State) : Out := ecallService s 0 fun _ _ => (s, 0)

/-- ECALL_POST: gD goes to the host notification queue; 0, or 0xFFFF_FFFE where the entry was dropped (R471). -/
def execEcallPost (s : State) : Out :=
  ecallService s 1 fun w v =>
    let t := s.notify (padTo 32 (Config.notice 6 w.eng v.toNat))
    (t, if t.host.nqDropped = s.host.nqDropped then 0 else 0xFFFFFFFE)

/-- ECALL_THROTTLE: the current throttle level (R471). -/
def execEcallThrottle (s : State) : Out := ecallService s 2 fun _ _ => (s, BitVec.ofNat 32 s.clock.throttle)

/-- ECALL_RESETS: RESETS of the crash record (R471). -/
def execEcallResets (s : State) : Out := ecallService s 3 fun _ _ => (s, BitVec.ofNat 32 s.boot.resets)

/-- UNLISTED_ECALL_SERVICE: an unlisted service is answered with 0xFFFF_FFFF (R222). -/
def execUnlistedEcallService (s : State) : Out :=
  match s.ecallDue with
  | some (w, n, _, d) => if 4 ≤ n then .next (s.ecallAnswer w d 0xFFFFFFFF) else .next s
  | none => .next s

end Sys2Proof.Machine
end

