-- ==== Sys2Proof/Machine/Home.lean ====
section
/-! DEFINITION. What happens of itself in a core and on the mesh: scoreboard entries that clear, lines that arrive, beats that
drain, requests at their home slices and the values that return (R71, R73, R108, R150, R153, R308, R320, R396, R460, R476). -/

namespace Sys2Proof.Machine

/-! ## Scoreboard, instruction lines and beats (R71, R73, R308) -/

/-- Whether a scoreboard entry completes by a cycle. -/
def SbEntry.dueBy (x : SbEntry) (cyc : Nat) : Bool :=
  match x.due with
  | some t => decide (t ≤ cyc)
  | none => false

/-- Whether a register write completes in this cycle: an entry of a scoreboard, a child returned to its parent, or a region that came from
another gang. -/
def State.writeDue (s : State) : Bool :=
  (s.work.engines.any fun kv => kv.2.sb.any fun x => x.dueBy s.clock.cyc) ||
    (s.own.childReturns.any fun c => decide (c.1 ≤ s.clock.cyc)) || s.own.moving.any fun m => decide (m.1 ≤ s.clock.cyc)

/-- A region that came from another gang of the block stands in its register (R277); a gang that has ended meanwhile gives it back (R262). -/
def State.regionArrives (s : State) (m : Nat × Nat × Nat × Region) : State :=
  match s.engine m.2.1 with
  | none => match m.2.2.2.parent with
    | some (g, k) => s.childReturns g k
    | none => s
  | some e =>
    let s := s.setEngine m.2.1 (e.fillRegion m.2.2.1 m.2.2.2)
    if e.ended then s.returnRegion m.2.1 m.2.2.1 6 e.leftAt.1 e.leftAt.2 else s

/-- REGISTER_WRITE_COMPLETE: the scoreboard entries of writes that complete in this cycle clear (R73, R74), parents count the children that
were returned 4 cycles ago (R261), and regions that another gang gave in the cycle before are seen (R277). -/
def execRegisterWriteComplete (s : State) : Out :=
  let kids := s.own.childReturns.filter fun c => decide (c.1 ≤ s.clock.cyc)
  let come := s.own.moving.filter fun m => decide (m.1 ≤ s.clock.cyc)
  let s := { s with
    work := { s.work with engines := s.work.engines.mapKV fun _ e => { e with sb := e.sb.filter fun x => !x.dueBy s.clock.cyc } }
    own := { s.own with
      childReturns := s.own.childReturns.filter fun c => decide (s.clock.cyc < c.1)
      moving := s.own.moving.filter fun m => decide (s.clock.cyc < m.1) } }
  let s := kids.foldl (fun s c => s.dropChild c.2.1 c.2.2) s
  .next (come.foldl State.regionArrives s)

/-- The first instruction line that arrives by this cycle. -/
def State.icacheDue (s : State) : Option (Nat × Nat × Nat) := s.mem.icachePending.find? fun p => decide (p.2.2 ≤ s.clock.cyc)

/-- ICACHE_LINE_ARRIVE: a line enters an instruction cache, and its L2 slice (R71). -/
def execIcacheLineArrive (s : State) : Out :=
  match s.icacheDue with
  | none => .next s
  | some p =>
    let s := s.fillL2 [p.2.1 * 128]
    .next { s with mem :=
      { s.mem with
        icache := if s.mem.icache.contains (p.1, p.2.1) then s.mem.icache else s.mem.icache ++ [(p.1, p.2.1)]
        icachePending := s.mem.icachePending.filter fun q => !(q.1 == p.1 && q.2.1 == p.2.1) } }

/-- Whether a beat has drained by this cycle: its bytes are at the place that R278 gives, or wait there for nothing but a
back-invalidation that its gang's later accesses wait for too. -/
def State.beatDrained (s : State) (b : Beat) : Bool :=
  decide (b.due ≤ s.clock.cyc) && !(s.xlat.snoopWrites.any fun w => b.cells.any fun c => lineOf c.1 == w.1)

def State.beatDue (s : State) : Bool := s.work.engines.any fun kv => kv.2.draining.any s.beatDrained

/-- STORE_BEAT_DRAIN: beats that have drained free their places in the store buffers (R308). -/
def execStoreBeatDrain (s : State) : Out :=
  .next { s with work := { s.work with engines := s.work.engines.mapKV fun _ e =>
    { e with draining := e.draining.filter fun b => !s.beatDrained b } } }

/-! ## Cross-lane deadlock (R108) -/

/-- The lanes that an open instance awaits. -/
def Instance.awaited (e : Engine) (x : Instance) : List Nat :=
  (maskList x.mask e.width).filter fun k => (x.arrived.find? k).isNone && !x.absent.getLsbD k && (e.lane k).live

/-- Whether an instance is of a cross-lane instruction or `rcv`, and not of a barrier or `dflush` (R108). -/
def Instance.crosses (x : Instance) : Bool :=
  match x.op with
  | .bar _ _ | .dflush => false
  | _ => true

/-- Whether every live lane of an engine waits at a cross-lane instruction or `rcv`, and no instance can complete (R108). -/
def Engine.deadlocked (e : Engine) : Bool :=
  let live := e.lanes.filter fun kl => kl.2.live
  !e.ended && !live.isEmpty && !e.open_.isEmpty && e.open_.all (fun x => !x.complete e) &&
    live.all fun kl => kl.2.status == .waiting && !kl.2.stopped && e.open_.any fun x => x.crosses && (x.arrived.find? kl.1).isSome

def State.deadlockDue (s : State) : Option (Nat × Engine) :=
  List.find? (fun kv => kv.2.deadlocked && !s.trapQueued kv.1) s.work.engines

/-- CROSSLANE_DEADLOCK: the open instance of lowest address closes, and its arrived lanes raise MASK with the lowest lane
awaited (R108). -/
def execCrosslaneDeadlock (s : State) : Out :=
  match s.deadlockDue with
  | none => .next s
  | some (eng, e) =>
    match sortBy (fun (a b : Instance) => decide (a.pc.toNat ≤ b.pc.toNat)) (e.open_.filter Instance.crosses) with
    | [] => .next s
    | x :: _ =>
      let lanes := listMask (Store.keys x.arrived)
      let e' := e.mapLanes lanes fun _ l => { l with status := .ready, pc := x.pc }
      let e' := ({ e' with open_ := e'.open_.filter fun y => y.pc != x.pc }).clearTag x.tag
      .next ((s.setEngine eng e').raise
        { eng, cause := .mask, lanes, pc := x.pc, insn := x.insn, faddr := 0, detail := (x.awaited e).headD 0 })

/-! ## Handler entry (R320) -/

/-- The first trap that no handler defers and whose engine awaits no translation any more. -/
def State.handlerDue (s : State) : Option TrapReq :=
  s.work.traps.find? fun t =>
    !s.deferred t && !(s.xlat.pending.any fun p => p.eng == t.eng) && !(s.agenda.any fun i => i.eng == t.eng) && s.running t.eng

/-- HANDLER_ENTRY: a trap that waited for pending translations is taken (R320). -/
def execHandlerEntry (s : State) : Out :=
  match s.handlerDue with
  | none => .next s
  | some t => .next ({ s with work := { s.work with traps := s.work.traps.filter fun u => u != t } }.takeTrap t)

/-! ## Requests at their home (R150, R153, R405, R408, R427, R460, R476) -/

def State.setMesh (s : State) (q : MeshReq) : State := { s with mem := { s.mem with mesh := s.mem.mesh.put q.id q } }

def State.dropMesh (s : State) (id : Nat) : State := { s with mem := { s.mem with mesh := s.mem.mesh.erase id } }

/-- The first request in a stage that ends by this cycle. -/
def State.meshIn (s : State) (stage : MeshStage) : Option MeshReq :=
  (s.mem.mesh.firstWhere fun _ q => q.stage == stage && decide (q.due ≤ s.clock.cyc)).map Prod.snd

/-- Whether an operation only reads its location. -/
def MeshOp.reads : MeshOp → Bool
  | .load _ _ _ | .sigTest | .sigWaitGe _ | .sigWaitEq _ => true
  | _ => false

/-- Whether an operation is served in the slice's request queue rather than by the far-operation unit (R80). -/
def MeshOp.plain : MeshOp → Bool
  | .load _ _ _ | .store _ => true
  | _ => false

/-- Whether the home of a part's location is not the slice at which its request stands (R460). -/
def State.strayed (s : State) (q : MeshReq) : Bool :=
  q.parts.any fun p => !p.done && homeOf s (q.home / 16) p.loc != q.home

/-- A request answered REPLAY: the answer reaches its requester after 4h cycles (R460). -/
def State.replay (s : State) (q : MeshReq) : State :=
  s.setMesh { q with stage := .replayed, due := s.clock.cyc + 4 * q.hops }

/-- The lanes of a request. -/
def MeshReq.lanes (q : MeshReq) : Dword := listMask (q.parts.map MeshPart.lane)

/-- Whether a request that waits in its core may leave: as a release once the earlier accesses of its lanes are performed (R151, R285), and
behind an older one of its engine for the same line (R281). -/
def State.mayLeave (s : State) (q : MeshReq) : Bool :=
  q.stage == .after && (!q.rel || !s.outstanding q.eng q.lanes false q.id) &&
    !(s.mem.mesh.any fun r => r.2.eng == q.eng && decide (r.2.id < q.id) && r.2.stage == .after && q.meets r.2)

/-- The same for a request to another package, which also waits for earlier writes to further packages (R422). -/
def State.mayDepart (s : State) (r : RemoteReq) : Bool :=
  r.port == 16 && (!r.rel || !s.outstanding r.eng (listMask [r.lane]) false r.id) &&
    !(s.host.remote.any fun w => w.kind == 4 && w.pkg != r.pkg && decide (w.id < r.id))

/-- The requests that leave their cores now. -/
def State.leaver (s : State) : Option MeshReq := (s.mem.mesh.firstWhere fun _ q => s.mayLeave q).map Prod.snd
def State.departer (s : State) : Option RemoteReq := s.host.remote.find? s.mayDepart

/-- A request leaves its core; one to the scratchpad is performed there (R149, R476). -/
def State.leave (s : State) (q : MeshReq) : State :=
  if q.parts.all fun p => decide (2 ^ 61 ≤ p.loc) && decide (p.loc < 2 ^ 62) then (s.dropMesh q.id).farScratch q
  else s.setMesh { q with stage := .travelling, due := s.clock.cyc + q.requestLeg }

/-- A request to another package leaves its adapter. -/
def State.depart (s : State) (r : RemoteReq) : State :=
  let remote := s.host.remote.map fun (y : RemoteReq) => if y.id = r.id then { y with port := 17, sent := s.clock.cyc } else y
  { s with host := { s.host with remote } }.sendPacket r.pkg r.kind r.packet

/-- MESH_REQUEST_ARRIVE: a request that waited in its core leaves it (R151, R422); or a request enters its home's queue, where one for a line
that the slice no longer homes is answered REPLAY (R460, R476). -/
def execMeshRequestArrive (s : State) : Out :=
  match s.leaver, s.departer with
  | some q, _ => .next (s.leave q)
  | none, some r => .next (s.depart r)
  | none, none =>
    match s.meshIn .travelling with
    | none => .next s
    | some q => .next (if s.strayed q then s.replay q else s.setMesh { q with stage := .queued, due := s.clock.cyc, arrival := s.clock.cyc })

/-- L2CFG_REPLAY_RECEIVE: a request answered REPLAY is sent again to the line's new home (R460). -/
def execL2cfgReplayReceive (s : State) : Out :=
  match s.meshIn .replayed with
  | none => .next s
  | some q =>
    match s.engine q.eng with
    | none => match s.inboundOf q.wait with
      | some x => .next (if q.eng = 0 then (s.dropMesh q.id).inboundGo x else s.dropMesh q.id)
      | none => .next (s.dropMesh q.id)
    | some e => .next ((s.dropMesh q.id).meshSend q.eng e q.pc.toNat q.dest q.wait q.obj false q.parts)

/-- Whether a part's line is at hand at its home, with no write there that waits for a back-invalidation (R405). -/
def State.partReady (s : State) (_ : MeshReq) (p : MeshPart) : Bool :=
  if isHost p.loc then
    (if p.op.reads then s.lineHeld (lineOf p.loc) else s.lineOwned (lineOf p.loc)) || s.unreachable p.loc
  else s.atHand p.loc && (if p.op.reads then !(s.xlat.snoopWrites.any fun w => w.1 == lineOf p.loc) else !s.writeWaits p.loc)

/-- Whether what a part waits for has been asked for. -/
def State.partAsked (s : State) (p : MeshPart) : Bool :=
  let line := lineOf p.loc
  if isHost p.loc then
    s.host.cxlReqs.any fun r => r.hpa == line * 128 - 2 ^ 60 && (r.own || p.op.reads)
  else s.flipping p.loc || (s.xlat.snoopWrites.any fun w => w.1 == line) || [2 * line, 2 * line + 1].all fun n => s.xlat.snoops.contains n || s.xlat.snooped.contains n

/-- The parts of a request still to be performed. -/
def MeshReq.todo (q : MeshReq) : List MeshPart := q.parts.filter fun p => !p.done

/-- Where a request is served at its slice (R80, R278): plain accesses of the far-op unit's space 0x6, far operations and signals there,
other loads and stores in the slice's request queue. -/
def MeshReq.station (q : MeshReq) : Nat :=
  2 * q.home + (if q.parts.all fun p => p.op.plain && spaceOf p.addr != 0x6 then 0 else 1)

/-- The order of a home's queue: a request under way first, then by arrival, port and age (R81, R150). -/
def servedBefore (a b : MeshReq) : Bool :=
  let begun := fun (q : MeshReq) => q.parts.any MeshPart.done
  if begun a ≠ begun b then begun a
  else if a.arrival ≠ b.arrival then decide (a.arrival < b.arrival)
  else if a.order ≠ b.order then decide (a.order < b.order)
  else decide (a.id ≤ b.id)

/-- Whether an earlier request of a request's engine for one of its lines has yet to be performed at the home (R281, R286). -/
def State.behind (s : State) (q : MeshReq) : Bool :=
  s.mem.mesh.any fun r => r.2.eng == q.eng && q.eng != 0 && r.2.id != q.id && (r.2.stage == .queued || r.2.stage == .dram) &&
    r.2.home == q.home && servedBefore r.2 q && q.meets r.2

/-- Whether a queued request can be served or has something to ask for, at a station that has not served in this cycle: lines that a
reconfiguration moves are held at their home (R460). -/
def State.servable (s : State) (q : MeshReq) : Bool :=
  q.stage == .queued && decide (q.due ≤ s.clock.cyc) && s.mem.served.find? q.station != some s.clock.cyc && !s.behind q &&
    !(q.todo.any fun p => (s.movingTo p.loc).isSome) &&
    (q.todo.all (s.partReady q) || q.todo.any fun p => !s.partReady q p && !s.partAsked p)

/-- The request that a home serves next. -/
def State.serveDue (s : State) : Option MeshReq :=
  (sortBy servedBefore ((Store.vals s.mem.mesh).filter s.servable)).head?

/-- A part performed at its home, with the line's state in L2 and towards the host. -/
def State.servePart (s : State) (q : MeshReq) (p : MeshPart) : State × MeshPart :=
  let line := lineOf p.loc
  let s := if isHost p.loc then (if p.op.reads then s.shareLine (q.home / 16) line else s.ownLine (q.home / 16) line) else s
  let (s, p) := s.performPart q p
  let s := if s.hostBiased p.loc && s.snoopDone line then s.useSnoop line else s
  (s.fillL2 [p.loc], p)

/-- The tag of a request cleared on its gang's scoreboard, once no other request carries it. -/
def State.endTag (s : State) (q : MeshReq) : State :=
  let more := (s.mem.mesh.any fun r => r.1 != q.id && r.2.eng == q.eng && r.2.wait == q.wait)
    || (s.host.remote.any fun r => r.eng == q.eng && r.wait == q.wait)
    || s.mem.waiters.any fun w => w.eng == q.eng && w.wait == q.wait
  if more then s else s.modEngine q.eng fun e => e.clearTag q.wait

/-- The return leg of a value (R476). -/
def MeshReq.returnLeg (q : MeshReq) : Nat :=
  (if q.parts.any fun p => p.op.plain then 56 else 70) + 2 * q.hops + 18 * q.crossings

/-- A request whose parts are all performed: its values return, or nothing does. -/
def State.served (s : State) (q : MeshReq) : State :=
  if q.eng = 0 then s.inboundServed q q.returnLeg
  else if q.parts.any fun p => p.value.isSome then s.setMesh { q with stage := .returning, due := s.clock.cyc + q.returnLeg }
  else (s.dropMesh q.id).endTag q

/-- The parts of a plain request performed together; the first part of another alone. -/
def State.serveParts (s : State) (q : MeshReq) (all : Bool) : List MeshPart → State × List MeshPart
  | [] => (s, [])
  | p :: r =>
    if p.done then
      let (s, r) := State.serveParts s q all r
      (s, p :: r)
    else
      let (s, p) := s.servePart q p
      if all then
        let (s, r) := State.serveParts s q all r
        (s, p :: r)
      else (s, p :: r)

/-- A station busy for this cycle: its other requests wait whole cycles (R81). -/
def State.homeUsed (s : State) (q : MeshReq) : State :=
  { s with mem := { s.mem with served := s.mem.served.put q.station s.clock.cyc } }

/-- The device's own cycles of a load that misses in host memory (R428). -/
def cxlCycles : Nat := 280

/-- A trap raised for lanes of a request, unless its engine is gone. -/
def State.raiseFor (s : State) (q : MeshReq) (lanes : List Nat) (addr : Nat) : State :=
  match s.engine q.eng with
  | none => s
  | some e =>
    if e.ended then s
    else s.raise { eng := q.eng, cause := .poison, lanes := listMask lanes, pc := q.pc, insn := s.insnAt e.ctx q.pc.toNat, faddr := addr
                   detail := 0 }

/-- HOME_SERVE: the home serves a request: it asks for lines that are not at hand, a load of host memory after the device's own cycles,
waits for the pull of a line under migration, sends a load that misses to DRAM, and otherwise performs (R150, R405, R408, R427, R428,
R476). -/
def execHomeServe (s : State) : Out :=
  match s.serveDue with
  | none => .next s
  | some q =>
    let missing := q.todo.filter fun p => !s.partReady q p
    let pull := (q.todo.map fun p => s.pullCycles p.loc).foldl max 0
    let plain := q.parts.all fun p => p.op.plain
    let lost := q.todo.filter fun p => s.unreachable p.loc
    if !lost.isEmpty ∧ q.eng = 0 then .next ((s.dropMesh q.id).inboundDone q true)
    else if !lost.isEmpty then
      .next (((s.dropMesh q.id).endTag q).raiseFor q (lost.map MeshPart.lane) ((lost.map MeshPart.addr).headD 0))
    else if q.eng ≠ 0 ∧ missing.any fun p => isHost p.loc && p.op.plain && p.op.reads then
      .next ((s.setMesh { q with stage := .dram, due := s.clock.cyc + cxlCycles }).homeUsed q)
    else if !missing.isEmpty then .next (missing.foldl (fun s p => s.askFor (lineOf p.loc) (!p.op.reads)) s)
    else if pull ≠ 0 then
      .next ((q.todo.foldl (fun s p => s.startPull p.loc) s).setMesh { q with due := s.clock.cyc + pull })
    else if (q.todo.any fun p => p.op.plain && p.op.reads && isDram p.loc && (s.mem.l2.find? (lineOf p.loc)).isNone) then
      .next ((s.setMesh { q with stage := .dram, due := s.clock.cyc + dramCycles }).homeUsed q)
    else
      let (s, parts) := s.serveParts q plain q.parts
      let q := { q with parts, due := s.clock.cyc }
      let s := s.setMesh q
      .next ((if parts.all MeshPart.done then s.served q else s).homeUsed q)

/-- DRAM_SUPPLY: DRAM supplies the bytes of a load that missed, and the load is performed (R476); a line of host memory is asked for, unless
it has come meanwhile, and the load waits for it (R428). -/
def execDramSupply (s : State) : Out :=
  match s.meshIn .dram with
  | none => .next s
  | some q =>
    let missing := q.todo.filter fun p => !s.partReady q p
    if missing.isEmpty then
      let (s, parts) := s.serveParts q true q.parts
      .next (s.served { q with parts })
    else .next (missing.foldl (fun s p => s.askFor (lineOf p.loc) false) (s.setMesh { q with stage := .queued, due := s.clock.cyc }))

/-- The value of a part returned to its lane; a lane asleep at a `sig.wait` continues. -/
def State.returnPart (s : State) (q : MeshReq) (p : MeshPart) : State :=
  match p.value, s.engine q.eng with
  | some bs, some e =>
    match p.op, (e.lane p.lane).status with
    | .sigWaitGe _, .sleeping id | .sigWaitEq _, .sleeping id =>
      match s.waitOf id with
      | some w => s.finishWait w fun l => l.receive q.dest p.op bs
      | none => s
    | .load z signed src, _ =>
      let s := s.modEngine q.eng fun e => e.setLane p.lane ((e.lane p.lane).receive q.dest (.load z signed src) bs)
      if src.fill then { s with mem := s.mem.l1Fill e.l1 src.obj src.version (lineOf p.loc) } else s
    | op, _ => s.modEngine q.eng fun e => e.setLane p.lane ((e.lane p.lane).receive q.dest op bs)
  | _, _ => s

/-- The poisoned byte that a returning load consumes (R318). -/
def State.returnPoison (s : State) (q : MeshReq) : Option Nat :=
  firstSome (fun p => match p.op with
    | .load z _ _ => (s.poisonAt p.loc (sizeBytes z)).map fun n => p.addr + n
    | _ => none) q.parts

/-- VALUE_RETURN: the values of a request reach their lanes, and the scoreboard entry clears with the last (R150, R476); a
poisoned load raises POISON instead (R318). -/
def execValueReturn (s : State) : Out :=
  match s.meshIn .returning with
  | none => .next s
  | some q =>
    let s := q.parts.foldl (fun s p => match p.op with
      | .load z _ _ => s.readWords p.loc (sizeBytes z)
      | _ => s) s
    if q.eng = 0 then .next ((s.dropMesh q.id).inboundDone q (s.returnPoison q).isSome)
    else match s.returnPoison q with
    | some a => .next (((s.dropMesh q.id).endTag q).raiseFor q (q.parts.map MeshPart.lane) a)
    | none => .next (((q.parts.foldl (fun s p => s.returnPart q p) s).dropMesh q.id).endTag q)

/-! ## Translations that complete (R313, R314, R396, R398) -/

/-- The translation that completes first. -/
def State.xlatDue (s : State) : Option PendingXlat :=
  s.xlat.pending.find? fun p => match p.due with
    | some t => decide (t ≤ s.clock.cyc)
    | none => false

/-- The issue at which a waiting access stands. -/
def PendingXlat.issue (p : PendingXlat) : Issue :=
  { eng := p.eng, pc := p.pc, lanes := listMask (p.parts.map Prod.fst), away := 0, insn := p.insn, len := p.len }

def State.dropXlat (s : State) (p : PendingXlat) : State :=
  { s with xlat := { s.xlat with pending := s.xlat.pending.filter fun q => q.id != p.id } }

/-- A waiting access that goes on waiting, for a page or lines that have been asked for. -/
def State.parkXlat (s : State) (p : PendingXlat) : State :=
  { s with xlat := { s.xlat with pending := s.xlat.pending.map fun q => if q.id = p.id then { q with due := none } else q } }

/-- The accesses that wait for a page look again, in the tables as they now stand. -/
def State.wakeXlats (s : State) : State :=
  { s with xlat := { s.xlat with pending := s.xlat.pending.map fun q =>
    if q.due.isNone then { q with due := some s.clock.cyc, root := ptbOf s (((s.engine q.eng).map Engine.ctx).getD 0) } else q } }

/-- The tables as a walk that has begun sees them: from the root at its start (R217). -/
def State.walkView (s : State) (p : PendingXlat) (e : Engine) : State := s.modContext e.ctx fun c => { c with ptb := p.root }

/-- A waiting access that consumes poison, or whose bytes cannot be reached (R318). -/
def State.poisonXlat (s : State) (p : PendingXlat) (a : Nat) : State :=
  ((s.dropXlat p).modEngine p.eng fun e => e.clearTag p.id).raise
    { eng := p.eng, cause := .poison, lanes := p.issue.lanes, pc := p.pc, insn := p.insn, faddr := a, detail := 0 }

/-- A waiting load that is translated: performed or sent to its homes, with the stores that are older than it (R281). -/
def State.xlatLoad (s : State) (p : PendingXlat) (e : Engine) (ps : List Place1) : State :=
  let s := (s.dropXlat p).installAll p.eng e .load p.parts
  let e := ((s.engine p.eng).getD e).older p.seen
  let sent := ps.any fun x => !s.loadsHere p.eng e p.obj p.version x
  let (s, lat) := s.startLoad p.eng e p.pc p.work p.obj p.version p.id p.stream ps
  if sent then s
  else s.modEngine p.eng fun e =>
    let e := e.dueTag p.id (s.clock.cyc + lat)
    { e with sb := e.sb ++ [{ key := .load p.issue.lanes, due := some (s.clock.cyc + lat), tag := p.id }] }

/-- The translation of a fetch: into the TLBs, or an abort of the region (R313, R395). -/
def State.xlatFetch (s : State) (p : PendingXlat) (e : Engine) (va : Nat) : State :=
  match resolve (s.walkView p e) e.fetchAsker none .fetch va with
  | .at_ _ _ (some x) =>
    let s := install (s.dropXlat p) e.fetchAsker (va % 2 ^ 57) x
    if e.isSeq then s.modEngine p.eng fun e => e.setLane 0 { e.lane 0 with lastPage := some x } else s
  | .fault k l n _ =>
    let lanes := e.lanesWhere fun _ x => x.readyToIssue && x.pc == p.pc
    if lanes = 0 then s.dropXlat p
    else (s.dropXlat p).abortRegion { p.issue with lanes } lanes va k l n .fetch
  | .ats v _ => (s.parkXlat p).requestAts v
  | _ => s.dropXlat p

/-- TRANSLATION_COMPLETE: an access's translation completes; it is performed, raises POISON, waits for what is missing, or meets a
fault and aborts its region (R313, R396, R399). -/
def execTranslationComplete (s : State) : Out :=
  match s.xlatDue with
  | none => .next s
  | some p =>
    match s.engine p.eng with
    | none => .next (s.dropXlat p)
    | some e =>
      if p.work = .fetch then .next (s.xlatFetch p e ((p.parts.headD (0, 0)).2))
      else match (s.walkView p e).reached e .load p.parts with
        | .go ps =>
          match s.poisoned ps p.work.size with
          | some a => .next (s.poisonXlat p a)
          | none => .next (s.xlatLoad p e ps)
        | .fault a k l n => .next (s.abortRegion p.issue p.issue.lanes a k l n .load)
        | .ats vs => .next (vs.foldl State.requestAts (s.parkXlat p))

/-- A far operation that was held for its page translates again: it goes to its home, or waits on (R314). -/
def State.retryFar (s : State) (q : MeshReq) : State :=
  match s.engine q.eng with
  | none => s.dropMesh q.id
  | some e =>
    let parts := q.parts.map fun p => (p.lane, p.addr)
    match s.reached e .far parts with
    | .fault a k l n =>
      let (seq, s) := s.report e.ctx a k l n .far
      s.setMesh { q with stage := .held seq }
    | .ats vs => (vs.foldl State.requestAts s).setMesh { q with stage := .held 0 }
    | .go ps =>
      let s := (s.installAll q.eng e .far parts).dropMesh q.id
      let parts := (q.parts.zip ps).map fun x => { x.1 with loc := x.2.loc }
      let det := s.isDet e && parts.all fun p => match p.op with
        | .far _ _ _ _ _ => true
        | _ => false
      if det then
        (s.holdDet q.eng e q.pc.toNat q.obj ((parts.head?.map fun p => p.op.atEnd).getD false) parts).endTag q
      else s.meshSend q.eng e q.pc.toNat q.dest q.wait q.obj (q.rel && s.outstanding q.eng q.lanes false q.id) parts

end Sys2Proof.Machine
end

