-- ==== Sys2Proof/Machine/Owner.lean ====
section
/-! DEFINITION. The ownership tables at work: requests that arrive, grants, answers, write-backs, leases and the messages between
proxy entries and homes (R154, R254 to R256, R263 to R267, R322, R411 to R416, R424, R425, R447). -/

namespace Sys2Proof.Machine

/-! ## Requests, grants and answers (R154, R255, R256, R412) -/

/-- The code of an entry's KIND (R253). -/
def EntryKind.code : EntryKind → Nat
  | .free => 0 | .idle => 1 | .excl => 2 | .shared => 3 | .offered => 4

/-- The STATE byte of an entry (R253). -/
def OwnEntry.stateByte (x : OwnEntry) : Nat :=
  x.kind.code + (if x.abandoned then 16 else 0) + (if x.detRed then 32 else 0) + (if x.shadow then 64 else 0)

/-- The 64-byte image of an entry, with the number of requests that wait at it (R252). -/
def State.entryImage (s : State) (obj : Nat) : List Byte :=
  let x := s.entry obj
  leBytes 8 x.base ++ leBytes 8 x.span ++ leBytes 4 x.version ++ leBytes 4 x.retired ++ leBytes 2 x.holders ++ leBytes 1 x.stateByte ++
    leBytes 1 (x.scope % 8 + (if x.writing then 128 else 0)) ++ leBytes 2 x.ctx ++ leBytes 2 (s.waitingAt obj).length ++
    leBytes 4 x.xlaunch ++ leBytes 4 x.xblock ++ leBytes 4 x.slaunch ++ leBytes 4 x.sblock ++ leBytes 4 x.detLaunch ++
    leBytes 2 x.rholders ++ leBytes 10 0

/-- Whether a walk reclaims; an `owalk` with k = 0 only counts (R223). -/
def WalkFor.reclaims : WalkFor → Bool
  | .owalk _ _ r => r
  | _ => true

/-- Whether a reclaim walk has yet to reach an entry: requests that arrive wait for it (R380). -/
def State.unwalked (s : State) (obj : Nat) : Bool :=
  s.own.walks.any fun w => w.for_.reclaims && decide (w.next ≤ obj % 2 ^ 16 / 256)

/-- Whether a die's table has a place for a waiting request (R256). -/
def State.tableRoom (s : State) (die : Nat) : Bool :=
  decide ((s.own.requests.filter fun q => q.stage == .queued && objDie q.obj == die).length < 8192)

/-- Whether a die's ownership table takes one more request in this cycle: it takes four (R80). -/
def State.tableServes (s : State) (die : Nat) : Bool :=
  decide ((s.own.tabled.filter fun x => x == (die, s.clock.cyc)).length < 4)

/-- A request taken by a die's table. -/
def State.tableUsed (s : State) (die : Nat) : State :=
  { s with own := { s.own with tabled := (die, s.clock.cyc) :: s.own.tabled.filter fun x => x.2 == s.clock.cyc } }

/-- Whether a request that has been issued can be taken: its die's table has a place for a waiting request (R256), or a proxy entry is
free where it needs one (R412), and the table has not served four in this cycle (R80). -/
def State.acceptable (s : State) (r : BorrowReq) : Bool :=
  match r.who with
  | .eng id => match s.engine id with
    | some e =>
      s.tableServes e.place.die &&
        (if localObj e.place.die r.pkg r.obj then !s.unwalked r.obj && s.tableRoom e.place.die
        else s.proxyFree e.place.die r.pkg r.obj)
    | none => true
  | .package _ _ _ => true

/-- Whether a request comes before another at a table (R81). -/
def requestBefore (a b : BorrowReq) : Bool :=
  if a.since ≠ b.since then decide (a.since < b.since)
  else if a.order ≠ b.order then decide (a.order < b.order) else decide (a.id ≤ b.id)

/-- The request that arrives next. -/
def State.requestDue (s : State) : Option BorrowReq :=
  (sortBy requestBefore (s.own.requests.filter fun r => r.stage == .issued && s.acceptable r)).head?

/-- BORROW_REQUEST_ARRIVE (R256, R412). -/
def execBorrowRequestArrive (s : State) : Out :=
  match s.requestDue with
  | none => .next s
  | some r => .next ((s.requestArrives r).tableUsed (match r.who with
    | .eng id => ((s.engine id).map fun e => e.place.die).getD (objDie r.obj)
    | .package _ _ _ => objDie r.obj))

/-- The first waiting request that may be granted, or that the order of a DET launch refuses by now (R270, R271). -/
def State.grantDue (s : State) : Option BorrowReq :=
  s.own.requests.find? fun r => r.stage == .queued && r.pkg.isNone &&
    (s.mayGrant r || State.detRefuses (s.entry r.obj) (s.party r) r)

/-- BORROW_GRANT (R255, R258); a request that waited while the order of its DET launch turned against it is refused (R270, R271). -/
def execBorrowGrant (s : State) : Out :=
  match s.grantDue with
  | none => .next s
  | some r => .next (if State.detRefuses (s.entry r.obj) (s.party r) r then s.answerRequest r 2 0 0 else s.grant r)

/-- The first answer that reaches its requester by this cycle, with its status. -/
def State.answerDue (s : State) : Option (BorrowReq × Nat) :=
  firstSome (fun r => match r.stage with
    | .answered t n => if t ≤ s.clock.cyc then some (r, n) else none
    | _ => none) s.own.requests

/-- A borrow granted to an engine that has gone: given back at once. -/
def State.giveBack (s : State) (r : BorrowReq) (eng : Nat) (e : Engine) : State :=
  let s := { s with own := { s.own with requests := s.own.requests.filter fun q => q.id != r.id } }
  let g := r.region eng 0
  if r.exclusive then s.releaseExclusive eng e r.dest g 6 0 0 else s.releaseShared e.place.die g

/-- BORROW_ANSWER: the answer reaches the requester (R154, R155); a granted layer request tells Calico (R213). -/
def execBorrowAnswer (s : State) : Out :=
  match s.answerDue with
  | none => .next s
  | some (r, n) =>
    match r.who with
    | .package _ _ _ =>
      .next { s with own := { s.own with requests := s.own.requests.filter fun q => q.id != r.id } }
    | .eng id =>
      let granted := n == 0 || n == 3 || n == 4
      match s.engine id with
      | none => .next { s with own := { s.own with requests := s.own.requests.filter fun q => q.id != r.id } }
      | some e =>
        if e.ended || r.withdrawn then
          .next (if granted then s.giveBack r id e
            else { s with own := { s.own with requests := s.own.requests.filter fun q => q.id != r.id } })
        else
          let s := s.borrowAnswer r id n
          .next (match r.layer with
            | some l => if granted then s.layerGranted e.ctx l else s
            | none => s)

/-! ## Write-backs (R263 to R265, R322, R447) -/

/-- The host lines of a write-back that this package does not hold for writing. -/
def State.writeBackMissing (s : State) (w : WriteBack) : List Nat :=
  (w.cells.map fun c => lineOf c.1).dedup.filter fun l => isHost (l * 128) && !s.lineOwned l

/-- Whether a line has been asked for with the right to write it. -/
def State.lineAsked (s : State) (line : Nat) : Bool :=
  s.host.cxlReqs.any fun r => r.hpa == line * 128 - 2 ^ 60 && r.own

/-- The lines that make a write-back fail: their home cannot be reached. -/
def State.writeBackLost (s : State) (w : WriteBack) : List Nat :=
  (s.writeBackMissing w).filter fun l => !s.hostReachable (l * 128)

/-- Whether a write-back has something to do: it completes, asks for lines, or sends RETURN. -/
def State.writeBackActs (s : State) (w : WriteBack) : Bool :=
  w.fail == 0 && (s.writeBackLost w).isEmpty &&
    (match w.away, w.origin with
    | some (pkg, _), some (eng, _, _) => !s.awayPending eng pkg w.obj
    | some _, none => true
    | none, _ =>
      let m := s.writeBackMissing w
      decide (w.due ≤ s.clock.cyc) && (m.isEmpty || m.any fun l => !s.lineAsked l))

def State.writeBackDue (s : State) : Option WriteBack := s.own.writeBacks.find? s.writeBackActs

/-- A write-back that runs no more: the region that started it says so (R259). -/
def State.endWriteBack (s : State) (w : WriteBack) : State :=
  let s := { s with own := { s.own with writeBacks := s.own.writeBacks.filter fun x => x != w } }
  match w.origin with
  | some (eng, h, _) =>
    let more := s.own.writeBacks.any fun y => (y.origin.map fun o => (o.1, o.2.1)) == some (eng, h)
    s.modEngine eng fun e => e.setRegion h { e.region h with writingBack := more }
  | none => s

/-- The entry after a write-back: its scope is the wider one, unless a new exclusive borrow has taken the object (R265). -/
def State.widenScope (s : State) (w : WriteBack) : State :=
  let x := s.entry w.obj
  s.setEntry w.obj { x with
    writing := s.own.writeBacks.any (fun y => y.obj == w.obj && y.away.isNone && y.origin.isSome)
    scope := if x.version = w.version ∧ x.kind ≠ .excl then w.scope else x.scope }

/-- The captured bytes of a write-back at their homes, and beyond them for .sys (R263). -/
def State.carryThrough (s : State) (w : WriteBack) : State :=
  let s := s.writeCaptured w.core w.obj w.cells
  if w.scope = 7 then s.writeThrough w.lines else s

/-- WRITEBACK_COMPLETE: the lines stand at their homes and the entry's scope widens, host lines are asked for, or RETURN leaves for
another package (R263 to R265, R427, R447). -/
def execWritebackComplete (s : State) : Out :=
  match s.writeBackDue with
  | none => .next s
  | some w =>
    match w.away with
    | some (pkg, die) => .next ((s.endWriteBack w).sendReturn die pkg w.obj w.version)
    | none =>
      let m := s.writeBackMissing w
      if m.isEmpty then .next (((s.endWriteBack w).carryThrough w).widenScope w)
      else .next (m.foldl (fun s l => s.requestLine l true) s)

/-- The first write-back that has failed. -/
def State.writeBackFailed (s : State) : Option WriteBack :=
  s.own.writeBacks.find? fun w => w.fail != 0 || !(s.writeBackLost w).isEmpty

/-- A failure of a write that its instruction has left behind: a frame with cause IMPRECISE in the launch's fault record (R318, R322). -/
def State.imprecise (s : State) (eng : Nat) (pc : Word) (lanes : Dword) (faddr detail : Nat) : State :=
  match s.engine eng with
  | none => s
  | some e =>
    let t : TrapReq := { eng, cause := .imprecise, lanes, pc, insn := s.insnAt e.ctx pc.toNat, faddr, detail }
    s.recordFault e.launch (e.frame t (e.frameFlags false false e.ended))

/-- The address of an object's line that stands at a location (R318). -/
def State.lineVa (s : State) (x : OwnEntry) (line : Nat) : Nat :=
  ((lineAddrs x.base x.span).find? fun va => (s.quietLoc x.ctx .load va).map lineOf == some line).getD 0

/-- WRITEBACK_FAIL: the failed lines are poisoned at their home slices, and a frame with cause IMPRECISE goes to the launch's
fault record, with bit 63 of its completion signal (R318, R322). -/
def execWritebackFail (s : State) : Out :=
  match s.writeBackFailed with
  | none => .next s
  | some w =>
    let detail := if w.fail = 0 then 2 else w.fail
    let lines := if w.fail = 0 then s.writeBackMissing w else (w.cells.map fun c => lineOf c.1).dedup.filter fun l => isHost (l * 128)
    let faddr := if w.away.isSome then w.faddr else (lines.head?.map (s.lineVa (s.entry w.obj))).getD 0
    let s := ((s.endWriteBack w).writeCaptured w.core w.obj w.cells).widenScope w
    let s := { s with mem := { s.mem with poison := (lines ++ s.mem.poison).dedup } }
    .next (match w.blame with
      | none => s
      | some (eng, pc, lanes) => s.imprecise eng pc lanes faddr detail)

/-! ## Ownership messages (R411 to R416, R424, R425) -/

/-- A message between dies taken from the fabric; one from another package was never on it. -/
def State.takeMessage (s : State) (m : OwnMsg) : State :=
  match s.own.messages.findIdx? fun x => x.2 == m && decide (x.1 ≤ s.clock.cyc) with
  | some k => { s with own := { s.own with messages := s.own.messages.eraseIdx k } }
  | none => s

/-- Whether a message's request can be taken at an entry's table (R80, R256, R380). -/
def State.tableTakes (s : State) (obj : Nat) : Bool :=
  !s.unwalked obj && s.tableRoom (objDie (obj % 2 ^ 18)) && s.tableServes (objDie (obj % 2 ^ 18))

/-- The first message between dies that arrives by this cycle. -/
def State.messageDue (s : State) : Option OwnMsg :=
  (s.own.messages.find? fun x =>
    decide (x.1 ≤ s.clock.cyc) && (decide (2 < x.2.type) || s.tableTakes x.2.obj)).map Prod.snd

/-- The engine's request that a message answers or carries. -/
def State.requestOf (s : State) (m : OwnMsg) : Option BorrowReq :=
  s.own.requests.find? fun r => r.stage == .sent && r.id % 2 ^ 16 == m.tag && r.obj == m.obj % 2 ^ 18

/-- An answer to a message. -/
def replyTo (m : OwnMsg) (type status : Nat) : OwnMsg :=
  { m with type, status, srcPkg := m.dstPkg, srcDie := m.dstDie, dstPkg := m.srcPkg, dstDie := m.srcDie, lease := 0, key := 0 }

/-- A message sent where it goes: to a die of this package or to another package. -/
def State.sendOwn (s : State) (m : OwnMsg) : State :=
  if m.dstPkg = s.pkgId then s.sendInner 0 m else s.sendOuter m

/-- The export key of a value. -/
def State.exportKey (s : State) (key : Nat) : Option ExportKey :=
  if key = 0 then none else (Store.vals s.host.keys).find? fun k => k.key == key

/-- A borrow request from another package: refused without a key of its object and right, in the exporting context's name
otherwise (R425). -/
def State.packageRequest (s : State) (m : OwnMsg) (exclusive : Bool) : State :=
  let obj := m.obj % 2 ^ 18
  let deny := fun (n : Nat) => s.sendOuter (replyTo m 4 n)
  match s.exportKey m.key with
  | none => deny 6
  | some k =>
    let x := s.entry obj
    if k.obj ≠ m.obj ∨ bit k.rights (if exclusive then 1 else 0) = false then deny 6
    else if x.kind = .free ∨ x.ctx ≠ k.ctx then deny 5
    else
      let (id, s) := s.fresh
      let r : BorrowReq :=
        { id, who := .package m.srcPkg m.srcDie m.tag, pkg := none, obj, exclusive, try_ := false, tensor := 0
          base := x.base + k.offset, extent := k.len, dest := 0, parent := none, pred := 0, layer := none
          order := 2 ^ 20 + m.srcPkg, stage := .issued, version := 0, wait := 0 }
      { s with own := { s.own with requests := s.own.requests ++ [r] } }.atEntry r

/-- A request message at its home (R254, R256, R411). -/
def State.requestMessage (s : State) (m : OwnMsg) (exclusive : Bool) : State :=
  let s := (s.takeMessage m).tableUsed (objDie (m.obj % 2 ^ 18))
  if m.srcPkg = s.pkgId then
    match s.requestOf m with
    | some r =>
      if r.withdrawn then { s with own := { s.own with requests := s.own.requests.filter fun q => q.id != r.id } }
      else s.atEntry r
    | none => s
  else s.packageRequest m exclusive

/-- REQX: a request for an exclusive borrow arrives at the home entry. -/
def execReqx (m : OwnMsg) (s : State) : Out := .next (s.requestMessage m true)

/-- REQS: a request for a shared borrow arrives at the home entry. -/
def execReqs (m : OwnMsg) (s : State) : Out := .next (s.requestMessage m false)

/-- GRANT: the proxy entry records the holder and its lease, and the requester is answered (R412, R413). -/
def execGrant (m : OwnMsg) (s : State) : Out :=
  let s := s.takeMessage m
  match s.requestOf m with
  | none => .next s
  | some r =>
    let p := (s.proxyOf m.dstDie r.pkg r.obj).getD (.fresh m.dstDie r.pkg r.obj)
    let s := s.setProxy (if r.exclusive then { p with exclusive := true, version := m.version }
      else
        { p with
          holders := p.holders + 1, version := m.version, expiry := some (s.clock.cyc + m.lease), recalled := false
          renewSent := false, grants := p.grants + 1 })
    let r := { r with stage := .answered s.clock.cyc m.status, version := m.version }
    let gone := match r.who with
      | .eng id => (s.engine id).isNone
      | .package _ _ _ => false
    match gone, r.exclusive, r.pkg with
    | true, true, some k => .next ((s.setRequest r).sendReturn m.dstDie k r.obj r.version)
    | true, false, _ => .next ((s.setRequest r).releaseShared m.dstDie (r.region 0 0))
    | _, _, _ => .next (s.setRequest r)

/-- DENY: the requester is answered; a denied RENEW leaves the expiry as it is (R411, R415). -/
def execDeny (m : OwnMsg) (s : State) : Out :=
  let s := s.takeMessage m
  match s.requestOf m with
  | none => .next s
  | some r => .next (s.setRequest { r with stage := .answered s.clock.cyc m.status })

/-- MSG_RETURN: an exclusive borrow comes back to its home entry, its object's bytes final (R255, R447). -/
def execMsgReturn (m : OwnMsg) (s : State) : Out :=
  let s := s.takeMessage m
  let x := s.entry m.obj
  if x.kind = .excl ∧ x.version = m.version then
    .next ((s.setEntry m.obj { x with kind := .idle, scope := 7, writing := false }).reachWaiting m.obj)
  else .next s

/-- Shared borrows of a version released at their entry. -/
def State.dropShareds (s : State) (obj version : Nat) : Nat → State
  | 0 => s
  | n + 1 => (s.dropShared obj version).dropShareds obj version n

/-- A lease of a die or package ended at its home, with the holders that its `n` GRANTs counted; 0 stands for all of them (R267, R413). -/
def State.dropLease (s : State) (obj pkg die version n : Nat) : State :=
  let ls := Store.get [] s.own.leases (obj % 2 ^ 18)
  match ls.find? fun l => l.pkg == pkg && l.die == die with
  | none => s
  | some l =>
    let n := if n = 0 then l.count else min n l.count
    let ls := if n = l.count then ls.filter fun x => x != l else ls.map fun x => if x = l then { x with count := x.count - n } else x
    { s with own := { s.own with leases := Store.set [] s.own.leases (obj % 2 ^ 18) ls } }.dropShareds (obj % 2 ^ 18) version n

/-- LRETURN: a lease comes back to its home entry (R413, R416). -/
def execLreturn (m : OwnMsg) (s : State) : Out :=
  let s := s.takeMessage m
  .next (s.dropLease m.obj m.srcPkg m.srcDie m.version (if m.srcPkg = s.pkgId then m.tag else 0))

/-- RENEW: the home renews the lease with the doubled length, or answers DENY (R414, R415). -/
def execRenew (m : OwnMsg) (s : State) : Out :=
  let s := s.takeMessage m
  let obj := m.obj % 2 ^ 18
  let ls := Store.get [] s.own.leases obj
  let deny := s.sendOwn (replyTo m 4 1)
  match ls.find? fun l => l.pkg == m.srcPkg && l.die == m.srcDie with
  | none => .next deny
  | some l =>
    if l.recalled || (s.waitingAt obj).any fun r => r.exclusive then .next deny
    else
      let n := min (2 * s.gauzeOf obj) (2 ^ 22)
      let ls := ls.map fun x => if x.pkg = l.pkg ∧ x.die = l.die then { x with since := s.clock.cyc } else x
      let s := { s with own :=
        { s.own with gauze := s.own.gauze.put obj n, leases := Store.set [] s.own.leases obj ls } }
      .next (s.sendOwn { replyTo m 8 0 with lease := n })

/-- RENEWED: the proxy's lease runs for the length that it carries, from its receipt (R415). -/
def execRenewed (m : OwnMsg) (s : State) : Out :=
  let s := s.takeMessage m
  let pkg := if m.srcPkg = s.pkgId then none else some m.srcPkg
  match s.proxyOf m.dstDie pkg (m.obj % 2 ^ 18) with
  | none => .next s
  | some p => .next (s.setProxy { p with expiry := some (s.clock.cyc + m.lease), renewSent := false })

/-- RECALL: a proxy without holders answers with LRETURN; any other lets its lease run out (R416). -/
def execRecall (m : OwnMsg) (s : State) : Out :=
  let s := s.takeMessage m
  let pkg := if m.srcPkg = s.pkgId then none else some m.srcPkg
  match s.proxyOf m.dstDie pkg (m.obj % 2 ^ 18) with
  | none => .next s
  | some p =>
    if p.expiry.isNone then .next s
    else if p.holders = 0 then .next (s.sendLreturn p)
    else .next (s.setProxy { p with recalled := true })

/-- WBDONE: no rule gives it an effect beyond its arrival (R411). -/
def execWbdone (m : OwnMsg) (s : State) : Out := .next (s.takeMessage m)

/-- UNKNOWN_OWNERSHIP_MESSAGE: a message of another TYPE is discarded and counted as a link error (R411). -/
def execUnknownOwnershipMessage (m : OwnMsg) (s : State) : Out :=
  let port := (Store.get [] s.host.routes m.srcPkg).headD 0
  let l := Store.get .down s.host.ports port
  .next { s with host := { s.host with ports := s.host.ports.put port { l with errors := l.errors + 1 } } }

/-! ## Leases that run out (R415, R416) -/

/-- The first proxy of whose lease 1,024 cycles remain while it is held. -/
def State.renewDue (s : State) : Option Proxy :=
  s.own.proxies.find? fun p => match p.expiry with
    | some t => decide (t ≤ s.clock.cyc + 1024) && decide (s.clock.cyc < t) && p.holders != 0 && !p.renewSent
    | none => false

/-- RENEW_TIMER: the proxy sends RENEW (R415). -/
def execRenewTimer (s : State) : Out :=
  match s.renewDue with
  | none => .next s
  | some p =>
    let (id, s) := s.fresh
    let m := s.ownMsg 7 (id % 2 ^ 16) p.die (p.pkg.getD s.pkgId) (objDie p.obj) p.obj
    .next ((s.sendOwn { m with version := p.version }).setProxy { p with renewSent := true })

/-- The first proxy whose lease has expired. -/
def State.expiryDue (s : State) : Option Proxy :=
  s.own.proxies.find? fun p => match p.expiry with
    | some t => decide (t ≤ s.clock.cyc)
    | none => false

/-- Whether a region holds a proxy's lease (R416). -/
def Region.underLease (r : Region) (p : Proxy) : Bool :=
  r.kind == .shared && r.version != 0 && r.obj == p.obj && objPkg r.base == p.pkg && r.version == p.version

/-- The region registers of a die's engine that hold a lease become none with status BUSY (R416). -/
def Engine.revoke (e : Engine) (p : Proxy) : Engine :=
  if e.place.die = p.die then
    { e with regions := e.regions.mapKV fun _ r => if r.underLease p then { r.cleared with status := 1 } else r }
  else e

/-- The parents that lose a child when an engine's regions are revoked. -/
def Engine.revokedParents (e : Engine) (p : Proxy) : List (Nat × Nat) :=
  if e.place.die = p.die then
    ((Store.vals e.regions).filter fun (r : Region) => r.underLease p).filterMap Region.parent
  else []

/-- LEASE_EXPIRY: every region register that holds the lease becomes none with status BUSY, saved ones too, and the proxy sends
LRETURN (R376, R416). -/
def execLeaseExpiry (s : State) : Out :=
  match s.expiryDue with
  | none => .next s
  | some p =>
    let parents := s.work.engines.flatMap fun kv => kv.2.revokedParents p
    let layers := s.work.engines.flatMap fun kv =>
      if kv.2.place.die = p.die then
        (((Store.vals kv.2.regions).filter fun (r : Region) => r.underLease p && r.layer).map fun r => (kv.2.ctx, r))
      else []
    let s := { s with work := { s.work with
      engines := s.work.engines.mapKV fun _ e => e.revoke p } }
    let s := layers.foldl (fun s x => s.dropLayer x.1 x.2) s
    let s := parents.foldl (fun s x => s.dropChild x.1 x.2) s
    .next (s.sendLreturn p)

/-- The first lease of which 2^23 cycles have passed since its last grant or renewal. -/
def State.lostDue (s : State) : Option (Nat × Lease) :=
  firstSome (fun (kv : Nat × List Lease) =>
    (kv.2.find? fun l => decide (l.since + 2 ^ 23 ≤ s.clock.cyc)).map fun l => (kv.1, l)) s.own.leases

/-- LOST_HOLDER_TIMEOUT: a holder that no message reaches is treated as expired, and Reten reports it (R416). -/
def execLostHolderTimeout (s : State) : Out :=
  match s.lostDue with
  | none => .next s
  | some (obj, l) =>
    .next ((s.dropLease obj l.pkg l.die (s.entry obj).version 0).notify (padTo 32 (Config.notice 4 obj l.pkg)))

end Sys2Proof.Machine
end

