-- ==== Sys2Proof/Machine/Wake.lean ====
section
/-! DEFINITION. What ends a wait of its own: cycles that come, hand-off queues, the drains of DET launches and writes of the tensor
table (R152, R162, R168, R169, R210, R271, R339). -/

namespace Sys2Proof.Machine

/-! ## Sleep and yield (R163, R168, R169, R339) -/

/-- Whether a waiting spawn has something to do: to start write-backs, or to write its seal. -/
def State.spawnDue (s : State) (w : Wait) : Bool :=
  match w.kind, s.engine w.eng with
  | .spawn slot _, some e => !s.spawnWaits w.eng e slot w.id || !(s.narrowObjects e.ctx slot).isEmpty
  | _, _ => false

/-- A waiting spawn goes on: it starts the write-backs of what other parties returned at a narrow scope, or writes its seal. -/
def State.spawnGo (s : State) (w : Wait) (slot dest : Nat) : State :=
  let ctx := ((s.engine w.eng).map Engine.ctx).getD 0
  if (s.narrowObjects ctx slot).isEmpty then s.spawnSeal w slot dest else s.pushSlot ctx slot

/-- Whether a wait ends by this cycle. -/
def State.wakes (s : State) (w : Wait) : Bool :=
  s.running w.eng && (match w.kind with
    | .until_ t | .spawned t _ _ _ => decide (t ≤ s.clock.cyc)
    | .arrive _ c _ => !s.outstanding w.eng w.lanes c.isNone w.id
    | _ => s.spawnDue w)

def State.wakeDue (s : State) : Option Wait := s.work.waits.find? s.wakes

/-- The value that a spawn returns: the launch id, or 0xFFFF_FFFF where its write did not trigger the slot (R339). -/
def spawnValue : Option Nat → Word
  | some id => BitVec.ofNat 32 id
  | none => 0xFFFFFFFF

/-- A gang whose earlier accesses are performed arrives at its barrier (R163, R284). -/
def State.arriveNow (s : State) (w : Wait) (form : Nat) (c : Option Nat) (mask : Dword) : State :=
  let s := s.dropWait w
  match s.engine w.eng with
  | some e => s.barrierGo e w form c mask
  | none => s

/-- SLEEP_UNTIL_WAKE: lanes whose cycle has come continue; a gang that waits for nothing more arrives at its barrier; a spawn that waits for nothing more writes its seal, and the register of
one whose 132 cycles are over takes its id (R163, R168, R169, R339). -/
def execSleepUntilWake (s : State) : Out :=
  match s.wakeDue with
  | none => .next s
  | some w =>
    match w.kind with
    | .spawned _ _ id d => .next (s.endSpawn w d (spawnValue id))
    | .spawn slot d => .next (s.spawnGo w slot d)
    | .arrive form c mask => .next (s.arriveNow w form c mask)
    | _ => .next (s.finishWait w id)

/-- Whether an engine's yield is over: 16 cycles have passed after it (R169). -/
def Engine.yieldOver (e : Engine) (cyc : Nat) : Bool :=
  match e.yieldFrom with
  | some t => decide (t + 16 ≤ cyc)
  | none => false

def State.yieldDue (s : State) : Bool := s.work.engines.any fun kv => kv.2.yieldOver s.clock.cyc

/-- YIELD_EXPIRE: gangs whose 16 cycles have passed are considered again (R169). -/
def execYieldExpire (s : State) : Out :=
  let engines := s.work.engines.mapKV fun _ e => if e.yieldOver s.clock.cyc then { e with yieldFrom := none } else e
  .next { s with work := { s.work with engines } }

/-! ## Hand-off queues (R168) -/

/-- The waiting posts whose accesses are performed and whose queue has room, in requester order. -/
def State.posts (s : State) : List (Wait × Nat × Dword) :=
  sortBy (fun a b =>
      let r := fun (w : Wait) => ((s.engine w.eng).map fun e => e.portRank (e.place.die * 16)).getD 0
      if r a.1 ≠ r b.1 then decide (r a.1 < r b.1) else decide (a.1.id ≤ b.1.id))
    (s.work.waits.filterMap fun w => match w.kind with
      | .hqPost k v =>
        if s.running w.eng && !s.outstanding w.eng w.lanes false w.id && decide ((s.hq k).length < 32) then some (w, k, v) else none
      | _ => none)

def State.postDue (s : State) : Option (Wait × Nat × Dword) := s.posts.head?

/-- HQ_ENTRY_ENTER: a posted entry enters its queue; the posting lanes are ready in the next cycle (R168). -/
def execHqEntryEnter (s : State) : Out :=
  match s.postDue with
  | none => .next s
  | some (w, k, v) =>
    let kind := WaitKind.until_ (s.clock.cyc + 1)
    let s := { s with work := { s.work with waits := s.work.waits.map fun (x : Wait) => if x.id = w.id then { x with kind } else x } }
    .next (s.hqEnter k v)

/-! ## The drains of DET launches (R152, R162, R271) -/

/-- The order in which held operations are applied (R152). -/
def heldBefore (a b : DetHeld) : Bool :=
  if a.block ≠ b.block then decide (a.block < b.block)
  else if a.gang ≠ b.gang then decide (a.gang < b.gang)
  else if a.lane ≠ b.lane then decide (a.lane < b.lane)
  else decide (a.seq ≤ b.seq)

/-- A held operation as the part of a request at its home. -/
def DetHeld.part (d : DetHeld) : MeshPart :=
  { lane := d.lane, addr := 0, loc := d.loc, op := .far d.op false d.v d.w 4, value := none, done := false }

/-- A held operation as a request of its die. -/
def DetHeld.req (d : DetHeld) : MeshReq :=
  { id := 0, eng := 0, pc := 0, dest := 0, home := d.core / 128 * 16, hops := 0, crossings := 0, order := 0, stage := .queued
    due := 0, wait := 0, parts := [] }

/-- Held operations that can all be applied. -/
def State.heldReady (s : State) (l : List DetHeld) : Bool := l.all fun d => decide (2 ^ 64 ≤ d.loc) || s.partReady d.req d.part

/-- Lines that held operations lack and that have not been asked for. -/
def State.heldMissing (s : State) (l : List DetHeld) : List Nat :=
  (l.filter fun d => decide (d.loc < 2 ^ 64) && !s.partReady d.req d.part && !s.partAsked d.part).map fun d => lineOf d.loc

/-- A held operation applied: at its home, or sent to its home package in the name of its launch; one whose memory cannot be reached has no
effect.  Its lane's restart point moves past it (R311). -/
def State.applyOne (s : State) (d : DetHeld) : State :=
  let s := s.modEngine d.eng fun e => e.farPerformed d.lane d.pc
  if 2 ^ 64 ≤ d.loc then
    s.farRemote 0 d.ctx 0 d.obj d.launch 0 4 false [(d.lane, d.loc - 2 ^ 64, .far d.op false d.v d.w 4)]
  else if s.unreachable d.loc then s
  else
    let s := if isHost d.loc then s.ownLine (d.core / 128) (lineOf d.loc) else s
    let s := s.farAt d.op (d.v.setWidth 32) (d.w.setWidth 32) d.loc
    (if s.hostBiased d.loc && s.snoopDone (lineOf d.loc) then s.useSnoop (lineOf d.loc) else s).fillL2 [d.loc]

/-- Held operations applied in their order (R152). -/
def State.applyHeld (s : State) (l : List DetHeld) : State :=
  let s := (sortBy heldBefore l).foldl State.applyOne s
  { s with mem := { s.mem with held := s.mem.held.filter fun d => !l.contains d } }

/-- The integer entries that a block's `dflush` applies. -/
def State.blockHeld (s : State) (b : Block) : List DetHeld :=
  s.mem.held.filter fun d => d.launch == b.launch && d.block == b.index && !d.atEnd

/-- The waits of a block's gangs at `dflush`. -/
def State.flushWaits (s : State) (b : Block) : List Wait := s.work.waits.filter fun w => w.kind == .dflush && b.gangs.contains w.eng

/-- Whether every gang of a block that has not ended has arrived at `dflush`. -/
def State.flushArrived (s : State) (b : Block) : Bool :=
  let ws := s.flushWaits b
  !ws.isEmpty && b.gangs.all fun g => ((s.engine g).map Engine.ended).getD true || ws.any fun w => w.eng == g

/-- Whether every lower-indexed block of the launch has completed its drain of the same ordinal or has ended (R162). -/
def State.flushTurn (s : State) (b : Block) : Bool :=
  (List.range b.index).all fun k =>
    ((s.launchOf b.launch).map fun l => l.complete.contains k).getD true ||
      s.work.blocks.any fun kb => kb.2.launch == b.launch && kb.2.index == k && decide (b.drains < kb.2.drains)

/-- The block whose drain takes place, or asks for the lines that it lacks. -/
def State.flushDue (s : State) : Option (Nat × Block) :=
  List.find? (fun (kb : Nat × Block) => s.flushArrived kb.2 && s.launchActive kb.2.launch && s.flushTurn kb.2 &&
    (s.heldReady (s.blockHeld kb.2) || !(s.heldMissing (s.blockHeld kb.2)).isEmpty)) s.work.blocks

/-- DFLUSH_DRAIN: a block's held integer operations are applied, and its gangs continue (R152, R162). -/
def execDflushDrain (s : State) : Out :=
  match s.flushDue with
  | none => .next s
  | some (k, b) =>
    let l := s.blockHeld b
    if s.heldReady l then
      let ws := s.flushWaits b
      let s := s.applyHeld l
      let s := { s with work := { s.work with blocks := s.work.blocks.put k { b with drains := b.drains + 1 } } }
      .next (ws.foldl (fun s w => s.finishWait w id) s)
    else .next ((s.heldMissing l).foldl (fun s n => s.askFor n true) s)

/-- The blocks of a launch's grid. -/
def Launch.blocks (l : Launch) : Nat := l.grid.1 * l.grid.2.1 * l.grid.2.2

/-- Whether held operations of a launch are on their way to another package. -/
def State.heldAway (s : State) (launch : Nat) : Bool := s.host.remote.any fun r => r.eng == 0 && r.kind == 1 && r.dest == launch

/-- The DET launch whose kernel has ended and whose held operations wait for it (R350). -/
def State.detEndDue (s : State) : Option Launch :=
  (Store.vals s.launch.launches).find? fun l =>
    let h := s.mem.held.filter fun d => d.launch == l.id
    l.det && !l.retired && !l.detDrained && !l.failed && l.complete.length == l.blocks && l.streamsStarted && l.streams.isEmpty &&
      !(h.isEmpty && s.heldAway l.id) && (s.heldReady h || !(s.heldMissing h).isEmpty)

/-- DET_END_DRAIN: the launch's held operations are applied at the kernel's end, and DETRED and DETLAUNCH clear (R152, R252, R271). -/
def execDetEndDrain (s : State) : Out :=
  match s.detEndDue with
  | none => .next s
  | some l =>
    let h := s.mem.held.filter fun d => d.launch == l.id
    if s.heldReady h then
      let s := s.applyHeld h
      let s := { s with own := { s.own with entries := s.own.entries.mapKV fun _ x =>
        if x.detLaunch = l.id then { x with detRed := false, detLaunch := 0 } else x } }
      .next (s.setLaunch l.id { l with detDrained := !s.heldAway l.id })
    else .next ((s.heldMissing h).foldl (fun s n => s.askFor n true) s)

/-! ## The tensor table (R210) -/

/-- The write of the tensor table that completes first. -/
def State.ttabDue (s : State) : Option (Wait × List Host.Cell) :=
  firstSome (fun w => match w.kind with
    | .tensorWrite t cells => if t ≤ s.clock.cyc then some (w, cells) else none
    | _ => none) s.work.waits

/-- TTAB_WRITE_COMPLETE: the write is made, and its lanes continue (R210). -/
def execTtabWriteComplete (s : State) : Out :=
  match s.ttabDue with
  | none => .next s
  | some (w, cells) =>
    let ctx := ((s.engine w.eng).map Engine.ctx).getD 0
    .next ((s.modContext ctx fun c => c.writeTensors cells).finishWait w id)

end Sys2Proof.Machine
end

