-- ==== Sys2Proof/Machine/Launch.lean ====
section
/-! DEFINITION. The launch window: triggers, the parsing of launch records, retirement, and mailboxes with their handler runs
(R334 to R354). -/

namespace Sys2Proof.Machine

/-! ## Triggers (R335, R336) -/

/-- The context to which Reten has assigned a slot (R365). -/
def State.slotOwner (s : State) (slot : Nat) : Option (Nat × Context) :=
  List.find? (fun (kv : Nat × Context) =>
    kv.2.state != .free && decide (kv.2.slotFirst ≤ slot) && decide (slot < kv.2.slotFirst + kv.2.slotCount)) s.ctxs.table

/-- Whether a launch that has not retired bears an id, one whose record waits to be parsed included. -/
def State.idTaken (s : State) (id : Nat) : Bool :=
  ((s.launchOf id).map fun l => !l.retired).getD false || s.launch.slots.any fun kx => kx.2.pending && kx.2.launch == id

/-- The next launch id at or after a number: 0 and 0xFFFF_FFFF are skipped, and ids still borne are passed over (R336). -/
def State.nextLaunchId (s : State) : Nat → Nat → Nat
  | 0, n => n
  | k + 1, n =>
    if 2 ^ 32 - 1 ≤ n ∨ n = 0 then s.nextLaunchId k 1
    else if s.idTaken n then s.nextLaunchId k (n + 1)
    else n

/-- A launch id taken by a launch of a trigger count. -/
def State.takeLaunchId (s : State) (count : Nat) : Nat × State :=
  let id := s.nextLaunchId (2 * (s.launch.launches.length + s.launch.slots.length) + 4) s.launch.nextId
  (id, { s with launch := { s.launch with nextId := id + 1, counts := s.launch.counts.put id count } })

/-- The retired launch that a slot still names is forgotten. -/
def State.forgetRetired (s : State) (slot id : Nat) : State :=
  if ((s.launchOf id).map fun l => l.retired && l.slot == slot).getD false then
    { s with launch := { s.launch with launches := s.launch.launches.erase id } }
  else s

/-- A spawn whose write triggered a slot learns the launch id. -/
def State.tellSpawn (s : State) (slot id : Nat) : State :=
  let tell := fun (w : Wait) => match w.kind with
    | .spawned t k (some 0) d => if k = slot then { w with kind := .spawned t k (some id) d } else w
    | _ => w
  { s with work := { s.work with waits := s.work.waits.map tell } }

/-- SLOT_TRIGGER: the launch of a slot whose seal has been written takes its id, in the order of the triggers, and the record waits to be
parsed (R335, R336). -/
def execSlotTrigger (slot : Nat) (s : State) : Out :=
  if s.launch.sealed.contains slot then
    let x := Store.get .idle s.launch.slots slot
    let (id, t) := (s.forgetRetired slot x.launch).takeLaunchId (s.launch.triggers + 1)
    let (reader, t) := t.fresh
    let x' : Slot :=
      { busy := true, latchedId := x.latchedId, latchedStatus := x.latchedStatus, launch := id, order := t.launch.triggers + 1
        pending := true, reader }
    let t := { t with launch :=
      { t.launch with
        triggers := t.launch.triggers + 1, sealed := t.launch.sealed.erase slot, slots := t.launch.slots.put slot x' } }
    .next ((t.tellSpawn slot id).perform (cellsAt (512 * slot + 0x1F0) (leBytes 4 id)))
  else .next s

/-! ## Retirement (R337) -/

/-- SLOT_RETIRE: STATUS takes its final value, the seal is zeroed, and the slot is IDLE (R337). -/
def State.retireSlot (s : State) (slot status : Nat) : State :=
  let s := { s with launch := { s.launch with
    slots := s.launch.slots.modify slot fun x => { x with busy := false, pending := false } } }
  s.perform (cellsAt (512 * slot + 0x1F4) (leBytes 4 status) ++ [(512 * slot + 511, 0)])

/-- STATUS of a complete launch (R343). -/
def completeStatus (err : Bool) : Nat := 3 * 2 ^ 30 + if err then 2 ^ 29 else 0

/-! ## Reading records and images (R341, R342) -/

/-- What the dispatcher needs at an address is asked for and has not come. -/
def State.needAsked (s : State) : LineNeed → Bool
  | .ats v => s.xlat.atsPending.contains v
  | .host line =>
    if isHost (line * 128) then s.host.cxlReqs.any fun r => r.hpa == line * 128 - 2 ^ 60
    else s.flipping (line * 128) || s.xlat.snoops.contains (2 * line) || s.xlat.snoops.contains (2 * line + 1)
  | _ => true

/-- Whether a line must arrive before a table of layers can be read. -/
def LineNeed.comes : LineNeed → Bool
  | .ats _ | .host _ => true
  | _ => false

/-- The first bytes of the lines of a range that are not at hand. -/
def State.notAtHand (s : State) (ctx : Nat) (r : Nat × Nat) : List Nat :=
  (lineStarts r.1 r.2).filter fun va => (s.lineNeed (calicoEngine ctx) false [] va).comes

/-- The first bytes of the lines of a range that the dispatcher still waits for, those of other packages among them; `data` holds what has
come from there. -/
def State.notRead (s : State) (ctx : Nat) (data : Store Byte) (r : Nat × Nat) : List Nat :=
  (lineStarts r.1 r.2).filter fun va =>
    let n := s.lineNeed (calicoEngine ctx) false data va
    n.comes || n == .remote

/-- Bytes of a context's memory as the dispatcher reads them: none where a page is unmapped or a line poisoned (R341). -/
def State.dispatcherBytes (s : State) (ctx : Nat) (data : Store Byte) (va n : Nat) : Option (List Byte) :=
  let e := calicoEngine ctx
  let bad := fun (a : Nat) => s.enginePoison e data a || (match s.lineNeed e false data a with
    | .ready _ | .dram _ => false
    | _ => true)
  if (lineStarts va n).any bad then none
  else some ((List.range n).map fun i => s.engineByte e (0, 0) data (va + i))

/-- A field of an image. -/
def fieldAt (b : List Byte) (off n : Nat) : Nat := leValue ((b.drop off).take n)

/-- A launch record's fields (R340). -/
structure Rec where
  kimg : Nat
  simg : Nat
  args : Nat
  arglen : Nat
  ctx : Nat
  flags : Nat
  grid : Nat × Nat × Nat
  block : Nat × Nat × Nat
  prio : Nat
  queue : Nat
  mboxn : Nat
  seqMask : Nat
  start : Nat
  donesig : Nat
  cohort : Nat
  ncoh : Nat
  cbmap : Nat
  raw : List Byte
deriving DecidableEq, Repr

def Rec.ofBytes (b : List Byte) : Rec :=
  { kimg := fieldAt b 0 8, simg := fieldAt b 8 8, args := fieldAt b 0x10 8, arglen := fieldAt b 0x18 4, ctx := fieldAt b 0x1C 2
    flags := fieldAt b 0x1E 2, grid := (fieldAt b 0x20 4, fieldAt b 0x24 4, fieldAt b 0x28 4)
    block := (fieldAt b 0x2C 2, fieldAt b 0x2E 2, fieldAt b 0x30 2), prio := fieldAt b 0x32 1, queue := fieldAt b 0x33 1
    mboxn := fieldAt b 0x34 2, seqMask := fieldAt b 0x38 8, start := fieldAt b 0x40 8, donesig := fieldAt b 0x48 8
    cohort := fieldAt b 0x50 8, ncoh := fieldAt b 0x58 2, cbmap := fieldAt b 0xA0 8, raw := b }

namespace Rec

def det (r : Rec) : Bool := bit r.flags 0
def hasStart (r : Rec) : Bool := bit r.flags 1
def mbox (r : Rec) : Bool := bit r.flags 2
def threads (r : Rec) : Nat := r.block.1 * r.block.2.1 * r.block.2.2
def blocks (r : Rec) : Nat := r.grid.1 * r.grid.2.1 * r.grid.2.2

/-- Producer entry i: PLAUNCH, PSLOT, MAP, PARAM and the reserved bytes (R348). -/
def prod (r : Rec) (i : Nat) : Nat × Nat × Nat × Nat × Nat :=
  let o := 0x60 + 16 * i
  (fieldAt r.raw o 4, fieldAt r.raw (o + 4) 2, fieldAt r.raw (o + 6) 1, fieldAt r.raw (o + 7) 1, fieldAt r.raw (o + 8) 8)

/-- Whether a reserved field, or a field that another one makes 0, is not 0 (R340, R341 code 1). -/
def reserved (r : Rec) : Bool :=
  r.ctx / 2 ^ 10 != 0 || r.flags / 8 != 0 || r.mboxn / 2 ^ 12 != 0 || (r.mboxn != 0 && !r.mbox) || (r.start != 0 && !r.hasStart)
    || fieldAt r.raw 0x36 2 != 0 || fieldAt r.raw 0x5A 6 != 0 || fieldAt r.raw 0xA8 88 != 0 || fieldAt r.raw 0x1F8 7 != 0
    || (List.range 4).any fun i => (r.prod i).2.2.2.2 != 0

end Rec

/-- What reading an image gives: the image, a breach of its rule, or an address that could not be read. -/
inductive Read (α : Type) | ok (x : α) | bad | unread
deriving DecidableEq, Repr

/-- Whether an entry of a `.park` list is in order (R344). -/
def parkEntryOk (regs ndist x : Nat) : Bool := !bit x 6 && (if bit x 7 then decide (x % 64 < ndist) else decide (x % 64 < regs))

/-- Whether a header's own fields are in order (R344, R345). -/
def headerOk (at_ : Nat) (b : List Byte) (kind : Nat) : Bool :=
  let regs := fieldAt b 5 1
  let scratch := fieldAt b 8 4
  let len := fieldAt b 0xC 4
  let code := fieldAt b 0x10 8
  let handler := fieldAt b 0x18 4
  let npark := fieldAt b 0x1C 2
  at_ % 64 == 0 && fieldAt b 0 4 == 0x5A450001 && fieldAt b 7 1 == kind &&
    (if kind = 0 then (fieldAt b 4 1 == 16 || fieldAt b 4 1 == 32 || fieldAt b 4 1 == 64) && decide (8 ≤ regs) &&
        decide (regs ≤ 64) && regs % 8 == 0
      else fieldAt b 4 1 == 0 && regs == 0) &&
    decide (fieldAt b 6 1 ≤ 8) && scratch % 128 == 0 && decide (scratch ≤ 262144) && len % 2 == 0 && len != 0 && code % 2 == 0 &&
    decide (code + len ≤ 2 ^ 32) && (handler == 0xFFFFFFFF || (handler % 2 == 0 && decide (handler < len))) &&
    decide (npark ≤ 72) && fieldAt b 0x1E 2 == 0 && (npark != 0 || fieldAt b 0x20 8 == 0) && fieldAt b 0x28 24 == 0

/-- The image header at an address, with its `.park` list (R344); one that is not aligned is not read. -/
def State.headerAt (s : State) (ctx : Nat) (data : Store Byte) (at_ kind : Nat) : Read ImageHeader :=
  if at_ % 64 ≠ 0 then .bad
  else match s.dispatcherBytes ctx data at_ 64 with
  | none => .unread
  | some b =>
    if headerOk at_ b kind = false then .bad
    else match s.dispatcherBytes ctx data (fieldAt b 0x20 8) (fieldAt b 0x1C 2) with
      | none => .unread
      | some l =>
        let park := l.map BitVec.toNat
        if park.all (parkEntryOk (fieldAt b 5 1) (fieldAt b 6 1)) && park.dedup.length == park.length then
          .ok
            { gangw := fieldAt b 4 1, regs := fieldAt b 5 1, ndist := fieldAt b 6 1, kind, scratch := fieldAt b 8 4
              codelen := fieldAt b 0xC 4, code := fieldAt b 0x10 8, handler := fieldAt b 0x18 4, park }
        else .bad

/-! ## The room of a core (R69, R229, R230, R357) -/

/-- What is free on a core: block slots, thread slots, the used gang slots, the used windows of the four banks, and the used
parts of the scratchpad. -/
structure Room where
  core : Nat
  blocks : Nat
  threads : Nat
  slots : List Nat
  banks : List (List (Nat × Nat))
  scratch : List (Nat × Nat)
deriving DecidableEq, Repr

/-- A core that holds nothing. -/
def Room.empty (core : Nat) : Room := ⟨core, 32, 2048, [], [[], [], [], []], []⟩

/-- The bindings of a gang width, lower first lane-group first, as masks of lane-groups (R69). -/
def bindings : Nat → List Nat
  | 16 => [1, 2, 4, 8]
  | 32 => [3, 12]
  | _ => [15]

/-- The lowest offset of a space of `size` at which `n` units are free beside the used ranges. -/
def lowestFree (size n : Nat) (used : List (Nat × Nat)) : Option Nat :=
  let free := fun (o : Nat) => decide (o + n ≤ size) && used.all fun u => decide (o + n ≤ u.1) || decide (u.1 + u.2 ≤ o)
  ((0 :: used.map fun u => u.1 + u.2).filter free).foldl (fun best o => match best with
    | none => some o
    | some b => some (min b o)) none

/-- Where a gang stands: its slot, lane-groups and window offset. -/
structure Seat where
  slot : Nat
  groups : Nat
  window : Nat
deriving DecidableEq, Repr

/-- The windows used in the banks of some lane-groups. -/
def Room.used (r : Room) (groups : Nat) : List (Nat × Nat) :=
  ((List.range 4).filter groups.testBit).flatMap fun g => r.banks.getD g []

/-- A room with a gang's slot, threads and window taken. -/
def Room.hold (r : Room) (x : Seat) (w f : Nat) : Room :=
  { r with
    threads := r.threads - w
    slots := x.slot :: r.slots
    banks := r.banks.zipIdx.map fun b => if x.groups.testBit b.2 then (x.window, f) :: b.1 else b.1 }

/-- The seat that a gang of a width and footprint takes: the lowest free slot, and the binding whose lowest free window is
lowest (R357). -/
def Room.seat (r : Room) (w f : Nat) : Option Seat :=
  if r.threads < w then none
  else
    let best := (bindings w).foldl (fun best g => match lowestFree 2048 f (r.used g), best with
      | some o, none => some (g, o)
      | some o, some (h, p) => if o < p then some (g, o) else some (h, p)
      | none, b => b) (none : Option (Nat × Nat))
    match (List.range 128).find? fun k => !r.slots.contains k, best with
    | some k, some (g, o) => some ⟨k, g, o⟩
    | _, _ => none

/-- `n` gangs seated one after another. -/
def Room.seats (r : Room) (w f : Nat) : Nat → Option (Room × List Seat)
  | 0 => some (r, [])
  | n + 1 =>
    match r.seat w f with
    | none => none
    | some x => ((r.hold x w f).seats w f n).map fun p => (p.1, x :: p.2)

/-- What a block of a launch takes: gangs, their width, their footprint and the scratchpad bytes (R229, R230). -/
structure Need where
  gangs : Nat
  width : Nat
  foot : Nat
  scratch : Nat
deriving DecidableEq, Repr

def needOf (threads : Nat) (h : ImageHeader) : Need :=
  ⟨(threads + h.gangw - 1) / h.gangw, h.gangw, footprint h.regs h.ndist, h.scratch⟩

/-- A block placed in a room, all of it or nothing: the seats of its gangs and its scratchpad's offset (R230, R357). -/
def Room.place (r : Room) (n : Need) : Option (Room × List Seat × Nat) :=
  if r.blocks = 0 then none
  else match r.seats n.width n.foot n.gangs, lowestFree 262144 n.scratch r.scratch with
    | some (q, l), some o =>
      some ({ q with blocks := q.blocks - 1, scratch := if n.scratch = 0 then q.scratch else (o, n.scratch) :: q.scratch }, l, o)
    | _, _ => none

/-- The blocks that an empty core holds at once, at most 32. -/
def coreCapacity (n : Need) : Nat :=
  ((List.range 32).foldl (fun (acc : Room × Nat) _ => match acc.1.place n with
    | some (r, _, _) => (r, acc.2 + 1)
    | none => acc) (Room.empty 0, 0)).2

/-- The cores that a context is granted, ascending (R365). -/
def Context.coreList (c : Context) : List Nat := (List.range 512).filter c.cores.testBit

/-! ## Checks of R341 -/

/-- A cohort of the table (R347), its members read. -/
def State.cohortAt (s : State) (ctx : Nat) (data : Store Byte) (b : List Byte) (blocks cap : Nat) : Read Cohort :=
  let set := fieldAt b 0 8
  let count := fieldAt b 8 4
  let flags := fieldAt b 0xC 2
  let make := fun (l : List Nat) =>
    if l.all (fun m => decide (m < blocks)) && l.dedup.length == l.length && !(bit flags 1 && decide (cap < l.length)) then
      Read.ok ({ members := l, cosched := bit flags 1, home := none, barrier := .fresh } : Cohort)
    else .bad
  if bit flags 0 = false then
    if leValue b = 0 then .ok { members := [], cosched := false, home := none, barrier := .fresh } else .bad
  else if flags / 8 ≠ 0 ∨ fieldAt b 0xE 2 ≠ 0 ∨ count = 0 ∨ blocks < count then .bad
  else if bit flags 2 then
    match s.dispatcherBytes ctx data set (4 * count) with
    | none => .unread
    | some l => make ((List.range count).map fun k => fieldAt l (4 * k) 4)
  else if set / 2 ^ 32 = 0 then .bad
  else make ((List.range count).map fun k => set % 2 ^ 32 + k * (set / 2 ^ 32))

/-- The cohort table of a record (R347, R244): every entry in order, no block in more than four. -/
def State.cohortsOf (s : State) (r : Rec) (data : Store Byte) (cap : Nat) : Read (List Cohort) :=
  if r.ncoh = 0 then .ok []
  else if 256 < r.ncoh ∨ r.cohort = 0 then .bad
  else match s.dispatcherBytes r.ctx data r.cohort (16 * r.ncoh) with
    | none => .unread
    | some b =>
      let l := (List.range r.ncoh).map fun k => s.cohortAt r.ctx data ((b.drop (16 * k)).take 16) r.blocks cap
      let cs := l.filterMap fun x => match x with
        | .ok c => some c
        | _ => none
      let all := cs.flatMap Cohort.members
      if l.any (fun x => x == .bad) || all.dedup.any fun m => decide (4 < (all.filter (· == m)).length) then .bad
      else if cs.length = l.length then .ok cs else .unread

/-- A producer entry in order (R348): the dependence, or none where it is unused or already met: its slot has gone to a launch that was
triggered later (R336). -/
def State.producerOf (s : State) (r : Rec) (i : Nat) : Read (Option Producer) :=
  let (pl, ps, map, param, _) := r.prod i
  if map = 0 then if pl = 0 ∧ ps = 0 ∧ param = 0 then .ok none else .bad
  else if 5 < map ∨ ps / 2 ^ 12 ≠ 0 ∨ (if map = 4 then param = 0 else param ≠ 0) then .bad
  else
    let x := Store.get .idle s.launch.slots (ps % 2 ^ 12)
    match (s.launchOf pl).filter fun l => x.launch == pl && l.slot == ps % 2 ^ 12 && !l.run with
    | some l => if l.ctx = r.ctx ∧ l.cbmap ≠ 0 then .ok (some ⟨pl, ps % 2 ^ 12, map, param⟩) else .bad
    | none => if ((s.launch.counts.find? pl).map fun n => decide (n < x.order)).getD false then .ok none else .bad

/-- Whether an address is none or an 8-byte aligned one of space 0x6 (R341). -/
def signalOk (a : Nat) : Bool := a == 0 || (a % 8 == 0 && spaceOf a == 0x6)

/-- What parsing gives a record (R341): a rejection code, or the launch's images, cohorts, producers and arguments. -/
structure Accepted where
  kernel : ImageHeader
  seq : ImageHeader
  cohorts : List Cohort
  producers : List Producer
  args : List Byte
deriving DecidableEq, Repr

inductive Verdict | reject (code : Nat) | accept (a : Accepted)
deriving DecidableEq, Repr

/-- The value of a reading, if it succeeded. -/
def Read.value {α : Type} : Read α → Option α
  | .ok x => some x
  | _ => none

/-- The blocks of a launch that a context can hold at once (R230, R347, R367). -/
def Context.capacity (c : Context) (n : Need) : Nat :=
  min (c.coreList.length * coreCapacity n) (min c.nbslot (if n.gangs = 0 then 0 else c.ngslot / n.gangs))

/-- Causes 1 and 2 of R341, which the slot and its 512 bytes show: no address that such a record names is read (R10). -/
def State.recordRefused (s : State) (slot : Nat) (x : Slot) (r : Rec) : Option Nat :=
  if r.reserved || x.latchedId != 0 || x.latchedStatus != 0 then some 1
  else if ((s.slotOwner slot).map fun o => o.1 == r.ctx && o.2.state != .killing).getD false = false then some 2
  else none

/-- The check of a record, the first cause of R341's table that holds; what could not be read is cause 12. -/
def State.judgeLaunch (s : State) (slot : Nat) (x : Slot) (r : Rec) : Verdict :=
  let kernel := s.headerAt r.ctx x.data r.kimg 0
  let need := (kernel.value.map (needOf r.threads)).getD ⟨0, 16, 8, 0⟩
  let c := s.context r.ctx
  let cohorts := s.cohortsOf r x.data (if kernel.value.isSome then c.capacity need else 2 ^ 32)
  let prods := (List.range 4).map (s.producerOf r)
  let seq := if r.simg = 0 then .ok ImageHeader.blank else s.headerAt r.ctx x.data r.simg 1
  let args := if r.args = 0 then some ((r.raw.drop 0x100).take r.arglen) else s.dispatcherBytes r.ctx x.data r.args r.arglen
  let zero := fun (g : Nat × Nat × Nat) => g.1 == 0 || g.2.1 == 0 || g.2.2 == 0
  match s.recordRefused slot x r with
  | some code => .reject code
  | none =>
  if kernel = .bad then .reject 3
  else if zero r.grid || zero r.block || decide (2048 < r.threads) || decide (2 ^ 32 - 1 < r.blocks)
      || (kernel.value.isSome && (coreCapacity need == 0 || decide (c.ngslot < need.gangs) || c.nbslot == 0)) then .reject 4
  else if 47 < r.prio ∨ 15 < r.queue then .reject 5
  else if r.arglen % 4 != 0 || decide (65536 < r.arglen) || (r.args == 0 && decide (240 < r.arglen))
      || (r.mbox && decide (65536 < 16 + r.arglen)) then .reject 6
  else if prods.any fun p => p == .bad then .reject 7
  else if cohorts = .bad then .reject 8
  else if r.mbox && (r.grid != (1, 1, 1) || r.simg != 0 || r.det || (s.mailbox r.mboxn).isSome) then .reject 9
  else if seq = .bad ∨ ((r.seqMask = 0) ≠ (r.simg = 0)) then .reject 10
  else if (r.hasStart && r.start == 0) || !signalOk r.donesig || !signalOk r.cbmap then .reject 11
  else match kernel, seq, cohorts, args with
    | .ok k, .ok q, .ok cs, some a =>
      .accept { kernel := k, seq := q, cohorts := cs, producers := prods.filterMap fun p => p.value.join, args := a }
    | _, _, _, _ => .reject 12

/-! ## Parsing (R336, R341, R342, R352) -/

/-- The slot whose record is parsed next: the oldest trigger. -/
def State.parseNext (s : State) : Option (Nat × Slot) :=
  ((s.launch.slots.filter fun kv => kv.2.pending).foldl (fun (best : Option (Nat × Slot)) kv => match best with
    | none => some kv
    | some b => if kv.2.order < b.2.order then some kv else some b) none)

/-- The 512 bytes of a slot's record as the dispatcher reads them, once (R336). -/
def State.recordBytes (s : State) (slot : Nat) (x : Slot) : List Byte :=
  if x.raw.isEmpty then s.readHomeBytes (512 * slot) 512 else x.raw

/-- The record in a slot. -/
def State.recordOf (s : State) (slot : Nat) (x : Slot) : Rec := Rec.ofBytes (s.recordBytes slot x)

/-- The ranges that parsing a record reads, as far as they are known; none of one that its own bytes refuse. -/
def State.parseRanges (s : State) (slot : Nat) (x : Slot) (r : Rec) : List (Nat × Nat) :=
  let header := fun (a kind : Nat) =>
    if a % 64 ≠ 0 then []
    else (a, 64) :: (match s.dispatcherBytes r.ctx x.data a 64 with
      | some b => if headerOk a b kind then [(fieldAt b 0x20 8, fieldAt b 0x1C 2)] else []
      | none => [])
  let n := if 256 < r.ncoh ∨ r.cohort = 0 then 0 else r.ncoh
  let lists := match s.dispatcherBytes r.ctx x.data r.cohort (16 * n) with
    | some b => (List.range n).filterMap fun k =>
      if bit (fieldAt b (16 * k + 0xC) 2) 2 ∧ fieldAt b (16 * k + 8) 4 ≤ r.blocks then
        some (fieldAt b (16 * k) 8, 4 * fieldAt b (16 * k + 8) 4)
      else none
    | none => []
  if (s.recordRefused slot x r).isSome then []
  else
    header r.kimg 0 ++ (if r.simg = 0 then [] else header r.simg 1) ++
      (if r.args = 0 ∨ 65536 < r.arglen then [] else [(r.args, r.arglen)]) ++ (if n = 0 then [] else [(r.cohort, 16 * n)]) ++ lists

/-- The addresses that parsing a record waits for. -/
def State.parseMissing (s : State) (slot : Nat) (x : Slot) (r : Rec) : List Nat :=
  (s.parseRanges slot x r).flatMap (s.notRead r.ctx x.data)

/-- Whether the dispatcher has asked for what it needs at an address. -/
def State.parseAsked (s : State) (x : Slot) (r : Rec) (va : Nat) : Bool :=
  match s.lineNeed (calicoEngine r.ctx) false x.data va with
  | .remote => s.host.remote.any fun q => q.kind == 8 && q.wait == x.reader && q.addr == va / 128 * 128
  | n => s.needAsked n

/-- The slot whose record can be parsed, or needs something asked for. -/
def State.parseDue (s : State) : Option (Nat × Slot) :=
  s.parseNext.filter fun kv =>
    let r := s.recordOf kv.1 kv.2
    let m := s.parseMissing kv.1 kv.2 r
    m.isEmpty || m.any fun va => !s.parseAsked kv.2 r va

/-- The address of a slot's argument copy in the save area (R342, R370). -/
def Context.argCopy (c : Context) (slot : Nat) : Nat :=
  c.save + 4096 + (c.slotCount + 3) / 4 * 4096 + 65536 * (slot - c.slotFirst)

/-- The launch that an accepted record gives. -/
def Accepted.launch (a : Accepted) (r : Rec) (id order slot ptime : Nat) : Launch :=
  { id, order, slot, ctx := r.ctx, det := r.det, start := if r.hasStart then some r.start else none
    startMet := !r.hasStart || decide (r.start ≤ ptime), binding := r.mbox, mbox := r.mboxn, run := false, grid := r.grid
    block := r.block, prio := r.prio, queue := r.queue, seqMask := r.seqMask, donesig := r.donesig, cbmap := r.cbmap
    kernel := a.kernel, seq := a.seq, arglen := r.arglen, args := a.args, cohorts := a.cohorts, producers := a.producers
    low := 0, ahead := [], since := none, reserved := none, reservedAt := 0, streamsStarted := r.seqMask == 0, streams := []
    complete := [], announced := [], failed := false, barred := false, err := false, reclaimed := false, detDrained := false
    retired := false }

/-- The words of a completion bitmap zeroed (R352). -/
def State.zeroBitmap (s : State) (l : Launch) : State :=
  if l.cbmap = 0 then s
  else (List.range ((l.blocks + 63) / 64)).foldl (fun s k => s.updateSignal l.ctx (l.cbmap + 8 * k) fun _ => 0) s

/-- An accepted record (R341, R342, R349, R352, R353): STATUS is written, the fault record cleared; a binding binds its mailbox,
any other launch takes its argument copy and its place in its queue. -/
def State.acceptLaunch (s : State) (slot : Nat) (x : Slot) (r : Rec) (a : Accepted) : State :=
  let l := a.launch r x.launch x.order slot s.clock.ptime
  let s := s.perform (cellsAt (512 * slot + 0x1F4) (leBytes 4 (2 ^ 30)))
  let s := (s.setLaunch x.launch l).writeVa l.ctx (s.faultRecord l) (List.replicate 1024 0)
  let s := s.zeroBitmap l
  if l.binding then
    { s with launch := { s.launch with mailboxes := s.launch.mailboxes.put r.mboxn ⟨x.launch, [], none⟩ } }
  else
    let s := s.writeVa l.ctx ((s.context l.ctx).argCopy slot) a.args
    let s := { s with launch := { s.launch with queue := s.launch.queue ++ [x.launch], passPending := true } }
    if a.producers.any fun p => ((s.launchOf p.launch).map Launch.err).getD false then
      (s.modLaunch x.launch fun l => { l with barred := true }).errorSignal x.launch
    else s

/-- LAUNCH_PARSE: the dispatcher reads the oldest triggered slot, checks the record, and accepts or rejects it (R336, R341). -/
def execLaunchParse (s : State) : Out :=
  match s.parseDue with
  | none => .next s
  | some (slot, x) =>
    let r := s.recordOf slot x
    match s.parseMissing slot x r with
    | [] =>
      let done : Slot := { x with pending := false, raw := [], data := [] }
      let s := { s with launch := { s.launch with slots := s.launch.slots.put slot done } }
      .next (match s.judgeLaunch slot x r with
        | .reject c => s.retireSlot slot (2 * 2 ^ 30 + c * 2 ^ 16)
        | .accept a => s.acceptLaunch slot x r a)
    | m =>
      let slots := s.launch.slots.put slot { x with raw := s.recordBytes slot x }
      .next ({ s with launch := { s.launch with slots } }.askLines (calicoEngine r.ctx) x.reader 0 false x.data m)

/-! ## Start times (R346) -/

/-- The first launch whose start time has come. -/
def State.startDue (s : State) : Option Launch :=
  (Store.vals s.launch.launches).find? fun l => !l.startMet && !l.retired && (match l.start with
    | some t => decide (t ≤ s.clock.ptime)
    | none => true)

/-- START_TIME_MET: PTIME has reached a launch's START, and Reten runs a pass (R346, R360). -/
def execStartTimeMet (s : State) : Out :=
  match s.startDue with
  | none => .next s
  | some l =>
    let s := s.setLaunch l.id { l with startMet := true }
    .next { s with launch := { s.launch with passPending := true } }

/-! ## Mailboxes (R353, R354) -/

/-- Bit 63 of a launch's completion signal, and its own error mark where it has none (R343). -/
def State.launchErr (s : State) (l : Launch) : Bool :=
  if l.donesig = 0 then l.err
  else match s.quietLoc l.ctx .far l.donesig with
    | some a => (s.signal a).getLsbD 63
    | none => l.err

/-- MAILBOX_UNBIND: a zero written to a binding's seal unbinds its mailbox: waiting messages go, and the slot retires once no
handler runs (R354). -/
def execMailboxUnbind (slot : Nat) (s : State) : Out :=
  if s.launch.unsealed.contains slot then
    let id := (Store.get .idle s.launch.slots slot).launch
    let s := { s with launch := { s.launch with unsealed := s.launch.unsealed.erase slot } }
    match s.launchOf id with
    | none => .next s
    | some l =>
      match s.mailbox l.mbox with
      | none => .next s
      | some m =>
        if l.binding ∧ m.launch = id then
          let s := { s with launch := { s.launch with mailboxes := s.launch.mailboxes.erase l.mbox } }
          .next (if m.running.isSome then s
            else (s.setLaunch id { l with retired := true }).retireSlot slot (completeStatus (s.launchErr l)))
        else .next s
  else .next s

/-- The first mailbox that can start a handler run. -/
def State.runDue (s : State) : Option (Nat × Mailbox) :=
  s.launch.mailboxes.firstWhere fun _ m => m.running.isNone && !m.waiting.isEmpty

/-- MAILBOX_RUN_START: the oldest message of a mailbox starts a launch of one block, with an id and an argument copy of its own
(R342, R353). -/
def execMailboxRunStart (s : State) : Out :=
  match s.runDue with
  | none => .next s
  | some (n, m) =>
    match m.waiting, s.launchOf m.launch with
    | msg :: rest, some b =>
      let (id, s) := s.takeLaunchId s.launch.triggers
      let args := msg ++ b.args
      let l := { b with
        id, order := s.launch.triggers, binding := false, run := true, arglen := args.length, args, low := 0, complete := []
        startMet := (match b.start with
          | some t => decide (t ≤ s.clock.ptime)
          | none => true)
        err := false }
      let s := (s.setLaunch id l).writeVa l.ctx ((s.context l.ctx).argCopy l.slot) args
      .next { s with launch :=
        { s.launch with
          mailboxes := s.launch.mailboxes.put n { m with waiting := rest, running := some id }
          queue := s.launch.queue ++ [id]
          passPending := true } }
    | _, _ => .next s

/-! ## Completion (R350, R351, R379) -/

/-- The engines of a launch. -/
def State.enginesOf (s : State) (id : Nat) : List (Nat × Engine) := s.work.engines.filter fun kv => kv.2.launch == id

/-- Whether every gang and stream of a launch has ended or stopped for good. -/
def State.partiesDone (s : State) (id : Nat) : Bool := (s.enginesOf id).all fun kv => kv.2.ended

/-- Whether a party of a launch stopped for good (R351). -/
def State.broken (s : State) (l : Launch) : Bool := l.failed || (s.enginesOf l.id).any fun kv => kv.2.broken

/-- Whether a launch has threads in a continuation pool. -/
def State.parked (s : State) (id : Nat) : Bool :=
  s.work.pools.any fun kp => kp.2.records.any fun r => r.launch == id

/-- Whether a launch has armed blocks that have not started. -/
def State.armed (s : State) (id : Nat) : Bool :=
  s.launch.binds.any fun kb => kb.2.launch == id && kb.2.state != 3 && decide (kb.2.next < kb.2.count)

/-- Whether every return and write-back that a launch's parties started has completed. -/
def State.returnsDone (s : State) (id : Nat) : Bool :=
  let mine := (s.enginesOf id).map Prod.fst
  !(s.own.writeBacks.any fun w => match w.origin with
    | some (e, _, _) => mine.contains e
    | none => false) &&
  !(s.own.requests.any fun r => match r.who with
    | .eng e => mine.contains e
    | .package _ _ _ => false)

/-- Whether every party that a launch will have has ended or stopped: for good, or because its blocks are all complete (R349,
R350, R351). -/
def State.launchOver (s : State) (l : Launch) : Bool :=
  !l.binding && !l.retired && s.partiesDone l.id &&
    (if l.failed then true
    else if s.broken l then !s.armed l.id && !s.parked l.id && !s.launch.passPending
    else if l.barred then !s.parked l.id
    else l.complete.length == l.blocks && l.streamsStarted && l.streams.isEmpty)

/-- The first launch that is complete: its returns are done, its orphans reclaimed and its held operations applied. -/
def State.launchDone (s : State) : Option Launch :=
  (Store.vals s.launch.launches).find? fun l =>
    s.launchOver l && s.returnsDone l.id && !((s.enginesOf l.id).any fun kv => s.spawning kv.1) && (if s.broken l then l.reclaimed else !l.det || l.detDrained || l.barred)

/-- What a launch leaves behind is gone: its engines and blocks with their save slots, its bind records and held operations. -/
def State.clearLaunch (s : State) (l : Launch) : State :=
  let mine := (s.enginesOf l.id).map Prod.fst
  let blocks := (s.work.blocks.filter fun kb => kb.2.launch == l.id).map Prod.fst
  let free := fun (slots parties : List Nat) => parties.foldl freeSlot slots
  let s := s.modContext l.ctx fun c =>
    { c with gangSlots := free c.gangSlots mine, seqSlots := free c.seqSlots mine, blockSlots := free c.blockSlots blocks }
  { s with
    work := { s.work with
      engines := s.work.engines.filter fun kv => kv.2.launch != l.id
      blocks := s.work.blocks.filter fun kb => kb.2.launch != l.id
      waits := s.work.waits.filter fun w => !mine.contains w.eng
      traps := s.work.traps.filter fun t => !mine.contains t.eng }
    mem := { s.mem with held := s.mem.held.filter fun d => d.launch != l.id }
    launch := { s.launch with
      binds := s.launch.binds.filter fun kb => kb.2.launch != l.id
      queue := s.launch.queue.filter (· != l.id)
      passPending := true } }

/-- The value of a completion signal after the completion update (R350). -/
def completionUpdate (m : Dword) : Dword := (m &&& ((1 : Dword) <<< 63)) ||| ((m + 1) &&& ~~~((1 : Dword) <<< 63))

/-- A launch that has ended retires: a handler run frees its mailbox, and the slot retires with it once the mailbox is unbound
(R337, R353, R354). -/
def State.retireLaunch (s : State) (l : Launch) : State :=
  let err := s.launchErr l
  if l.run then
    let s := { s with launch := { s.launch with launches := s.launch.launches.erase l.id } }
    match (s.mailbox l.mbox).filter fun m => m.running == some l.id with
    | some m => { s with launch := { s.launch with mailboxes := s.launch.mailboxes.put l.mbox { m with running := none } } }
    | none =>
      let x := Store.get .idle s.launch.slots l.slot
      (s.modLaunch x.launch fun b => { b with retired := true }).retireSlot l.slot (completeStatus err)
  else (s.setLaunch l.id { l with retired := true, args := [], err := err }).retireSlot l.slot (completeStatus err)

/-- LAUNCH_COMPLETE: the completion update on DONESIG, STATUS complete, and the slot retires (R337, R350). -/
def execLaunchComplete (s : State) : Out :=
  match s.launchDone with
  | none => .next s
  | some l =>
    let s := s.updateSignal l.ctx l.donesig completionUpdate
    .next ((s.clearLaunch l).retireLaunch l)

end Sys2Proof.Machine
end

