-- ==== Sys2Proof/Machine/Place.lean ====
section
/-! DEFINITION. Reten's placement passes, bind records, the start of blocks and streams, and gangs formed from the continuation
pool (R192, R225 to R239, R355 to R364, R367). -/

namespace Sys2Proof.Machine

/-! ## The room of a core (R230, R242, R356) -/

/-- Whether a gang takes room on its core: a block's gang while the block is resident, a pool gang until it ends; nothing of a
suspended context does (R242, R374). -/
def State.occupies (s : State) (e : Engine) : Bool :=
  (s.context e.ctx).state != .suspended &&
    (match e.block with
    | some b => ((s.work.blocks.find? b).map Block.resident).getD false
    | none => !e.ended || e.broken)

/-- The room of a core as its gangs and blocks leave it. -/
def State.room (s : State) (core : Nat) : Room :=
  let gangs := (Store.vals s.work.engines).filter fun e => !e.isSeq && e.place.coreId == core && s.occupies e
  let blocks := (Store.vals s.work.blocks).filter fun b => b.resident && b.place.coreId == core &&
    (((s.launchOf b.launch).map fun l => (s.context l.ctx).state != .suspended).getD true)
  let r := gangs.foldl (fun r e => r.hold ⟨e.place.slot, e.place.groups, e.place.window⟩ e.width (footprint e.nregs e.ndist))
    (Room.empty core)
  { r with
    blocks := 32 - blocks.length
    scratch := (blocks.filter fun b => b.scratchLen != 0).map fun b => (b.scratchOff, b.scratchLen) }

/-- What a block of a launch takes. -/
def Launch.need (l : Launch) : Need := needOf (l.block.1 * l.block.2.1 * l.block.2.2) l.kernel

/-- Whether armed blocks of a launch are still to start (R349, R351). -/
def Launch.starts (l : Launch) : Bool := !l.failed && !l.barred && !l.retired

/-- Whether a bind record has blocks to start. -/
def BindRecord.open_ (r : BindRecord) : Bool := (r.state == 1 || r.state == 2) && decide (r.next < r.count)

/-- The bind records of a core's die that name a core and have blocks to start, in the order in which the dispatcher takes them
(R356). -/
def State.bindsOf (s : State) (die : Nat) : List (Nat × BindRecord) :=
  sortBy (fun (a b : Nat × BindRecord) => if a.2.armcyc ≠ b.2.armcyc then decide (a.2.armcyc < b.2.armcyc) else decide (a.1 ≤ b.1))
    (s.launch.binds.filter fun kb => kb.2.die == die && kb.2.open_ && ((s.launchOf kb.2.launch).map Launch.starts).getD false)

/-- The room of a core as Reten counts it: with the armed blocks of the core placed (R356). -/
def State.fullRoom (s : State) (core : Nat) : Room :=
  ((s.bindsOf (core / 128)).filter fun kb => kb.2.coreset.testBit (core % 128)).foldl (fun r kb =>
    match s.launchOf kb.2.launch with
    | none => r
    | some l => (List.range (kb.2.count - kb.2.next)).foldl (fun r _ => match r.place l.need with
        | some (q, _, _) => q
        | none => r) r) (s.room core)

/-! ## Units and levels (R358, R359) -/

/-- Whether a block of a launch has been placed. -/
def Launch.placed (l : Launch) (b : Nat) : Bool := decide (b < l.low) || l.ahead.contains b

/-- Whether a launch has an unplaced block that may still start. -/
def Launch.unplaced (l : Launch) : Bool := !l.binding && l.starts && decide (l.low < l.blocks)

/-- A set of blocks closed over co-scheduled cohorts (R358). -/
def Launch.closure (l : Launch) : Nat → List Nat → List Nat
  | 0, b => b
  | n + 1, b =>
    let more := (l.cohorts.filter fun c => c.cosched && c.members.any b.contains).flatMap Cohort.members
    l.closure n (b ++ more.filter fun m => !l.placed m).dedup

/-- The next unit of a launch: its blocks, ascending (R358). -/
def Launch.unit (l : Launch) : List Nat :=
  let set := l.closure (l.cohorts.length + 1) [l.low]
  let set := if l.det then
      (List.range (set.foldl max 0 + 1)).filter fun b => set.contains b || (decide (l.low ≤ b) && !l.placed b)
    else set
  sortBy (fun a b => decide (a ≤ b)) set

/-- Whether a unit holds a block of a co-scheduled cohort. -/
def Launch.cosched (l : Launch) (unit : List Nat) : Bool := l.cohorts.any fun c => c.cosched && c.members.any unit.contains

/-- The coordinates of a block of a grid (R225). -/
def gridXyz (g : Nat × Nat × Nat) (b : Nat) : Nat × Nat × Nat := (b % g.1, b / g.1 % g.2.1, b / (g.1 * g.2.1))

/-- Whether a consumer block needs a producer block (R348). -/
def Producer.needs (p : Producer) (pg cg : Nat × Nat × Nat) (b b' : Nat) : Bool :=
  let c := gridXyz cg b
  let q := gridXyz pg b'
  match p.map with
  | 1 => b == b'
  | 2 => q.2.1 == c.2.1 && q.2.2 == c.2.2
  | 3 => q.1 == c.1 && q.2.2 == c.2.2
  | 4 => q.2.2 == c.2.2 && decide (absDiff q.1 c.1 ≤ p.param) && decide (absDiff q.2.1 c.2.1 ≤ p.param)
  | _ => true

/-- Whether a block is released: every producer block that it needs is complete (R349). -/
def State.released (s : State) (l : Launch) (b : Nat) : Bool :=
  l.producers.all fun p => match s.launchOf p.launch with
    | none => true
    | some q => q.complete.length == q.blocks ||
        (List.range q.blocks).all fun b' => q.complete.contains b' || !p.needs q.grid l.grid b b'

/-- Whether a launch's next unit is eligible (R358); nothing of a context that does not run is placed (R368). -/
def State.eligible (s : State) (l : Launch) : Bool :=
  l.unplaced && l.startMet && l.streamsStarted && (s.context l.ctx).state == .active && l.unit.all (s.released l)

/-- The level of a launch's next unit at a cycle (R359, R367). -/
def State.unitLevel (s : State) (l : Launch) (t : Nat) : Nat :=
  max l.prio (s.context l.ctx).priomin - (t - l.since.getD t) / 2 ^ 18

/-! ## Fits (R361, R367) -/

/-- The save slots of a list that parties hold. -/
def slotsHeld (l : List Nat) : Nat := (l.filter (· != 0)).length

/-- The armed blocks of a context that have not started, and their gangs. -/
def State.armedParties (s : State) (ctx : Nat) : Nat × Nat :=
  s.launch.binds.foldl (fun n kb => match s.launchOf kb.2.launch with
    | some l => if l.ctx = ctx ∧ kb.2.open_ ∧ l.starts then
        (n.1 + (kb.2.count - kb.2.next), n.2 + (kb.2.count - kb.2.next) * l.need.gangs) else n
    | none => n) (0, 0)

/-- Whether a context's counts admit blocks of a launch (R367). -/
def State.countsAdmit (s : State) (l : Launch) (n : Nat) : Bool :=
  let c := s.context l.ctx
  let a := s.armedParties l.ctx
  decide (slotsHeld c.blockSlots + a.1 + n ≤ c.nbslot) && decide (slotsHeld c.gangSlots + a.2 + n * l.need.gangs ≤ c.ngslot)

/-- The room of a list of cores that a block fits best: fewest free thread slots afterwards, ties to the lower core (R361). -/
def bestRoom (n : Need) (rooms : List Room) : Option (Room × Room) :=
  (rooms.filterMap fun r => (r.place n).map fun p => (r, p.1)).foldl (fun best x => match best with
    | none => some x
    | some b => if x.2.threads < b.2.threads then some x else some b) none

/-- Blocks placed one after another, as far as they fit: the rooms afterwards and the cores taken. -/
def placeAll (n : Need) : List Nat → List Room → List Room × List (Nat × Nat)
  | [], rooms => (rooms, [])
  | b :: r, rooms =>
    match bestRoom n rooms with
    | none => (rooms, [])
    | some (old, new) =>
      let rest := placeAll n r (rooms.map fun x => if x.core = old.core then new else x)
      (rest.1, (b, old.core) :: rest.2)

/-- Rooms grouped by a key of their cores, ascending. -/
def roomGroups (key : Nat → Nat) (rooms : List Room) : List (List Room) :=
  ((rooms.map fun r => key r.core).dedup).map fun k => rooms.filter fun r => key r.core == k

/-- The group in which every block can be held, with the fewest free thread slots afterwards (R361). -/
def bestGroup (n : Need) (blocks : List Nat) (groups : List (List Room)) : Option (List (Nat × Nat)) :=
  (groups.foldl (fun (best : Option (Nat × List (Nat × Nat))) g =>
    let p := placeAll n blocks g
    let left := (p.1.map Room.threads).sum
    if p.2.length ≠ blocks.length then best
    else match best with
      | none => some (left, p.2)
      | some b => if left < b.1 then some (left, p.2) else some b) none).map Prod.snd

/-- Fits(u, S): the core of each block of a unit (R361). -/
def State.fits (s : State) (l : Launch) (unit cores granted : List Nat) : Option (List (Nat × Nat)) :=
  if !s.countsAdmit l unit.length then none
  else
    let rooms := cores.map s.fullRoom
    if l.cosched unit then
      let holds := (roomGroups (· / 8) (granted.map Room.empty)).any fun g => (placeAll l.need unit g).2.length == unit.length
      bestGroup l.need unit (roomGroups (if holds then (· / 8) else (· / 128)) rooms)
    else if (placeAll l.need unit rooms).2.length = unit.length then some (placeAll l.need unit rooms).2
    else none

/-- The cluster in which the fewest of a unit's blocks lack room, ties to the lower (R361). -/
def State.reserveFor (s : State) (l : Launch) (unit granted : List Nat) : Option Nat :=
  ((roomGroups (· / 8) (granted.map s.fullRoom)).foldl (fun (best : Option (Nat × Nat)) g =>
    let lack := unit.length - (placeAll l.need unit g).2.length
    let cluster := ((g.head?.map Room.core).getD 0) / 8
    match best with
    | none => some (lack, cluster)
    | some b => if lack < b.1 then some (lack, cluster) else some b) none).map Prod.snd

/-! ## Arming (R356, R361, R363) -/

/-- Blocks of one core as runs of constant stride: first, count and stride (R355). -/
def strideRuns : List Nat → List (Nat × Nat × Nat)
  | [] => []
  | b :: r =>
    match strideRuns r with
    | [] => [(b, 1, 1)]
    | (f, 1, _) :: rest => if b < f then (b, 2, f - b) :: rest else (b, 1, 1) :: (f, 1, 1) :: rest
    | (f, c, d) :: rest => if b + d = f then (b, c + 1, d) :: rest else (b, 1, 1) :: (f, c, d) :: rest

/-- The home of a cohort once blocks of it are placed: the cluster with most of a co-scheduled cohort's members, the cluster of
the first member of any other (R363). -/
def Cohort.place (c : Cohort) (at_ : List (Nat × Nat)) : Cohort :=
  let mine := at_.filter fun p => c.members.contains p.1
  match c.home, mine with
  | none, (_, core) :: _ =>
    if c.cosched then
      let clusters := sortBy (fun a b => decide (a ≤ b)) (mine.map fun p => p.2 / 8).dedup
      let n := fun (k : Nat) => (mine.filter fun p => p.2 / 8 == k).length
      { c with home := clusters.foldl (fun (best : Option Nat) k => match best with
        | none => some k
        | some b => if n b < n k then some k else some b) none }
    else { c with home := some (core / 8) }
  | _, _ => c

/-- The lowest placed prefix of a launch moved up past the blocks placed ahead. -/
def Launch.settle (l : Launch) : Nat → Launch
  | 0 => l
  | n + 1 => if l.ahead.contains l.low then ({ l with low := l.low + 1, ahead := l.ahead.filter (· != l.low) } : Launch).settle n else l

/-- The cohort whose placement a record carries: a co-scheduled one first, else the lowest that holds a block of it. -/
def Launch.carried (l : Launch) (unit : List Nat) : Option Nat :=
  let holds := fun (co : Bool) => l.cohorts.findIdx? fun c => (c.cosched || !co) && c.members.any unit.contains
  (holds true).or (holds false)

/-- BIND_ARM: a unit's blocks are placed: its bind records are armed, with one GROUP and the level fixed (R355, R356, R359,
R363). -/
def State.arm (s : State) (l : Launch) (unit : List Nat) (at_ : List (Nat × Nat)) : State :=
  let level := s.unitLevel l s.clock.cyc
  let group := s.launch.groups
  let l' := ({ l with
    ahead := unit ++ l.ahead, since := none, reserved := none, cohorts := l.cohorts.map fun c => c.place at_ } : Launch).settle
      (unit.length + l.ahead.length)
  let carry := l.carried unit
  let home := ((carry.bind fun c => l'.cohorts[c]?).bind Cohort.home).getD 0
  let cores := (at_.map Prod.snd).dedup
  let records := cores.flatMap fun core =>
    (strideRuns ((at_.filter fun p => p.2 == core).map Prod.fst)).map fun r =>
      ({ die := core / 128, launch := l.id, first := r.1, count := r.2.1, stride := r.2.2, coreset := 2 ^ (core % 128)
         prio := level, state := 1, group, cohort := carry, barhome := home, next := 0, armcyc := s.clock.cyc, ended := 0 } :
        BindRecord)
  let binds := records.foldl (fun (m : Store BindRecord) r => m.put (m.freshKey 4096 (4096 * r.die)) r) s.launch.binds
  { s.setLaunch l.id l' with launch := { (s.setLaunch l.id l').launch with binds, groups := group % 65535 + 1 } }

/-! ## Streams (R192, R362, R367) -/

/-- The address of sequencer, block and gang save slot k of a context (R370). -/
def Context.seqSlotAt (c : Context) (k : Nat) : Nat :=
  c.save + 4096 + (c.slotCount + 3) / 4 * 4096 + 65536 * c.slotCount + 2101248 * k
def Context.blockSlotAt (c : Context) (k : Nat) : Nat := c.seqSlotAt c.nsslot + 266240 * k
def Context.gangSlotAt (c : Context) (k : Nat) : Nat := c.blockSlotAt c.nbslot + 131072 * k

/-- The shared borrow of the argument copy that h0 holds at the start (R192, R228, R342). -/
def State.argRegion (s : State) (l : Launch) : Region :=
  { Region.empty with kind := .shared, base := (s.context l.ctx).argCopy l.slot, extent := l.arglen }

/-- The clusters of a launch's streams. -/
def Launch.seqClusters (l : Launch) : List Nat := (List.range 64).filter l.seqMask.testBit

/-- Whether a cluster's sequencer belongs to no stream. -/
def State.seqFree (s : State) (cluster : Nat) : Bool :=
  !((Store.vals s.work.engines).any fun e => e.isSeq && e.place.clusterId == cluster && (!e.ended || e.broken) &&
    (s.context e.ctx).state != .suspended)

/-- A stream started on a cluster (R192). -/
def State.startStream (s : State) (l : Launch) (cluster : Nat) : State :=
  let (id, s) := s.fresh
  let c := s.context l.ctx
  let k := (lowestSlot c.seqSlots c.nsslot).getD 0
  let lane := { Lane.empty with
    launch := l.id, pc := BitVec.ofNat 32 l.seq.code, restart := BitVec.ofNat 32 l.seq.code, status := .ready }
  let e := { Engine.blank with
    kind := .seq, place := ⟨cluster / 16, cluster % 16, 0, 0, 0, 0⟩, launch := l.id, ctx := l.ctx, width := 1, lanes := [(0, lane)]
    regions := [(0, s.argRegion l)], savep := BitVec.ofNat 64 (c.seqSlotAt k), prio := l.prio }
  ((s.setEngine id e).modContext l.ctx fun c => { c with seqSlots := takeSlot c.seqSlots k id }).modLaunch l.id
    fun l => { l with streams := l.streams ++ [id] }

/-- The poison that a cluster's last stream met and did not report is no next stream's (R299). -/
def State.clearMet (s : State) (cluster : Nat) : State :=
  match s.work.matrix.find? cluster with
  | some m => { s with work := { s.work with matrix := s.work.matrix.put cluster { m with psnMet := none } } }
  | none => s

/-- SEQUENCER_STREAM_START: every stream of a launch started in one step, once every named sequencer is free (R362). -/
def State.startStreams (s : State) (id : Nat) : State :=
  match s.launchOf id with
  | none => s
  | some l =>
    let c := s.context l.ctx
    let cl := l.seqClusters
    if l.streamsStarted || !l.startMet || !l.starts || c.state != .active then s
    else if cl.all (fun k => s.seqFree k && (List.range 8).any fun j => c.cores.testBit (8 * k + j))
        && decide (slotsHeld c.seqSlots + cl.length ≤ c.nsslot) then
      (cl.foldl (fun s k => (s.clearMet k).startStream l k) s).modLaunch id fun l => { l with streamsStarted := true }
    else s

/-! ## The pass (R360, R361) -/

/-- The head of a queue: its oldest launch with an unplaced block (R360). -/
def State.queueHead (s : State) (q : Nat) : Option Nat :=
  s.launch.queue.find? fun id => ((s.launchOf id).map fun l => l.queue == q && l.unplaced).getD false

/-- Since(u) set for a launch whose next unit has become eligible (R358). -/
def State.markSince (s : State) (id : Nat) : State :=
  match s.launchOf id with
  | some l => if l.since.isNone && s.eligible l then s.setLaunch id { l with since := some s.clock.cyc } else s
  | none => s

/-- The launches of a list whose next unit is eligible. -/
def State.eligibleOf (s : State) (ids : List Nat) : List Nat := ids.filter fun id => ((s.launchOf id).map s.eligible).getD false

/-- The order of C in a pass (R361). -/
def State.unitBefore (s : State) (a b : Nat) : Bool :=
  match s.launchOf a, s.launchOf b with
  | some l, some m =>
    let t := s.clock.cyc
    if s.unitLevel l t ≠ s.unitLevel m t then decide (s.unitLevel l t < s.unitLevel m t)
    else if l.since.getD t ≠ m.since.getD t then decide (l.since.getD t < m.since.getD t)
    else if l.id ≠ m.id then decide (l.id < m.id)
    else decide (l.queue ≤ m.queue)
  | _, _ => true

/-- A unit that a pass has found blocked: its launch, its size and its reserved cluster. -/
structure Blocked where
  launch : Nat
  size : Nat
  reserved : Option Nat
deriving DecidableEq, Repr

/-- AddNext(u): the next unit of the launch, or of the queue's new head (R361). -/
def State.addNext (s : State) (l : Launch) : State × List Nat :=
  let s := s.markSince l.id
  if ((s.launchOf l.id).map Launch.unplaced).getD false then (s, s.eligibleOf [l.id])
  else match s.queueHead l.queue with
    | none => (s, [])
    | some h =>
      let s := (s.startStreams h).markSince h
      (s, s.eligibleOf [h])

/-- A unit considered in a pass: armed, blocked with its reservation, or passed over (R361). -/
def State.consider (s : State) (l : Launch) (blocked : Option Blocked) : State × Option Blocked × List Nat :=
  let unit := l.unit
  let granted := (s.context l.ctx).coreList
  let armed := fun (at_ : List (Nat × Nat)) (b : Option Blocked) =>
    let (s, next) := (s.arm l unit at_).addNext l
    (s, b, next)
  match blocked with
  | none =>
    match s.fits l unit granted granted with
    | some at_ => armed at_ none
    | none =>
      if s.unitLevel l s.clock.cyc = 0 ∧ l.reserved.isNone then
        let r := s.reserveFor l unit granted
        (s.setLaunch l.id { l with reserved := r, reservedAt := s.clock.cyc }, some ⟨l.id, unit.length, r⟩, [])
      else (s, some ⟨l.id, unit.length, l.reserved⟩, [])
  | some b =>
    if l.id ≠ b.launch ∧ unit.length < b.size then
      match s.fits l unit (granted.filter fun c => some (c / 8) != b.reserved) granted with
      | some at_ => armed at_ blocked
      | none => (s, blocked, [])
    else (s, blocked, [])

/-- The units of a pass taken in their order, C re-ordered after each change (R361). -/
def State.passLoop : Nat → State → List Nat → Option Blocked → State
  | 0, s, _, _ => s
  | n + 1, s, c, blocked =>
    match sortBy s.unitBefore c with
    | [] => s
    | id :: rest =>
      match s.launchOf id with
      | none => State.passLoop n s rest blocked
      | some l =>
        let (s, b, next) := s.consider l blocked
        State.passLoop n s (rest ++ next) b

/-- The heads of the sixteen queues. -/
def State.heads (s : State) : List Nat := (List.range 16).filterMap s.queueHead

/-- RETEN_PASS: done records are freed, streams of the heads start, and the units of the heads are armed, reserved for or
backfilled (R356, R360 to R362). -/
def State.placementPass (s : State) : State :=
  let s := { s with launch := { s.launch with
    passPending := false, binds := s.launch.binds.filter fun kb => kb.2.state != 3 } }
  let s := s.heads.foldl State.startStreams s
  let s := s.launch.queue.foldl State.markSince s
  s.passLoop 65536 (s.eligibleOf s.heads) none

/-! ## Pass events (R360) -/

/-- Whether CYC stands at a multiple of 65,536 that has not started a pass. -/
def State.passTimerDue (s : State) : Bool := s.clock.cyc % 65536 == 0 && s.launch.passTimer != s.clock.cyc

/-- PASS_TIMER: CYC reaches a multiple of 65,536, and Reten runs a pass (R360). -/
def execPassTimer (s : State) : Out :=
  if s.passTimerDue then .next { s with launch := { s.launch with passTimer := s.clock.cyc, passPending := true } } else .next s

/-! ## The start of a block (R225 to R228, R356, R357, R364) -/

/-- The first program counter of a kernel and its handler (R228, R344). -/
def ImageHeader.entry (h : ImageHeader) : Word := BitVec.ofNat 32 h.code
def ImageHeader.tvec (h : ImageHeader) : Word := if h.handler = 0xFFFFFFFF then 0 else BitVec.ofNat 32 (h.code + h.handler)

/-- Gang g of a starting block (R225, R226, R228). -/
def State.blockGang (s : State) (l : Launch) (index key core prio g : Nat) (x : Seat) (save : Nat) : Engine :=
  let w := l.kernel.gangw
  let threads := l.block.1 * l.block.2.1 * l.block.2.2
  let lanes := (List.range w).filter fun k => decide (g * w + k < threads)
  let scratch : List (Nat × Region) :=
    if g = 0 ∧ l.kernel.scratch ≠ 0 then
      [(15, { Region.empty with kind := .exclusive, base := 3 * 2 ^ 60, extent := l.kernel.scratch })]
    else []
  { Engine.blank with
    place := ⟨core / 128, core / 8 % 16, core % 8, x.slot, x.groups, x.window⟩, launch := l.id, ctx := l.ctx, block := some key
    gangIndex := g, width := w, nregs := l.kernel.regs, ndist := l.kernel.ndist, prio, tvec := l.kernel.tvec
    lanes := lanes.map fun k => (k, { Lane.empty with
      launch := l.id, block := index, thread := g * w + k, pc := l.kernel.entry, restart := l.kernel.entry, status := .ready })
    masks := Store.set 0 [] 0 (listMask lanes), regions := (0, s.argRegion l) :: scratch, savep := BitVec.ofNat 64 save }

/-- The gangs of a block created, each with its save slot. -/
def State.makeGangs (s : State) (l : Launch) (index key core prio : Nat) : List (Seat × Nat) → State × List Nat
  | [] => (s, [])
  | (x, g) :: r =>
    let (id, s) := s.fresh
    let c := s.context l.ctx
    let k := (lowestSlot c.gangSlots c.ngslot).getD 0
    let s := (s.setEngine id (s.blockGang l index key core prio g x (c.gangSlotAt k))).modContext l.ctx
      fun c => { c with gangSlots := takeSlot c.gangSlots k id }
    let (s, ids) := State.makeGangs s l index key core prio r
    (s, id :: ids)

/-- A block started on a core: its resources, its gangs and its save slot. -/
def State.startBlock (s : State) (l : Launch) (num : Nat) (r : BindRecord) (core : Nat) (seats : List Seat) (off : Nat) : State :=
  let index := r.first + r.next * r.stride
  let (key, s) := s.fresh
  let (s, gangs) := s.makeGangs l index key core r.prio seats.zipIdx
  let c := s.context l.ctx
  let s := s.modContext l.ctx fun x =>
    { x with blockSlots := takeSlot x.blockSlots ((lowestSlot c.blockSlots c.nbslot).getD 0) key }
  let b : Block :=
    { launch := l.id, index, place := ⟨core / 128, core / 8 % 16, core % 8, 0, 0, 0⟩, slot := 0, record := num
      scratchOff := off, scratchLen := l.kernel.scratch, gangs, resident := true
      threads := l.block.1 * l.block.2.1 * l.block.2.2, exited := 0, barrier := .fresh, drains := 0, ended := false }
  { s with
    work := { s.work with blocks := s.work.blocks.put key b }
    launch := { s.launch with
      binds := s.launch.binds.put num { r with state := 2, next := r.next + 1 }
      lastStart := s.launch.lastStart.put (core / 128) s.clock.cyc } }

/-- Whether a block of a DET launch may start on a die: every lower block has started, and the notice of the last one has come
in an earlier cycle (R364). -/
def State.detTurn (s : State) (l : Launch) (die index : Nat) : Bool :=
  !l.det || index == 0 ||
    (match l.announced.find? die with
    | some (n, t) => n == index && decide (t < s.clock.cyc)
    | none => false)

/-- Where the next block of a record starts: the lowest-numbered core of CORESET that can hold it. -/
def State.startAt (s : State) (die : Nat) (l : Launch) (r : BindRecord) : Option (Nat × List Seat × Nat) :=
  firstSome (fun k =>
    if r.coreset.testBit k then ((s.room (128 * die + k)).place l.need).map fun p => (128 * die + k, p.2) else none) (List.range 128)

/-- Whether a context has save slots left for one more block of a launch (R367, R370). -/
def State.savesFree (s : State) (l : Launch) : Bool :=
  let c := s.context l.ctx
  decide (slotsHeld c.blockSlots < c.nbslot) && decide (slotsHeld c.gangSlots + l.need.gangs ≤ c.ngslot)

/-- The block that a die starts in this cycle (R356, R364). -/
def State.dieStart (s : State) (die : Nat) : Option (Launch × Nat × BindRecord × Nat × List Seat × Nat) :=
  if ((s.launch.lastStart.find? die).map fun t => decide (s.clock.cyc ≤ t)).getD false then none
  else firstSome (fun kb => (s.launchOf kb.2.launch).bind fun l =>
    if kb.2.armcyc + 16 ≤ s.clock.cyc ∧ (s.context l.ctx).state = .active
        ∧ s.detTurn l die (kb.2.first + kb.2.next * kb.2.stride) ∧ s.savesFree l then
      (s.startAt die l kb.2).map fun p => (l, kb.1, kb.2, p)
    else none) (s.bindsOf die)

def State.blockStartDue (s : State) : Option (Launch × Nat × BindRecord × Nat × List Seat × Nat) :=
  firstSome s.dieStart (List.range 4)

/-- The notices of a DET block's start: the other dies have them 36 cycles for each boundary later (R364). -/
def State.announce (s : State) (l : Launch) (index die : Nat) : State :=
  let s := s.modLaunch l.id fun l => { l with announced := l.announced.put die (index + 1, s.clock.cyc) }
  { s with launch := { s.launch with notices := s.launch.notices ++
    ((List.range 4).filter (· != die)).map fun d => (s.clock.cyc + 36 * dieCrossings die d, d, l.id, index + 1) } }

/-- BLOCK_START: a die starts the next block that its armed records give it (R228, R356, R364). -/
def execBlockStart (s : State) : Out :=
  match s.blockStartDue with
  | none => .next s
  | some (l, num, r, core, seats, off) =>
    let s := s.startBlock l num r core seats off
    .next (if l.det then s.announce l (r.first + r.next * r.stride) (core / 128) else s)

/-- The first notice of a DET block's start that reaches a die by this cycle. -/
def State.noticeDue (s : State) : Option (Nat × Nat × Nat × Nat) := s.launch.notices.find? fun n => decide (n.1 ≤ s.clock.cyc)

/-- DET_START_NOTICE: a die learns that a block of a DET launch has started (R364). -/
def execDetStartNotice (s : State) : Out :=
  match s.noticeDue with
  | none => .next s
  | some (t, die, id, n) =>
    let s := { s with launch := { s.launch with notices := s.launch.notices.erase (t, die, id, n) } }
    .next (s.modLaunch id fun l => { l with announced := l.announced.put die (n, s.clock.cyc) })

/-! ## Gangs formed from the pool (R237 to R239) -/

/-- The first bin, with its cluster, whose flush deadline has come (R237). -/
def State.flushDeadline (s : State) : Option (Nat × Nat) :=
  firstSome (fun (kp : Nat × Pool) =>
    (kp.2.bins.firstWhere fun _ b =>
      ((b.records.head?.map fun r => decide (r.arrive + 4096 ≤ s.clock.cyc)).getD false) && s.launchActive b.launch &&
        !kp.2.formedWaits b).map fun kb => (kp.1, kb.1)) s.work.pools

/-- POOL_FLUSH_DEADLINE: the bin's records form a gang, a full one where W have gathered (R237). -/
def execPoolFlushDeadline (s : State) : Out :=
  match s.flushDeadline with
  | none => .next s
  | some (cluster, bin) =>
    let p := s.pool cluster
    match p.bins.find? bin with
    | none => .next s
    | some b => .next (s.setPool cluster (p.take bin (s.widthOf b.launch)))

/-- The core of a cluster that hosts a formed gang: granted, with room, and with the most free thread slots; blocks that are armed and
have not started take no room yet (R238). -/
def State.hostFor (s : State) (cluster : Nat) (f : Formed) : Option (Launch × Nat × Seat) :=
  match s.launchOf f.launch with
  | none => none
  | some l =>
    let c := s.context l.ctx
    let foot := footprint l.kernel.regs l.kernel.ndist
    if c.state ≠ .active ∨ l.failed ∨ c.ngslot ≤ slotsHeld c.gangSlots then none
    else
      let can := ((List.range 8).map (8 * cluster + ·)).filterMap fun core =>
        if c.cores.testBit core then
          let r := s.room core
          (r.seat l.kernel.gangw foot).map fun x => (core, r.threads, x)
        else none
      (can.foldl (fun (best : Option (Nat × Nat × Seat)) x => match best with
        | none => some x
        | some b => if b.2.1 < x.2.1 then some x else some b) none).map fun x => (l, x.1, x.2.2)

/-- The registers of a thread taken from its record (R239). -/
def PoolRecord.lane (r : PoolRecord) (park : List Nat) : Lane :=
  let l := { Lane.empty with
    launch := r.launch, block := r.block, thread := r.thread, preds := r.preds, fx := r.fx, pc := r.pc, restart := r.pc
    status := .waiting }
  let l := ((parkRegs park).zip r.regs).foldl (fun l x => l.setReg x.1 x.2) l
  ((parkDists park).zip r.dists).foldl (fun l x => l.setDist x.1 x.2) l

/-- A gang formed from the pool, as it stands on its core before its records are copied (R238, R239). -/
def State.poolGang (s : State) (l : Launch) (core : Nat) (x : Seat) (save : Nat) (f : Formed) : Engine :=
  let c := s.context l.ctx
  { Engine.blank with
    place := ⟨core / 128, core / 8 % 16, core % 8, x.slot, x.groups, x.window⟩, launch := l.id, ctx := l.ctx
    width := l.kernel.gangw, nregs := l.kernel.regs, ndist := l.kernel.ndist, prio := max l.prio c.priomin, tvec := l.kernel.tvec
    lanes := f.records.zipIdx.map fun r => (r.2, r.1.lane l.kernel.park)
    masks := Store.set 0 [] 0 (listMask (List.range f.records.length)), regions := [(0, s.argRegion l)]
    savep := BitVec.ofNat 64 save }

/-- The first formed gang that a core can host. -/
def State.hostDue (s : State) : Option (Nat × Nat × Formed × Launch × Nat × Seat) :=
  firstSome (fun (kp : Nat × Pool) =>
    firstSome (fun (fi : Formed × Nat) =>
      if fi.1.hosted.isSome then none
      else (s.hostFor kp.1 fi.1).map fun h => (kp.1, fi.2, fi.1, h)) kp.2.formed.zipIdx) s.work.pools

/-- POOL_GANG_HOST: a formed gang takes its place on a core and its save slot; its records are copied (R238, R239). -/
def execPoolGangHost (s : State) : Out :=
  match s.hostDue with
  | none => .next s
  | some (cluster, k, f, l, core, x) =>
    let (id, s) := s.fresh
    let c := s.context l.ctx
    let slot := (lowestSlot c.gangSlots c.ngslot).getD 0
    let bytes := (f.records.map fun r => r.image.length).sum
    let ready := s.clock.cyc + 16 + (bytes + 4095) / 4096
    let s := (s.setEngine id (s.poolGang l core x (c.gangSlotAt slot) f)).modContext l.ctx
      fun c => { c with gangSlots := takeSlot c.gangSlots slot id }
    let p := s.pool cluster
    let s := s.setPool cluster { p with formed := p.formed.set k { f with hosted := some (id, ready) } }
    .next (match p.bins.firstWhere fun _ b => b.launch == f.launch && b.pc == f.pc with
      | some (bin, _) => s.formFull cluster bin
      | none => s)

/-- The first hosted gang whose records have been copied. -/
def State.readyDue (s : State) : Option (Nat × Nat × Nat) :=
  firstSome (fun (kp : Nat × Pool) =>
    firstSome (fun (fi : Formed × Nat) => match fi.1.hosted with
      | some (id, t) => if t ≤ s.clock.cyc ∧ s.launchActive fi.1.launch then some (kp.1, fi.2, id) else none
      | none => none) kp.2.formed.zipIdx) s.work.pools

/-- POOL_GANG_READY: the gang is ready, and its records are free (R239). -/
def execPoolGangReady (s : State) : Out :=
  match s.readyDue with
  | none => .next s
  | some (cluster, k, id) =>
    let p := s.pool cluster
    let s := s.setPool cluster { p with formed := p.formed.eraseIdx k }
    .next (s.modEngine id fun e => { e with lanes := e.lanes.mapKV fun _ l => { l with status := .ready } })

end Sys2Proof.Machine
end

