-- ==== Sys2Proof/Machine/Command.lean ====
section
/-! DEFINITION. The host's command ring: the entry that Reten takes next, its checks and its answer (R464, R467, R468). -/

namespace Sys2Proof.Machine

/-- The 64 bytes of the entry that Reten takes next (R467). -/
def State.ringEntry (s : State) : List Byte :=
  (List.range 64).map fun i => Store.get 0 s.host.ring (64 * (s.host.cmdHead % 64) + i)

/-- Whether Reten still performs the command that it took last. -/
def State.commandBusy (s : State) : Bool := s.xlat.flips.any fun f => f.cmd.isSome

/-- The entry that Reten takes, if the host has advanced CMDTAIL past it; in a cold device nothing takes it (R464, R467). -/
def State.commandDue (s : State) : Option (List Byte) :=
  if s.host.cmdHead = s.host.cmdTail ∨ s.boot.mode = .cold ∨ s.commandBusy then none else some s.ringEntry

/-- A field of an entry. -/
def entryField (b : List Byte) (off n : Nat) : Nat := fieldAt b off n

/-- The opcode of an entry. -/
def entryOp (b : List Byte) : Nat := entryField b 0 1

/-- The context that an entry names. -/
def entryCtx (b : List Byte) : Nat := entryField b 2 2

/-- Whether every byte that the layout, or the command, leaves 0 is 0: `named` says that the command names a context, and `used` lists
the operand bytes that it uses, by offset and count (R468). -/
def entryOk (b : List Byte) (named : Bool) (used : List (Nat × Nat)) : Bool :=
  entryField b 1 1 == 0 && (if named then decide (entryCtx b < 1024) else entryCtx b == 0) &&
    (List.range 52).all fun i => used.any (fun u => decide (u.1 ≤ 8 + i) && decide (8 + i < u.1 + u.2)) || entryField b (8 + i) 1 == 0

/-- The answer to the command at the head of the ring: its status word, CMDHEAD and MSI-X vector 1 (R467, R468). -/
def State.answer (s : State) (status result : Nat) : State :=
  let at_ := 64 * (s.host.cmdHead % 64) + 0x3C
  let ring := (leBytes 4 (status + result % 2 ^ 16 * 2 ^ 16)).zipIdx.foldl (fun r p => Store.set 0 r (at_ + p.2) p.1) s.host.ring
  { s with host := { s.host with ring, cmdHead := (s.host.cmdHead + 1) % 64, msi := s.host.msi ++ [1] } }

/-- A command of the ring: taken when the entry at the head has its opcode and passes `is`; status 3 in recovery, 1 where a byte
that should be 0 is not, and otherwise the command's own effect (R464, R467, R468). -/
def command (s : State) (op : Nat) (is : List Byte → Bool) (named : Bool) (used : List (Nat × Nat)) (k : List Byte → State) : Out :=
  match s.commandDue with
  | none => .next s
  | some b =>
    if entryOp b ≠ op ∨ is b = false then .next s
    else if s.boot.mode ≠ .running then .next (s.answer 3 0)
    else if entryOk b named used = false then .next (s.answer 1 0)
    else .next (k b)

/-- A command that names a context: refused where the context is FREE or KILLING (R368). -/
def contextCommand (s : State) (op : Nat) (is : List Byte → Bool) (used : List (Nat × Nat)) (k : List Byte → Nat → Context → State) :
    Out :=
  command s op is true used fun b =>
    match s.ctxs.table.find? (entryCtx b) with
    | none => s.answer 1 0
    | some c => if c.state = .free ∨ c.state = .killing then s.answer 1 0 else k b (entryCtx b) c

/-- The test of a command whose opcode alone names it. -/
def anyEntry (_ : List Byte) : Bool := true

/-- UNLISTED_COMMAND: an opcode beyond the list is answered with status 1 (R467). -/
def execUnlistedCommand (s : State) : Out :=
  match s.commandDue with
  | none => .next s
  | some b =>
    if 1 ≤ entryOp b ∧ entryOp b ≤ 0x16 then .next s
    else if s.boot.mode ≠ .running then .next (s.answer 3 0)
    else .next (s.answer 1 0)

/-- Held entries of the notification queue posted while the ring has room (R470). -/
def State.postHeld : Nat → State → State
  | 0, s => s
  | n + 1, s =>
    match s.host.nqHeld with
    | [] => s
    | b :: rest =>
      if s.host.nqUsed < s.host.nqLen then
        let h := s.host
        State.postHeld n { s with host :=
          { h with
            out := h.out ++ [.hostStore (h.nqBase + 32 * (h.nqTail % h.nqLen)) b]
            nqTail := (h.nqTail + 1) % 2 ^ 32
            nqHeld := rest
            msi := h.msi ++ [0] } }
      else s

/-- NQHEAD_WRITE: the host has consumed entries; held ones are posted in order (R470). -/
def execNqheadWrite (v : Nat) (s : State) : Out :=
  .next (State.postHeld s.host.nqHeld.length { s with host := { s.host with nqHead := v % 2 ^ 32 } })

end Sys2Proof.Machine
end

