-- ==== Sys2Proof/Machine/Contexts.lean ====
section
/-! DEFINITION. Contexts: their creation, suspension and resumption, KILL, and the reclaim of orphaned borrows (R365 to R382). -/

namespace Sys2Proof.Machine

/-! ## Creation (R365, R366, R382) -/

/-- The bytes of a save area that the parts of R370 take. -/
def saveSize (slotCount nsslot nbslot ngslot : Nat) : Nat :=
  4096 + (slotCount + 3) / 4 * 4096 + 65536 * slotCount + 2101248 * nsslot + 266240 * nbslot + 131072 * ngslot

/-- The granted cores of a descriptor, die by die (R365). -/
def coresOf (b : List Byte) : Nat := (List.range 4).foldl (fun n d => n + fieldAt b (0x40 + 16 * d) 16 * 2 ^ (128 * d)) 0

/-- The context that a descriptor describes, before its layers are read. -/
def contextOf (b : List Byte) : Context :=
  { Context.blank with
    state := .active, ptb := fieldAt b 0 8, save := fieldAt b 8 8, savelen := fieldAt b 0x10 8, voile := fieldAt b 0x18 8
    voilelen := fieldAt b 0x20 8, lookahead := fieldAt b 0x32 1, priomin := fieldAt b 0x33 1, slotFirst := fieldAt b 0x34 2
    slotCount := fieldAt b 0x36 2, ngslot := fieldAt b 0x38 2, nbslot := fieldAt b 0x3A 2, privileged := bit (fieldAt b 0x3C 1) 0
    model := bit (fieldAt b 0x3C 1) 1, nsslot := fieldAt b 0x3D 1, cores := coresOf b }

/-- Whether a number is a power of two between 2^a and 2^b. -/
def powerWithin (a b n : Nat) : Bool := (List.range (b + 1)).any fun k => decide (a ≤ k) && n == 2 ^ k

/-- Whether a descriptor's reserved fields are 0 and its other fields in their ranges; `num` is the number that the context would
take (R365, R366). -/
def descriptorOk (b : List Byte) (num : Nat) : Bool :=
  let c := contextOf b
  let nlayer := fieldAt b 0x30 2
  let nq := fieldAt b 0x80 8
  let nqlen := fieldAt b 0x88 4
  fieldAt b 0x3C 1 / 4 == 0 && fieldAt b 0x3F 1 == 0 && fieldAt b 0x8C 116 == 0 && c.save % 4096 == 0 && c.voile % 65536 == 0 &&
    c.voilelen % 65536 == 0 && (if c.model then decide (1 ≤ nlayer) && decide (nlayer ≤ 1024) else nlayer == 0 && fieldAt b 0x28 8 == 0) &&
    decide (c.lookahead ≤ 15) && decide (c.priomin ≤ 47) && decide (c.slotFirst < 4096) && decide (1 ≤ c.slotCount) &&
    decide (c.slotCount ≤ 4096) && decide (c.nsslot ≤ 64) &&
    (if num = 0 then nq % 64 == 0 && powerWithin 6 16 nqlen else nq == 0 && nqlen == 0)

/-- The contexts that exist. -/
def State.liveContexts (s : State) : List (Nat × Context) := s.ctxs.table.filter fun kc => kc.2.state != .free

/-- The lowest free context number. -/
def State.freeContext (s : State) : Option Nat :=
  (List.range 1024).find? fun n => !(s.liveContexts.any fun kc => kc.1 == n)

/-- Whether a page table maps an address. -/
def State.resident (s : State) (ptb va : Nat) : Bool :=
  match walk s.mem.cells (va % 2 ^ 57) 4 (ptb % 2 ^ 40) with
  | .leaf _ => true
  | .fault _ _ _ => false

/-- Whether a new context may exist beside the others: its save area, its slots and the numbers of contexts (R366). -/
def State.contextFits (s : State) (c : Context) : Bool :=
  let live := s.liveContexts
  decide (saveSize c.slotCount c.nsslot c.nbslot c.ngslot ≤ c.savelen) &&
    (List.range ((c.savelen + 4095) / 4096)).all (fun k => s.resident c.ptb (c.save + 4096 * k)) &&
    decide (c.slotFirst + c.slotCount ≤ 4096) &&
    live.all (fun kc => decide (kc.2.slotFirst + kc.2.slotCount ≤ c.slotFirst) || decide (c.slotFirst + c.slotCount ≤ kc.2.slotFirst)) &&
    !(c.model && decide (256 ≤ (live.filter fun kc => kc.2.model).length)) && decide (live.length < 1024)

/-- A layer of a layer table's entry, if its fields are in order (R382). -/
def layerOf (b : List Byte) : Option Layer :=
  let src := fieldAt b 0 8
  let n := fieldAt b 0x10 1
  let tobj := fun (k : Nat) => fieldAt b (0x18 + 2 * k) 2
  let ok := (spaceOf src == 0 || spaceOf src == 4 || spaceOf src == 5) && decide (1 ≤ n) && decide (n ≤ 16) &&
    decide (fieldAt b 0x11 1 ≤ 15) && fieldAt b 0x12 6 == 0 && fieldAt b 0x38 8 == 0 &&
    (List.range 16).all fun k => if k < n then decide (tobj k < 4096) else tobj k == 0
  if ok then
    some
      { src, len := fieldAt b 8 8, cls := fieldAt b 0x11 1, objs := (List.range n).map tobj, state := layerAbsent, failed := none
        attempt := 0, pins := 0, lastBorrow := 0, holders := 0, early := false, frames := 0, evictAt := 0, retrying := false
        frame := none }
  else none

/-- The two host lines of the descriptor that the entry at the head names (R469). -/
def descriptorLines (b : List Byte) : List Nat :=
  let line := (2 ^ 60 + entryField b 8 8 % 2 ^ 52) / 128
  [line, line + 1]

/-- The bytes of the descriptor. -/
def State.descriptor (s : State) (b : List Byte) : List Byte := s.readHomeBytes (hostLoc (entryField b 8 8 % 2 ^ 52)) 256

/-- The state in which a context's own page tables can be used to read its layer table. -/
def State.provisional (s : State) (num : Nat) (d : List Byte) : State := s.setContext num { contextOf d with state := .free }

/-- The addresses of a layer table that are not at hand. -/
def State.layersMissing (s : State) (num : Nat) (d : List Byte) : List Nat :=
  if bit (fieldAt d 0x3C 1) 1 then (s.provisional num d).notAtHand num (fieldAt d 0x28 8, 64 * min 1024 (fieldAt d 0x30 2)) else []

/-- What CREATE waits for: the descriptor's host lines, or addresses of the layer table. -/
inductive CreateNeed | lines (l : List Nat) | layers (num : Nat) (d : List Byte) (l : List Nat) | go | lost
deriving DecidableEq, Repr

def State.createNeed (s : State) (b : List Byte) : CreateNeed :=
  let m := (descriptorLines b).filter fun l => !s.lineHeld l
  if m.any fun l => !s.hostReachable (l * 128) then .lost
  else if !m.isEmpty then .lines m
  else match s.freeContext with
    | none => .go
    | some num =>
      let d := s.descriptor b
      match s.layersMissing num d with
      | [] => .go
      | l => .layers num d l

/-- Whether the command at the head is a CREATE that waits for what it has asked for. -/
def State.createWaits (s : State) : Bool :=
  match s.commandDue with
  | none => false
  | some b => entryOp b == 1 && (match s.createNeed b with
    | .lines m => m.all fun l => s.needAsked (.host l)
    | .layers num d l => l.all fun va => s.needAsked ((s.provisional num d).lineNeed (calicoEngine num) false [] va)
    | _ => false)

/-- The layers of a model context, none where one is out of order or cannot be read (R366, R382). -/
def State.layersOf (s : State) (num : Nat) (d : List Byte) : Option (List Layer) :=
  if bit (fieldAt d 0x3C 1) 1 then
    let n := fieldAt d 0x30 2
    ((s.provisional num d).dispatcherBytes num [] (fieldAt d 0x28 8) (64 * n)).bind fun t =>
      (List.range n).mapM fun k => layerOf ((t.drop (64 * k)).take 64)
  else some []

/-- The notification queue set afresh by the CREATE of context 0 (R365, R470). -/
def State.newQueue (s : State) (num : Nat) (d : List Byte) : State :=
  if num = 0 then
    State.postHeld s.host.nqHeld.length
      { s with host := { s.host with nqBase := fieldAt d 0x80 8, nqLen := fieldAt d 0x88 4, nqHead := 0, nqTail := 0 } }
  else s

/-- Cores without those that a retired memory has withdrawn (R454). -/
def State.granted (s : State) (cores : Nat) : Nat :=
  cores - Nat.land cores (s.repair.withdrawn.foldl (fun n k => Nat.lor n (2 ^ k)) 0)

/-- A context created, or refused (R366, R368). -/
def State.create (s : State) (b : List Byte) : State :=
  let d := s.descriptor b
  match s.freeContext with
  | none => s.answer 1 0
  | some num =>
    match (if descriptorOk d num && s.contextFits (contextOf d) then s.layersOf num d else none) with
    | none => s.answer 1 0
    | some layers => ((s.setContext num { contextOf d with layers, cores := s.granted (coresOf d) }).newQueue num d).answer 0 num

/-- CREATE (R365, R366, R469). -/
def execCreate (s : State) : Out :=
  command s 0x01 anyEntry false [(8, 8)] fun b =>
    if entryField b 8 8 % 256 ≠ 0 ∨ 2 ^ 52 ≤ entryField b 8 8 then s.answer 1 0
    else match s.createNeed b with
      | .lost => s.answer 1 0
      | .lines m => m.foldl (fun s l => s.requestLine l false) s
      | .layers num d l =>
        let t := (s.provisional num d).askLines (calicoEngine num) 0 0 false [] l
        { t with ctxs := { t.ctxs with table := s.ctxs.table } }
      | .go => s.create b

/-! ## Suspension (R374 to R376) -/

/-- The engines of a context that have not ended. -/
def State.parties (s : State) (ctx : Nat) : List (Nat × Engine) :=
  s.work.engines.filter fun kv => kv.2.ctx == ctx && !kv.2.ended

/-- The blocks of a context that are resident. -/
def State.blocksOf (s : State) (ctx : Nat) : List (Nat × Block) :=
  s.work.blocks.filter fun kb => kb.2.resident && ((s.launchOf kb.2.launch).map Launch.ctx) == some ctx

/-- Borrows, `lbrw` and `copy.shadow` that wait for an answer are withdrawn: their lanes stand at them again (R374). -/
def State.withdraw (s : State) (ctx : Nat) : State :=
  let mine := fun (w : Wait) => ((s.engine w.eng).map Engine.ctx) == some ctx
  let answered := fun (id : Nat) => s.own.requests.any fun r => r.wait == id && (match r.stage with
    | .answered _ _ => true
    | _ => false)
  let back := s.work.waits.filter fun w => mine w && (match w.kind with
    | .borrow _ | .layer _ _ _ => !answered w.id
    | .shadow _ _ => true
    | _ => false)
  let ids := back.map Wait.id
  let left := s.own.requests.filter fun r => !(ids.contains r.wait && (r.stage == .issued || r.stage == .queued))
  let requests := left.map fun (r : BorrowReq) => if ids.contains r.wait then { r with withdrawn := true } else r
  let s := { s with own := { s.own with requests } }
  back.foldl State.dropWait s

/-- SUSPEND of an active context, by the host or for priority (R374). -/
def State.suspendContext (s : State) (ctx : Nat) (byPriority : Bool) : State :=
  (s.modContext ctx fun c => { c with state := .suspending, byPriority, suspendAt := s.clock.cyc, saveDone := 0 }).withdraw ctx

/-- Whether the instructions that an engine has issued have completed, far operations that wait for a page, spawns and sleepers
apart (R374). -/
def State.quiet (s : State) (eng : Nat) (e : Engine) : Bool :=
  let held := (Store.vals s.mem.mesh).filter fun q => match q.stage with
    | .held _ => true
    | _ => false
  let spawns := s.work.waits.filter fun w => match w.kind with
    | .spawn _ _ | .spawned _ _ _ _ => w.eng == eng
    | _ => false
  e.draining.isEmpty && e.sb.all (fun x => x.due.isNone &&
    (held.any (fun q => q.eng == eng && q.wait == x.tag) || spawns.any fun w => w.id == x.tag)) &&
    !(s.mem.mesh.any fun kq => kq.2.eng == eng && !held.contains kq.2) && !(s.host.remote.any fun r => r.eng == eng) &&
    !(s.xlat.pending.any fun p => p.eng == eng) && !(s.own.moving.any fun m => m.2.1 == eng) &&
    !(s.own.childReturns.any fun c => c.2.1 == eng) && !(s.own.requests.any fun r => r.who == .eng eng && !r.withdrawn) &&
    !(s.work.waits.any fun w => w.eng == eng && (match w.kind with
      | .tensorWrite _ _ => true
      | _ => false)) &&
    !(e.isSeq && (s.matrix e.place.clusterId).queue.any fun o => o.eng == eng)

/-- Whether every party of a context has stopped (R374). -/
def State.quiesced (s : State) (ctx : Nat) : Bool := (s.parties ctx).all fun kv => s.quiet kv.1 kv.2

/-- The bytes of a save, by cluster (R375). -/
def State.saveLoads (s : State) (ctx : Nat) : List (Nat × Nat) :=
  ((s.parties ctx).map fun kv =>
      (kv.2.place.clusterId, if kv.2.isSeq then 2101248 else 0xB000 + 800 * kv.2.width)) ++
    (s.blocksOf ctx).map fun kb => (kb.2.place.clusterId, 266240)

/-- The copy-engine slots of a save or a restore reserved, and the cycle after the last (R375, R378). -/
def State.reserveSaves (s : State) (ctx : Nat) : Nat × State :=
  (s.saveLoads ctx).foldl (fun (x : Nat × State) l =>
    let (slots, s) := x.2.reserveSlots l.1 (s.clock.cyc + 1) (slotCount l.2) 1
    (max x.1 (slots.getLastD s.clock.cyc + 1), s)) (s.clock.cyc + 1, s)

/-! ### The images of R371 to R373 -/

/-- Bytes whose layout the device keeps to itself: free values (R371). -/
def State.deviceBytes (s : State) (n : Nat) : List Byte × State :=
  (padTo n ((List.range ((n + 7) / 8)).flatMap fun k => leBytes 8 (Config.freeValue (s.freeCtr + k)).toNat)
    , { s with freeCtr := s.freeCtr + (n + 7) / 8 })

/-- The state of a lane in a save slot (R371). -/
def Lane.saveState (l : Lane) : Nat :=
  if l.stopped then 7
  else if l.held then 6
  else match l.status with
    | .noThread => 0
    | .ready => 1
    | .exited => 2
    | .parked => 3
    | .waiting => 4
    | .sleeping _ => 5

/-- The wake cycle of a lane asleep at `sleep.until` or `cpwait`. -/
def State.wakeCycle (s : State) (l : Lane) : Nat :=
  match l.status with
  | .sleeping id => match (s.waitOf id).map Wait.kind with
    | some (.until_ t) | some (.copies t) => t
    | _ => 0
  | _ => 0

/-- A lane record (R371). -/
def State.laneRecord (s : State) (l : Lane) : List Byte :=
  leBytes 8 l.pc.toNat ++ leBytes 8 l.restart.toNat ++ leBytes 1 l.saveState ++ leBytes 1 (l.preds.toNat / 2 * 2 + 1) ++
    leBytes 1 l.fx.toNat ++ leBytes 5 0 ++ leBytes 8 (s.wakeCycle l)

/-- An uncommitted beat in a save slot (R371). -/
def Beat.image (b : Beat) : List Byte :=
  let at_ := fun (i : Nat) => firstSome (fun (c : Host.Cell) => if c.1 % 128 = i then some c.2 else none) b.cells
  leBytes 8 b.addr ++ leBytes 16 ((List.range 128).foldl (fun m i => if (at_ i).isSome then m + 2 ^ i else m) 0) ++ leBytes 8 0 ++
    (List.range 128).map fun i => (at_ i).getD 0

/-- The images of an engine's sixteen region registers (R259). -/
def State.regionImages (s : State) (e : Engine) : List Byte := (List.range 16).flatMap fun h => (e.region h).image s.gangIndexOf

/-- The first part of a gang's save slot after its frame: KIND, the flags and the gang's registers up to the lane records (R371). -/
def State.gangHead (s : State) (e : Engine) : List Byte :=
  leBytes 2 0x13 ++ leBytes 2 ((if e.inHandler then 1 else 0) + (if e.haltPend then 2 else 0) + (if e.yieldFrom.isSome then 4 else 0)) ++
    leBytes 4 e.entries ++ leBytes 4 e.fpm.toNat ++ leBytes 4 e.tmode.toNat ++ leBytes 4 e.tvec.toNat ++
    leBytes 4 ((e.cycHi.map BitVec.toNat).getD 0) ++ leBytes 4 ((e.ptimeHi.map BitVec.toNat).getD 0) ++ leBytes 2 e.beats.length ++
    leBytes 34 0 ++ ((List.range 4).flatMap fun k => leBytes 8 (e.mask k).toNat) ++
    ((List.range 32).flatMap fun k => leBytes 4 (e.sreg k).toNat) ++ leBytes 224 0 ++ s.regionImages e

/-- A gang's save slot written (R371). -/
def State.saveGang (s : State) (e : Engine) : State :=
  let a := e.savep.toNat
  let lanes := (List.range 64).flatMap fun k => if k < e.width then s.laneRecord (e.lane k) else s.laneRecord { Lane.empty with preds := 0 }
  let window := (List.range e.width).flatMap fun k =>
    padTo 800 ((List.range (footprint e.nregs e.ndist)).flatMap fun w => leBytes 4 (e.windowWord k w).toNat)
  let head := s.gangHead e
  let (dev, s) := s.deviceBytes 1024
  let s := (s.writeVa e.ctx (a + 0x40) head).writeVa e.ctx (a + 0x400) lanes
  let s := (s.writeVa e.ctx (a + 0xC00) dev).writeVa e.ctx (a + 0x1000) (padTo 40960 (e.beats.flatMap Beat.image))
  s.writeVa e.ctx (a + 0xB000) window

/-- A stream's save slot written (R373). -/
def State.saveStream (s : State) (e : Engine) : State :=
  let a := e.savep.toNat
  let l := e.lane 0
  let cl := e.place.clusterId
  let m := s.matrix cl
  let w := fun (x : Store Word) (k : Nat) => leBytes 4 (Store.get 0 x k).toNat
  let regs := ((List.range 64).flatMap fun k => leBytes 4 (l.reg k).toNat) ++ leBytes 8 (l.preds.toNat / 2 * 2) ++ leBytes 8 l.pc.toNat
  let tail := leBytes 8 e.tvec.toNat ++ leBytes 8 0 ++ w e.staged 0 ++ w e.staged 1 ++ w e.tcb 0 ++ w e.tcb 1 ++
    ((List.range 8).flatMap fun t => leBytes 1 (Store.get 0 m.records t))
  let acc := s.readHomeBytes (accLoc cl 0) (2 ^ 21)
  let (dev, s) := s.deviceBytes 3072
  let s := (s.writeVa e.ctx (a + 0x40) regs).writeVa e.ctx (a + 0x150) tail
  let s := (s.writeVa e.ctx (a + 0x200) (s.regionImages e)).writeVa e.ctx (a + 0x400) dev
  s.writeVa e.ctx (a + 0x1000) acc

/-- The address of a block's save slot. -/
def State.blockSlot (s : State) (ctx key : Nat) : Nat :=
  let c := s.context ctx
  c.blockSlotAt ((c.blockSlots.findIdx? fun x => x == key + 1).getD 0)

/-- A block's save slot written (R372). -/
def State.saveBlock (s : State) (ctx key : Nat) (b : Block) : State :=
  let a := s.blockSlot ctx key
  let image := padTo 262144 (s.readHomeBytes (scratchLoc b.place.coreId b.scratchOff) b.scratchLen)
  let (dev, s) := s.deviceBytes 4096
  (s.writeVa ctx a dev).writeVa ctx (a + 0x1000) image

/-- Every save slot of a context written, with the matrix state of its streams' clusters set aside. -/
def State.saveParties (s : State) (ctx : Nat) : State :=
  let matrices := (s.parties ctx).filterMap fun kv => if kv.2.isSeq then some (kv.2.place.clusterId, s.matrix kv.2.place.clusterId) else none
  let s := s.modContext ctx fun c => { c with matrices }
  let s := (s.parties ctx).foldl (fun s kv => if kv.2.isSeq then s.saveStream kv.2 else s.saveGang kv.2) s
  (s.blocksOf ctx).foldl (fun s kb => s.saveBlock ctx kb.1 kb.2) s

/-- The first suspending context whose parties have stopped, or whose saves have completed. -/
def State.suspendDue (s : State) : Option (Nat × Context) :=
  List.find? (fun (kc : Nat × Context) => kc.2.state == .suspending &&
    (if kc.2.saveDone = 0 then s.quiesced kc.1 else decide (kc.2.saveDone ≤ s.clock.cyc))) s.ctxs.table

/-- SUSPEND_COMPLETE: once every party has stopped the save slots are written in the copy engines' slots; when every save has
completed, the parties' resources are free, the header's suspension cycle is written, and the context is SUSPENDED (R374, R375). -/
def execSuspendComplete (s : State) : Out :=
  match s.suspendDue with
  | none => .next s
  | some (ctx, c) =>
    if c.saveDone = 0 then
      let (t, s) := s.reserveSaves ctx
      .next ((s.saveParties ctx).modContext ctx fun c => { c with saveDone := t })
    else
      let s := s.writeVa ctx c.save (leBytes 8 s.clock.cyc)
      let s := s.modContext ctx fun c => { c with state := .suspended, saveDone := 0 }
      .next { s with launch := { s.launch with passPending := true } }

/-- SUSPEND: no effect on a context that is suspending or suspended (R368, R374). -/
def execSuspend (s : State) : Out :=
  contextCommand s 0x02 anyEntry [] fun _ ctx c =>
    match c.state with
    | .active => (s.suspendContext ctx false).answer 0 0
    | .suspending | .suspended => s.answer 0 0
    | _ => s.answer 3 0

/-! ## Suspension for priority (R377) -/

/-- The best running level of a context: the lowest PRIO over its bind records. -/
def State.runningLevel (s : State) (ctx : Nat) : Option Nat :=
  (Store.vals s.launch.binds).foldl (fun best r =>
    if ((s.launchOf r.launch).map Launch.ctx) = some ctx ∧ r.state ≠ 3 then
      some (match best with
        | none => r.prio
        | some b => min b r.prio)
    else best) none

/-- Whether a context has a resident block on a cluster. -/
def State.onCluster (s : State) (ctx cluster : Nat) : Bool := (s.blocksOf ctx).any fun kb => kb.2.place.clusterId == cluster

/-- The context that is suspended for a unit's reservation: the one whose best running level is worst, ties to the higher number. -/
def State.suspendFor (s : State) (l : Launch) (cluster : Nat) : Option Nat :=
  let can := s.ctxs.table.filterMap fun kc =>
    if kc.1 ≠ l.ctx ∧ kc.2.state = .active ∧ s.onCluster kc.1 cluster then (s.runningLevel kc.1).map fun p => (kc.1, p) else none
  (can.foldl (fun (best : Option (Nat × Nat)) x => match best with
    | none => some x
    | some b => if b.2 ≤ x.2 then some x else some b) none).bind fun x =>
      if max l.prio (s.context l.ctx).priomin < x.2 then some x.1 else none

/-- The context that Reten suspends for priority in this cycle. -/
def State.priorityDue (s : State) : Option Nat :=
  if s.launch.passPending || s.ctxs.table.any fun kc => kc.2.byPriority && kc.2.state == .suspending then none
  else firstSome (fun (l : Launch) => match l.reserved with
    | some cluster => if l.unplaced ∧ l.reservedAt + 2 ^ 20 ≤ s.clock.cyc then s.suspendFor l cluster else none
    | none => none) (Store.vals s.launch.launches)

/-- PRIORITY_SUSPEND (R377). -/
def execPrioritySuspend (s : State) : Out :=
  match s.priorityDue with
  | none => .next s
  | some ctx => .next (s.suspendContext ctx true)

/-! ## Resumption (R378) -/

/-- Whether a seat is free in a room. -/
def Room.free (r : Room) (x : Seat) (w f : Nat) : Bool :=
  !r.slots.contains x.slot && decide (w ≤ r.threads) &&
    (r.used x.groups).all fun u => decide (x.window + f ≤ u.1) || decide (u.1 + u.2 ≤ x.window)

/-- The seats of a core's saved gangs taken one after another in its room, if all of them are free. -/
def Room.takeSeats (r : Room) : List Engine → Option Room
  | [] => some r
  | e :: l =>
    let x : Seat := ⟨e.place.slot, e.place.groups, e.place.window⟩
    let f := footprint e.nregs e.ndist
    if r.free x e.width f then (r.hold x e.width f).takeSeats l else none

/-- Whether the scratchpad places of blocks are free in a room, and block slots for all of them. -/
def Room.takesBlocks (r : Room) (l : List Block) : Bool :=
  decide (l.length ≤ r.blocks) && l.all fun b =>
    b.scratchLen == 0 || r.scratch.all fun u => decide (b.scratchOff + b.scratchLen ≤ u.1) || decide (u.1 + u.2 ≤ b.scratchOff)

/-- Whether everything that a suspended context's parties left is free (R378). -/
def State.restorable (s : State) (ctx : Nat) : Bool :=
  let gangs := ((s.parties ctx).map Prod.snd).filter fun e => !e.isSeq
  let blocks := (s.blocksOf ctx).map Prod.snd
  let cores := (gangs.map (fun e => e.place.coreId) ++ blocks.map fun b => b.place.coreId).dedup
  cores.all (fun core =>
      let r := s.fullRoom core
      (r.takeSeats (gangs.filter fun e => e.place.coreId == core)).isSome &&
        r.takesBlocks (blocks.filter fun b => b.place.coreId == core)) &&
    (s.parties ctx).all fun kv => !kv.2.isSeq || s.seqFree kv.2.place.clusterId

/-- A restore begins: the context is RESUMING, and its parties hold their places again (R378). -/
def State.beginResume (s : State) (ctx : Nat) : State :=
  let (t, s) := s.reserveSaves ctx
  s.modContext ctx fun c => { c with state := .resuming, saveDone := t }

/-- RESUME: done where it has no effect, not now where a place that a party left is taken (R368, R378). -/
def execResume (s : State) : Out :=
  contextCommand s 0x03 anyEntry [] fun _ ctx c =>
    match c.state with
    | .active | .resuming => s.answer 0 0
    | .suspended => if s.restorable ctx then (s.beginResume ctx).answer 0 0 else s.answer 3 0
    | _ => s.answer 3 0

/-- The bytes that a save slot holds are brought back where other contexts may have written: the scratchpad parts of the blocks and
the accumulators of the streams' clusters (R372, R373). -/
def State.restoreStores (s : State) (ctx : Nat) : State :=
  let s := (s.blocksOf ctx).foldl (fun s kb =>
    match s.readVa ctx (s.blockSlot ctx kb.1 + 0x1000) kb.2.scratchLen with
    | some bs => s.perform (cellsAt (scratchLoc kb.2.place.coreId kb.2.scratchOff) bs)
    | none => s) s
  (s.parties ctx).foldl (fun s kv =>
    if kv.2.isSeq then
      let cl := kv.2.place.clusterId
      let s := match s.readVa ctx (kv.2.savep.toNat + 0x1000) (2 ^ 21) with
        | some bs => s.perform (cellsAt (accLoc cl 0) bs)
        | none => s
      s.setMatrix cl (Store.get .idle (s.context ctx).matrices cl)
    else s.writeVa ctx (kv.2.savep.toNat + 0x40) [0, 0]) s

/-- The records of a context's launches in the continuation pools, ARRIVE raised by some cycles (R376). -/
def State.raiseArrive (s : State) (ctx n : Nat) : State :=
  let mine := fun (r : PoolRecord) => ((s.launchOf r.launch).map Launch.ctx) == some ctx
  let up := fun (l : List PoolRecord) => l.map fun r => if mine r then { r with arrive := r.arrive + n } else r
  { s with work := { s.work with pools := s.work.pools.mapKV fun _ p =>
    { bins := p.bins.mapKV fun _ b => { b with records := up b.records }
      formed := p.formed.map fun f => { f with records := up f.records } } } }

/-- CONTEXT_RESTORE: every party stands as saved, without last-page registers; its records' ARRIVE is raised by the suspension, the
header's resumption cycle is written, and the context is ACTIVE (R376, R378, R397). -/
def State.finishResume (s : State) (ctx : Nat) (c : Context) : State :=
  let s := s.restoreStores ctx
  let clear := fun (e : Engine) => { e with lanes := e.lanes.mapKV fun _ l => { l with lastPage := none } }
  let engines := s.work.engines.mapKV fun _ e => if e.ctx = ctx then clear e else e
  let s := { s with work := { s.work with engines } }
  let s := (s.raiseArrive ctx (s.clock.cyc - c.suspendAt)).writeVa ctx (c.save + 8) (leBytes 8 s.clock.cyc)
  let s := s.modContext ctx fun c => { c with state := .active, byPriority := false, saveDone := 0, matrices := [] }
  let keys := (s.work.waits.filterMap fun w => match w.kind with
    | .hqTake k _ => some k
    | _ => none).dedup
  let s := keys.foldl (fun s k => s.serveTakers k s.work.waits.length) s
  { s with launch := { s.launch with passPending := true } }

/-- The first resuming context whose restores have completed. -/
def State.resumeDue (s : State) : Option (Nat × Context) :=
  List.find? (fun (kc : Nat × Context) => kc.2.state == .resuming && decide (kc.2.saveDone ≤ s.clock.cyc)) s.ctxs.table

/-- Whether a pass waits to run, or a restore to end. -/
def State.retenDue (s : State) : Bool := s.launch.passPending || s.resumeDue.isSome

/-- RETEN_PASS: restores that have completed end; a pass places units (R361), and then the contexts that Reten suspended for priority
resume if what their parties left is free (R378). -/
def execRetenPass (s : State) : Out :=
  match s.resumeDue with
  | some (ctx, c) => .next (s.finishResume ctx c)
  | none =>
    if s.launch.passPending then
      let s := s.placementPass
      .next (s.ctxs.table.foldl (fun s kc =>
        if kc.2.state = .suspended ∧ kc.2.byPriority ∧ s.restorable kc.1 then s.beginResume kc.1 else s) s)
    else .next s

/-! ## KILL (R381) -/

/-- A context's engine operations, copies, swap-ins, records and held accesses are gone (R305, R381). -/
def State.dropWork (s : State) (ctx : Nat) : State :=
  let mine := fun (eng : Nat) => ((s.engine eng).map Engine.ctx) == some ctx
  let launch := fun (id : Nat) => ((s.launchOf id).map Launch.ctx) == some ctx
  let s := (s.work.copies.filter fun c => mine c.eng && c.status.code == 1).foldl (fun s c =>
    let s := s.cancelCopy c
    if c.shadow then s.discardShadow c.dest.obj else s) s
  let s := (s.ctxs.swapIns.filter fun w => w.ctx == ctx).foldl (fun s w =>
    match (s.swapObject w).map SwapObject.obj with
    | some o => s.setEntry o { s.entry o with shadow := false, shadowFrames := [] }
    | none => s) s
  let matrix := s.work.matrix.mapKV fun _ m => { m with queue := m.queue.filter fun o => !mine o.eng }
  let pools := s.work.pools.mapKV fun _ p =>
    { bins := p.bins.filter fun kb => !launch kb.2.launch, formed := p.formed.filter fun f => !launch f.launch }
  let mailboxes := s.launch.mailboxes.mapKV fun _ (m : Mailbox) => if launch m.launch then { m with waiting := [] } else m
  { s with
    work := { s.work with matrix, pools }
    ctxs := { s.ctxs with swapIns := s.ctxs.swapIns.filter fun w => w.ctx != ctx }
    launch := { s.launch with mailboxes } }

/-- The accesses of other packages that the adapter holds for faults of a context are refused for good (R410). -/
def State.refuseHeld (s : State) (ctx : Nat) : State :=
  (s.xlat.inbound.filter fun x => x.ctx == ctx && x.seq.isSome).foldl (fun s x => (s.dropInbound x.id).refuseInbound x.acc) s

/-- KILL: the first steps of R381, in which every party stops and its work is dropped; the reclaim walk begins. -/
def State.killContext (s : State) (ctx : Nat) : State :=
  let s := s.modContext ctx fun c => { c with state := .killing }
  let s := (s.dropWork ctx).refuseHeld ctx
  let s := (s.parties ctx).foldl (fun s kv => s.stopEngine kv.1) s
  { s with own := { s.own with walks := s.own.walks ++ [{ for_ := .kill ctx, start := s.clock.cyc, next := 0, count := 0 }] } }

/-- KILL (R368, R381). -/
def execKill (s : State) : Out := contextCommand s 0x04 anyEntry [] fun _ ctx _ => (s.killContext ctx).answer 0 0

/-- The launches of a context retire with ERR, after bit 63 on their completion signals (R381). -/
def State.killLaunches (s : State) (ctx : Nat) : State :=
  let ls := (Store.vals s.launch.launches).filter fun l => l.ctx == ctx && !l.retired
  let s := ls.foldl (fun s l => s.errorSignal l.id) s
  let s := ls.foldl (fun s l => s.clearLaunch l) s
  let mine := ls.map Launch.id
  let s := { s with launch := { s.launch with
    mailboxes := s.launch.mailboxes.filter fun km => !mine.contains km.2.launch
    launches := s.launch.launches.filter fun kl => !(mine.contains kl.1 && kl.2.run) } }
  (ls.filter fun l => !l.run).foldl (fun s l =>
    (s.setLaunch l.id { l with retired := true, args := [], err := true }).retireSlot l.slot (completeStatus true)) s

/-- The entries of a context are FREE, with the lines of their objects in every L1 gone (R254, R381). -/
def State.freeEntries (s : State) (ctx : Nat) : State :=
  let gone := (s.own.entries.filter fun kx => kx.2.ctx == ctx && kx.2.kind != .free).map Prod.fst
  { s with
    own := { s.own with
      entries := s.own.entries.filter fun kx => !gone.contains kx.1
      leases := s.own.leases.filter fun kl => !gone.contains kl.1
      gauze := s.own.gauze.filter fun kg => !gone.contains kg.1 }
    mem := { s.mem with l1 := s.mem.l1.filter fun t => !gone.contains t.obj } }

/-- The last steps of R381: entries, launches, and the context's number. -/
def State.finishKill (s : State) (ctx : Nat) : State :=
  let s := (s.freeEntries ctx).killLaunches ctx
  { s with
    ctxs := { s.ctxs with table := s.ctxs.table.erase ctx }
    xlat := { s.xlat with reports := s.xlat.reports.filter fun r => r.ctx != ctx }
    launch := { s.launch with passPending := true } }

/-! ## The reclaim walk (R379, R380) -/

/-- Whether a stopped engine's orphans fall to a walk. -/
def State.walkTakes (s : State) (w : Walk) (e : Engine) : Bool :=
  e.ended && (match w.for_ with
    | .launch id => e.launch == id
    | .kill ctx | .owalk ctx _ _ => e.ctx == ctx) && (s.context e.ctx).state != .free

/-- Whether a launch falls to a walk. -/
def State.walkLaunch (s : State) (w : Walk) (id : Nat) : Bool :=
  match w.for_ with
  | .launch n => n == id
  | .kill ctx | .owalk ctx _ _ => (match s.launchOf id with
    | some l => l.ctx == ctx && (match w.for_ with
      | .owalk _ _ _ => s.broken l && s.partiesDone id
      | _ => true)
    | none => false)

/-- The group of 256 entries in which a region's orphan is met: the entry's, or for another package's object and for a shared borrow
through a proxy entry the proxies', which follow the entries. -/
def orphanGroup (die : Nat) (r : Region) : Nat :=
  if (objPkg r.base).isSome || (r.kind == .shared && objDie r.obj != die) then 256 else r.obj % 2 ^ 16 / 256

/-- The lines of an object's dirty bytes discarded in every L1 and L2 (R380). -/
def State.discardLines (s : State) (obj : Nat) : State :=
  let x := s.entry obj
  let gone := s.dirtyL2 x
  { s with mem := { s.mem with
    l1 := s.mem.l1.map fun t => if t.obj = obj then { t with lines := [], bytes := [] } else t
    l2 := s.mem.l2.mapKV fun l d => d && !gone.contains l } }

/-- An orphaned exclusive borrow: its dirty lines fall, VERSION advances, and the entry is IDLE with ABANDONED set (R380). -/
def State.orphanExclusive (s : State) (die : Nat) (r : Region) : State :=
  match objPkg r.base with
  | some k => s.sendReturn die k r.obj r.version
  | none =>
    let s := match s.proxyOf die none r.obj with
      | some p => s.setProxy { p with exclusive := false }
      | none => s
    let s := s.discardLines r.obj
    let x := s.entry r.obj
    s.setEntry r.obj { x with kind := .idle, version := nextVersion x.version, abandoned := true, writing := false }

/-- One orphaned region of an engine reclaimed. -/
def State.reclaimRegion (s : State) (eng h : Nat) (e : Engine) (r : Region) : State :=
  let s := s.modEngine eng fun e => e.setRegion h Region.empty
  if r.child || r.version == 0 then s
  else match r.kind with
    | .none => s
    | .shared => (if r.layer then s.dropLayer e.ctx r else s).releaseShared e.place.die r
    | .exclusive => s.orphanExclusive e.place.die r

/-- The orphans of one group of entries reclaimed: regions, offers, shadow claims and held operations (R380). -/
def State.reclaimGroup (s : State) (w : Walk) : State :=
  let s := (s.work.engines.filter fun kv => s.walkTakes w kv.2).foldl (fun s kv =>
    kv.2.regions.foldl (fun s hr =>
      if orphanGroup kv.2.place.die hr.2 = w.next then s.reclaimRegion kv.1 hr.1 kv.2 hr.2 else s) s) s
  let here := s.own.entries.filter fun kx => kx.1 % 2 ^ 16 / 256 == w.next
  here.foldl (fun s kx =>
    let s := if kx.2.kind = .offered ∧ s.walkLaunch w kx.2.xlaunch then s.setEntry kx.1 { s.entry kx.1 with kind := .idle } else s
    let s := if kx.2.shadow ∧ kx.2.shadowBy ≠ 0 ∧ s.walkLaunch w kx.2.shadowBy then s.discardShadow kx.1 else s
    if kx.2.detRed ∧ s.walkLaunch w kx.2.detLaunch then s.setEntry kx.1 { s.entry kx.1 with detRed := false, detLaunch := 0 } else s) s

/-- What follows a walk: the launch's orphans are reclaimed, or KILL goes on; records and held operations of stopped parties go with
it (R379 to R381). -/
def State.walkEnds (s : State) (w : Walk) : State :=
  let s := { s with
    own := { s.own with walks := s.own.walks.filter fun x => x != w }
    mem := { s.mem with held := s.mem.held.filter fun d => !s.walkLaunch w d.launch }
    work := { s.work with pools := s.work.pools.mapKV fun _ p =>
      { bins := p.bins.filter fun kb => !s.walkLaunch w kb.2.launch, formed := p.formed.filter fun f => !s.walkLaunch w f.launch } } }
  match w.for_ with
  | .launch id => s.modLaunch id fun l => { l with reclaimed := true }
  | .kill ctx => s.finishKill ctx
  | .owalk _ _ _ => s

/-- The launch whose parties have stopped and whose orphans no walk has reclaimed. -/
def State.orphansDue (s : State) : Option Launch :=
  (Store.vals s.launch.launches).find? fun l =>
    s.broken l && s.launchOver l && s.returnsDone l.id && !l.reclaimed && (s.context l.ctx).state != .killing &&
      !(s.own.walks.any fun w => w.for_ == .launch l.id)

/-- The groups of entries that a walk takes: those of the ownership tables, and in a reclaim the proxy entries' after them (R223,
R380). -/
def Walk.groups (w : Walk) : Nat := if w.for_.reclaims then 320 else 256

/-- The borrows that one entry holds (R252): its exclusive borrow, its shared ones and those of its retired version. -/
def OwnEntry.borrows (x : OwnEntry) : Nat :=
  (match x.kind with
  | .excl => 1
  | .shared => x.holders
  | _ => 0) + x.rholders

/-- The borrows that an `owalk` finds in its next group of entries (R223). -/
def State.borrowsFound (s : State) (w : Walk) : Nat :=
  match w.for_ with
  | .owalk ctx _ _ =>
    ((s.own.entries.filter fun kx => kx.1 % 2 ^ 16 / 256 == w.next && kx.2.ctx == ctx).map fun kx => kx.2.borrows).sum
  | _ => 0

/-- The first walk whose next group is due. -/
def State.walkDue (s : State) : Option Walk :=
  s.own.walks.find? fun w => decide (w.start + w.next < s.clock.cyc) && decide (w.next < w.groups)

/-- RECLAIM_WALK: a walk begins once every party of a launch has stopped; each cycle it takes 256 entries of every die, 320 cycles in
all with the proxy entries (R379, R380); the walk of an `owalk` counts as it goes (R223). -/
def execReclaimWalk (s : State) : Out :=
  match s.walkDue with
  | some w =>
    let w' := { w with next := w.next + 1, count := w.count + s.borrowsFound w }
    let s := if w.for_.reclaims then s.reclaimGroup w else s
    let s := { s with own := { s.own with walks := s.own.walks.map fun x => if x = w then w' else x } }
    .next (if w'.next = 320 then s.walkEnds w' else s)
  | none =>
    match s.orphansDue with
    | some l =>
      .next { s with own := { s.own with walks := s.own.walks ++
        [{ for_ := .launch l.id, start := s.clock.cyc, next := 0, count := 0 }] } }
    | none => .next s

end Sys2Proof.Machine
end

