-- ==== Sys2Proof/Machine/Maint.lean ====
section
/-! DEFINITION. The MAINT instructions and what they start: sweeps of translations, L2 write-back, reconfiguration of the interleave
domains, ownership walks, bias flips, live migration, L1 invalidation and the counters (R223, R401 to R409, R439, R460). -/

namespace Sys2Proof.Machine

/-- REFUSE with REASON 6 and status RANGE (R223). -/
def State.outOfRange (s : State) (i : Issue) (live : Dword) (addr : Nat) : Out := .next (s.refuse i live addr 6 7 0)

/-- The lanes of a MAINT instruction go to sleep until it completes (R223). -/
def State.maintSleep (f : Info) (s : State) (i : Issue) (live : Dword) (kind cycle a b dest : Nat) : Nat × State :=
  (s.commitIssue i).sleepFor f i.eng live i true (.maint kind cycle a b dest)

/-- A wait that ends, by its number. -/
def State.endWait (s : State) (id : Nat) : State :=
  match s.waitOf id with
  | some w => s.finishWait w fun l => l
  | none => s

/-- The first wait of one of a list of MAINT kinds that meets a test. -/
def State.maintWait (s : State) (kind : Nat) (p : Wait → Nat → Nat → Nat → Nat → Bool) : Option (Wait × Nat × Nat × Nat × Nat) :=
  firstSome (fun w => match w.kind with
    | .maint k t a b d => if k = kind ∧ p w t a b d = true then some (w, t, a, b, d) else none
    | _ => none) s.work.waits

/-- The context of an engine. -/
def State.ctxOf (s : State) (eng : Nat) : Nat := ((s.engine eng).map Engine.ctx).getD 0

/-! ## Sweeps (R401, R404) -/

/-- Whether an address is translated: it lies in space 0x0, 0x1 or 0x6, or in space 0x5 outside window 2 (R272). -/
def translated (addr : Nat) : Bool :=
  match spaceOf addr with
  | 0x0 | 0x1 | 0x6 => true
  | 0x5 => addr / 2 ^ 58 % 4 != 1
  | _ => false

/-- Whether a sweep removes the translation of an address of a context. -/
def Sweep.names (w : Sweep) (ctx addr : Nat) : Bool :=
  (w.ctx.isNone || w.ctx == some ctx) && translated addr &&
    (match w.page with
    | none => true
    | some (b, n) => decide (b ≤ addr % 2 ^ 57) && decide (addr % 2 ^ 57 < b + n))

/-- Whether a part of a request has not drained: a load that has not returned, or another operation that has not reached its
home (R401). -/
def MeshPart.undrained (p : MeshPart) : Bool :=
  match p.op with
  | .load _ _ _ => true
  | _ => !p.done

/-- Whether an access translated before a sweep has yet to drain (R401); a far operation that waits by R314 holds no translation. -/
def State.sweepPending (s : State) (w : Sweep) : Bool :=
  (Store.vals s.mem.mesh).any fun q =>
    decide (q.id < w.before) && (match q.stage with
      | .held _ => false
      | _ => true) &&
    q.parts.any fun p => p.undrained && w.names (s.reqCtx q) p.addr && (match w.for_ with
      | .ats _ _ => isHost p.loc
      | _ => true)

/-- An engine's region aborted for a sweep, without sleep: its stores translate again when they reissue (R401). -/
def State.sweepAbort (s : State) (eng : Nat) : State :=
  { s with agenda := s.agenda.filter fun i => i.eng != eng }.rewind eng

/-- Translations removed from every TLB, walk cache and last-page register of the package, and the regions aborted that hold
uncommitted beats under one (R397, R401). -/
def State.dropTranslations (s : State) (gone : PageEntry → Bool) (pointer : WalkEntry → Bool) (beat : Nat → Nat → Nat → Bool) :
    State :=
  let keep := fun (l : List PageEntry) => l.filter fun p => !gone p
  let hit := s.work.engines.filter fun kv => kv.2.beats.any fun b => b.cells.any fun c => beat kv.2.ctx b.addr c.1
  let engines := s.work.engines.mapKV fun _ e => { e with lanes := e.lanes.mapKV fun _ l => { l with lastPage := none } }
  let x := s.xlat
  let s := { s with
    work := { s.work with engines }
    xlat :=
      { x with
        core := x.core.mapKV fun _ l => keep l
        cluster := x.cluster.mapKV fun _ l => keep l
        die := x.die.mapKV fun _ l => keep l
        walks := x.walks.mapKV fun _ l => l.filter fun w => !pointer w } }
  (hit.map Prod.fst).foldl State.sweepAbort s

/-- A sweep that starts now: it reaches every core 100 cycles later (R401). -/
def State.startSweep (s : State) (ctx : Option Nat) (page : Option (Nat × Nat)) (for_ : SweepFor) : State :=
  let w : Sweep := { ctx, page, reach := s.clock.cyc + 100, before := s.nextId, for_ }
  let hits := fun (p : PageEntry) => (ctx.isNone || ctx == some p.ctx) && (match page with
    | none => true
    | some (b, n) => decide (p.vpage * p.size < b + n) && decide (b < (p.vpage + 1) * p.size))
  let ptr := fun (p : WalkEntry) => (ctx.isNone || ctx == some p.ctx) && (match page with
    | none => true
    | some (b, _) => p.prefix_ == b / levelSize (p.level + 1))
  let s := s.dropTranslations hits ptr fun c a _ => w.names c a
  { s with xlat := { s.xlat with sweeps := s.xlat.sweeps ++ [w] } }

/-- The page that holds an address, as the package's TLBs or the tables know it: its base and size. -/
def State.pageOf (s : State) (ctx va : Nat) : Nat × Nat :=
  let held := (Store.vals s.xlat.core).flatten ++ (Store.vals s.xlat.cluster).flatten ++ (Store.vals s.xlat.die).flatten
  let sizes := (held.filter fun p => p.covers ctx va).map PageEntry.size
  let size := (sizes ++ (match walk s.mem.cells va 4 (ptbOf s ctx) with
    | .leaf l => [l.size]
    | _ => [])).foldl max 4096
  (va / size * size, size)

/-- TLBI: a sweep of the page, of the context or of everything (R223). -/
def execTlbi (g : Guard) (b : Fin 64) (a : Fin 64) (s : State) : Out :=
  gang (infoTlbi g b a) s fun i e live =>
    let m := ((e.low live).reg b).toNat
    let addr := ((e.low live).pair a).toNat
    let ctx := bits m 25 16
    if m % 4 = 3 then s.outOfRange i live addr
    else
      let (id, s) := s.maintSleep (infoTlbi g b a) i live 0 0 0 0 0
      .next (match m % 4 with
        | 0 => s.startSweep (some ctx) (some (s.pageOf ctx (addr % 2 ^ 57))) (.tlbi id)
        | 1 => s.startSweep (some ctx) none (.tlbi id)
        | _ => s.startSweep none none (.tlbi id))

/-- The sweep that has reached every core and whose accesses have drained. -/
def State.sweepDue (s : State) : Option Sweep :=
  s.xlat.sweeps.find? fun w => decide (w.reach ≤ s.clock.cyc) && !s.sweepPending w

/-- SWEEP_COMPLETE: `tlbi` completes; `migr` completes and its background sweep begins; or the invalidation of the host is
answered (R401, R404, R408). -/
def execSweepComplete (s : State) : Out :=
  match s.sweepDue with
  | none => .next s
  | some w =>
    let s := { s with xlat := { s.xlat with sweeps := s.xlat.sweeps.filter fun x => x != w } }
    match w.for_ with
    | .tlbi id => .next (s.endWait id)
    | .migration id =>
      let swept := fun (m : Migration) => m.sweeping && w.ctx == some m.ctx && (w.page.map Prod.fst) == some m.va
      let migrations := s.xlat.migrations.map fun m => if swept m then { m with sweeping := false, nextTick := s.clock.cyc } else m
      .next ({ s with xlat := { s.xlat with migrations } }.endWait id)
    | .ats iova len => .next { s with host := { s.host with out := s.host.out ++ [.atsDone iova len] } }

/-! ## L2 write-back (R223) -/

/-- The dirty lines of L2: those of device memory and the host lines held M or O (R427). -/
def State.l2Dirty (s : State) : List Nat :=
  ((Store.keys (s.mem.l2.filter fun kv => kv.2)) ++
    ((Store.vals s.host.lines).flatten.filter fun p => p.2 == .m || p.2 == .o).map Prod.fst).dedup

/-- Those of a list of lines that a context's address range holds. -/
def State.rangeLines (s : State) (ctx base len : Nat) (lines : List Nat) : List Nat :=
  if lines.isEmpty then []
  else
    let pages := (List.range ((base % 4096 + len + 4095) / 4096)).filterMap fun k =>
      let va := base / 4096 * 4096 + 4096 * k
      (s.quietLoc ctx .load va).map fun l => (va, l / 4096)
    lines.filter fun l => pages.any fun p =>
      p.2 == l * 128 / 4096 && decide (base ≤ p.1 + l * 128 % 4096) && decide (p.1 + l * 128 % 4096 < base + len)

/-- A host line that is clean: M becomes E, O becomes S (R427). -/
def State.cleanHost (s : State) (line : Nat) : State :=
  (List.range 4).foldl (fun s d => match s.lineState d line with
    | .m => s.setLineState d line .e
    | .o => s.setLineState d line .s
    | _ => s) s

/-- Lines dropped from L2; a host line is held by no die any more. -/
def State.dropLines (s : State) (lines : List Nat) : State :=
  let s := { s with mem := { s.mem with l2 := s.mem.l2.filter fun kv => !lines.contains kv.1 } }
  (lines.filter fun l => isHost (l * 128)).foldl (fun s l => (List.range 4).foldl (fun s d => s.setLineState d l .i) s) s

/-- L2WB: the dirty L2 lines of the range reach DRAM or the CXL home, at once where none is dirty (R223). -/
def execL2wb (g : Guard) (b : Fin 64) (a : Fin 64) (d : Fin 64) (s : State) : Out :=
  gang (infoL2wb g b a d) s fun i e live =>
    let addr := ((e.low live).pair a).toNat
    let len := ((e.low live).reg b).toNat
    if addr % 128 ≠ 0 ∨ len % 128 ≠ 0 then s.outOfRange i live addr
    else
      let lines := s.rangeLines e.ctx addr len s.l2Dirty
      if lines.isEmpty then .next (s.commitDone i live)
      else .next (s.maintSleep (infoL2wb g b a d) i live 1 (s.clock.cyc + s.writeBackCycles e.l1 7 lines) addr len d).2

/-- The L2 write-back that completes. -/
def State.l2wbDue (s : State) : Option (Wait × Nat × Nat × Nat × Nat) := s.maintWait 1 fun _ t _ _ _ => decide (t ≤ s.clock.cyc)

/-- L2WB_COMPLETE: the dirty lines of the range stand in DRAM or at the CXL home; with k[0] = 1 they leave L2 (R223). -/
def execL2wbComplete (s : State) : Out :=
  match s.l2wbDue with
  | none => .next s
  | some (w, _, addr, len, k) =>
    let lines := s.rangeLines (s.ctxOf w.eng) addr len s.l2Dirty
    let s := lines.foldl State.cleanHost (s.writeThrough lines)
    .next ((if k = 1 then s.dropLines lines else s).endWait w.id)

/-! ## Reconfiguration of the interleave domains (R459, R460) -/

/-- The domain of every slice after a move of a die's slices. -/
def State.domainsAfter (s : State) (die mask dom : Nat) : Store Nat :=
  (List.range 16).foldl (fun m k => if mask.testBit k then Store.set 0 m (16 * die + k) dom else m) s.repair.domains

/-- Whether every domain of a die that has slices holds a number of them that R459 allows, and domain 0 holds some. -/
def domainsAllowed (m : Store Nat) (die : Nat) : Bool :=
  let count := fun (d : Nat) => ((List.range 16).filter fun k => Store.get 0 m (16 * die + k) == d).length
  count 0 != 0 && (List.range 4).all fun d => [0, 1, 2, 4, 8, 16].contains (count d)

/-- L2CFG: the slices of the mask move into the domain (R460); while a reconfiguration of the die runs, the instruction is not
ready. -/
def execL2cfg (g : Guard) (b : Fin 64) (a : Fin 64) (s : State) : Out :=
  gang (infoL2cfg g b a) s fun i e live =>
    let v := ((e.low live).reg a).toNat
    let die := ((e.low live).reg b).toNat
    let mask := v % 2 ^ 16
    let dom := bits v 19 16
    let domains := s.domainsAfter die mask dom
    if mask = 0 ∨ 3 < dom ∨ 3 < die ∨ domainsAllowed domains die = false then s.outOfRange i live 0
    else if s.repair.cfgs.any (fun c => c.die == die) then .next s
    else if domains = s.repair.domains then .next (s.commitDone i live)
    else
      let (id, s) := s.maintSleep (infoL2cfg g b a) i live 2 s.clock.cyc 0 0 0
      .next { s with repair := { s.repair with cfgs := s.repair.cfgs ++ [{ die, domains, due := none, wait := id }] } }

/-- Whether a location's home is moved by a reconfiguration (R460). -/
def State.movedBy (s : State) (c : L2Cfg) (loc : Nat) : Bool :=
  match s.movingTo loc with
  | some (d, _) => d.die == c.die
  | none => false

/-- Whether a line that a reconfiguration moves is pinned by a fetch unit (R297). -/
def State.pinnedBy (s : State) (c : L2Cfg) : Bool :=
  s.work.matrix.any fun kv => kv.2.queue.any fun o => !o.isDrain && o.hand.any fun h => s.movedBy c h.2

/-- The lines that stand in L2 and that a reconfiguration moves. -/
def State.movedLines (s : State) (c : L2Cfg) : List Nat := (Store.keys s.mem.l2).filter fun l => s.movedBy c (l * 128)

/-- The cycle of the switch when the walks begin in a cycle: 96 cycles of walk, and a line each cycle from every slice to DRAM
(R460). -/
def State.switchCycle (s : State) (c : L2Cfg) (begin_ : Nat) : Nat :=
  let dirty := (s.movedLines c).filter fun l => Store.get false s.mem.l2 l
  let per := (List.range 16).map fun k => (dirty.filter fun l => homeOf s c.die (l * 128) == 16 * c.die + k).length
  let n := per.foldl max 0
  if n = 0 then begin_ + 96 else max (begin_ + 96) (begin_ + n + dramCycles + 1)

/-- The cycle in which the lanes of a wait went to sleep at `l2cfg`. -/
def State.cfgIssued (s : State) (c : L2Cfg) : Nat :=
  ((s.waitOf c.wait).map fun w => match w.kind with
    | .maint _ t _ _ _ => t
    | _ => 0).getD 0

/-- The reconfiguration whose walks may begin, or whose switch is due. -/
def State.l2cfgDue (s : State) : Option L2Cfg :=
  s.repair.cfgs.find? fun c => match c.due with
    | none => decide (s.cfgIssued c < s.clock.cyc) && !s.pinnedBy c
    | some t => decide (t ≤ s.clock.cyc)

/-- L2CFG_SWITCH: no moving line being pinned, the walks begin; and at the switch every request port takes the new mask, the moving
lines stand in DRAM and in no slice, and held requests are answered REPLAY (R460). -/
def execL2cfgSwitch (s : State) : Out :=
  match s.l2cfgDue with
  | none => .next s
  | some c =>
    match c.due with
    | none =>
      let c' := { c with due := some (s.switchCycle c s.clock.cyc) }
      .next { s with repair := { s.repair with cfgs := s.repair.cfgs.map fun x => if x = c then c' else x } }
    | some _ =>
      let lines := s.movedLines c
      let s := lines.foldl State.cleanHost (s.writeThrough lines)
      let s := { s with
        mem := { s.mem with l2 := s.mem.l2.filter fun kv => !lines.contains kv.1 }
        repair := { s.repair with domains := c.domains, cfgs := s.repair.cfgs.filter fun x => x != c } }
      let held := (Store.vals s.mem.mesh).filter fun q => q.stage == .queued && s.strayed q
      .next ((held.foldl State.replay s).endWait c.wait)

/-! ## Ownership walks (R223, R379) -/

/-- OWALK: a walk that counts a context's borrows, and with k = 1 reclaims its orphans (R223). -/
def execOwalk (g : Guard) (b : Fin 64) (a : Fin 64) (d : Fin 64) (s : State) : Out :=
  gang (infoOwalk g b a d) s fun i e live =>
    let ctx := ((e.low live).reg a).toNat % 1024
    let (id, s) := s.maintSleep (infoOwalk g b a d) i live 3 s.clock.cyc ctx b d
    .next { s with own := { s.own with walks := s.own.walks ++
      [{ for_ := .owalk ctx id (b.val == 1), start := s.clock.cyc, next := 0, count := 0 }] } }

/-- The walk of an `owalk` that has walked every entry, with its wait. -/
def State.owalkDue (s : State) : Option (Walk × Wait) :=
  firstSome (fun (w : Walk) => match w.for_ with
    | .owalk _ id _ => if 256 ≤ w.next then (s.waitOf id).map fun x => (w, x) else none
    | _ => none) s.own.walks

/-- OWALK_COMPLETE: gD takes the number of borrows found (R223). -/
def execOwalkComplete (s : State) : Out :=
  match s.owalkDue with
  | none => .next s
  | some (w, x) =>
    let d := match x.kind with
      | .maint _ _ _ _ d => d
      | _ => 0
    let s := s.finishWait x fun l => l.setReg d (BitVec.ofNat 32 w.count)
    .next (if w.for_.reclaims then s else { s with own := { s.own with walks := s.own.walks.filter fun y => y != w } })

/-! ## Bias (R405, R406) -/

/-- The device leaf that holds an address of a context. -/
def State.deviceLeaf (s : State) (ctx va : Nat) : Option Leaf :=
  match walk s.mem.cells va 4 (ptbOf s ctx) with
  | .leaf l => if l.tgt = 0 then some { l with frame := l.frame % 2 ^ 40 } else none
  | _ => none

/-- The lines of a 4 KiB page that stand in L2. -/
def State.pageLines (s : State) (page : Nat) : List Nat := (Store.keys s.mem.l2).filter fun l => l * 128 / 4096 == page

/-- A flip that begins (R406). -/
def State.startFlip (s : State) (f : BiasFlip) : State :=
  let lines := List.range 64 |>.map (64 * f.page + ·)
  let n := ((s.pageLines f.page).filter fun l => Store.get false s.mem.l2 l).length
  let f' := if f.toHost then { f with due := s.clock.cyc + (if n = 0 then 0 else n - 1 + dramCycles) } else { f with pending := lines }
  let s := { s with xlat := { s.xlat with flips := s.xlat.flips.map fun x => if x = f then f' else x } }
  if f.toHost then s else { s with host := { s.host with out := s.host.out ++ lines.map fun n => .bisnp (64 * n) } }

/-- A flip that has completed: its lanes continue, or its command is answered. -/
def State.dropFlip (s : State) (f : BiasFlip) : State :=
  let s := { s with xlat := { s.xlat with flips := s.xlat.flips.erase f } }
  let s := match f.wait with
    | some id => s.endWait id
    | none => s
  if f.cmd.isSome then s.answer 0 0 else s

/-- The first flip of a page begins; one to the bias that the page has completes at once (R406). -/
def State.runFlips : Nat → Nat → State → State
  | 0, _, s => s
  | n + 1, page, s =>
    match s.flipOf page with
    | none => s
    | some f => if s.xlat.hostBias.contains page = f.toHost then State.runFlips n page (s.dropFlip f) else s.startFlip f

/-- A flip that arrives, behind those of its page (R406). -/
def State.addFlip (s : State) (page : Nat) (toHost : Bool) (wait cmd : Option Nat) : State :=
  let first := (s.flipOf page).isNone
  let f : BiasFlip := { page, toHost, due := 0, pending := [], wait, cmd }
  let s := { s with xlat := { s.xlat with flips := s.xlat.flips ++ [f] } }
  if first then State.runFlips s.xlat.flips.length page s else s

/-- BIAS: the page that holds the address flips (R406); the launch window's pages and addresses without a device leaf are refused
(R405). -/
def execBias (g : Guard) (b : Fin 64) (a : Fin 64) (s : State) : Out :=
  gang (infoBias g b a) s fun i e live =>
    let addr := ((e.low live).pair a).toNat
    match s.deviceLeaf e.ctx (addr % 2 ^ 57) with
    | none => s.outOfRange i live addr
    | some l =>
      let page := (l.frame + addr % l.size) / 4096
      if page < 512 then s.outOfRange i live addr
      else if (s.flipOf page).isNone ∧ s.xlat.hostBias.contains page = (b.val == 0) then .next (s.commitDone i live)
      else
        let (id, s) := s.maintSleep (infoBias g b a) i live 4 0 page b 0
        .next (s.addFlip page (b.val == 0) (some id) none)

/-- The BIAS command of the host (R406, R469). -/
def State.biasCommand (s : State) (b : List Byte) (toHost : Bool) : State :=
  let pa := entryField b 8 8
  if pa % 4096 ≠ 0 ∨ 2 ^ 40 ≤ pa ∨ pa < 2 ^ 21 then s.answer 1 0
  else s.addFlip (pa / 4096) toHost none (some s.host.cmdHead)

/-- BIAS_HOST: the host flips a page to host bias; a direction beyond the two is refused here (R406, R469). -/
def execBiasHost (s : State) : Out :=
  command s 0x06 (fun b => entryField b 16 1 != 1) false [(8, 9)] fun b =>
    if entryField b 16 1 = 0 then s.biasCommand b true else s.answer 1 0

/-- BIAS_DEVICE: the host flips a page to device bias (R406, R469). -/
def execBiasDevice (s : State) : Out :=
  command s 0x06 (fun b => entryField b 16 1 == 1) false [(8, 9)] fun b => s.biasCommand b false

/-- The flip that completes: its dirty lines are written, or its 64 responses have come. -/
def State.flipDue (s : State) : Option BiasFlip :=
  s.xlat.flips.find? fun f => s.flipOf f.page == some f && (if f.toHost then decide (f.due ≤ s.clock.cyc) else f.pending.isEmpty)

/-- The held writes of lines that meet a test, performed again as far as they can be. -/
def State.retryWrites (s : State) (p : Nat → Bool) : State :=
  let go := s.xlat.snoopWrites.filter fun w => p w.1
  go.foldl (fun s w => s.performL2 w.2) { s with xlat := { s.xlat with snoopWrites := s.xlat.snoopWrites.filter fun w => !p w.1 } }

/-- BIAS_FLIP_COMPLETE: the page's lines leave L2 and its bias becomes host; or its bias becomes device. What waited for the flip goes
on (R406). -/
def execBiasFlipComplete (s : State) : Out :=
  match s.flipDue with
  | none => .next s
  | some f =>
    let s := if f.toHost then s.dropLines (s.pageLines f.page) else s
    let x := s.xlat
    let s := { s with xlat :=
      { x with
        hostBias := if f.toHost then x.hostBias ++ [f.page] else x.hostBias.filter fun p => p != f.page
        snooped := x.snooped.filter fun n => n / 64 != f.page } }
    let s := State.runFlips s.xlat.flips.length f.page (s.dropFlip f)
    .next ((s.retryWrites fun l => l * 128 / 4096 == f.page).wakeXlats)

/-- Host data written back into its home slice (R406); the merged line is dirty there. -/
def State.mergeHostData (s : State) (pa : Nat) : Option (List Byte) → State
  | some bs => s.perform (cellsAt pa (bs.take 64))
  | none => s

/-- BISNP_RESPONSE: the host answers a back-invalidation: its data merges, and the accesses or the flip that waited go on (R405,
R406). -/
def execBisnpResponse (pa : Nat) (data : Option (List Byte)) (s : State) : Out :=
  let n := pa / 64
  let s := s.mergeHostData (64 * n) data
  if s.xlat.snoops.contains n then
    let s := { s with xlat := { s.xlat with snoops := s.xlat.snoops.erase n, snooped := s.xlat.snooped ++ [n] } }
    .next ((if s.snoopDone (n / 2) then s.retryWrites fun l => l == n / 2 else s).wakeXlats)
  else
    let hit := fun (f : BiasFlip) => !f.toHost && s.flipOf f.page == some f
    .next { s with xlat := { s.xlat with flips := s.xlat.flips.map fun f => if hit f then { f with pending := f.pending.erase n } else f } }

/-! ## Live migration (R407 to R409) -/

/-- Whether a `migr` is refused (R407). -/
def State.migrRefused (s : State) (ctx va new : Nat) : Bool :=
  match s.deviceLeaf ctx va with
  | none => true
  | some l =>
    decide (2 ^ 21 < l.size) || new % l.size != 0
      || (List.range (l.size / 4096)).any (fun k => s.xlat.hostBias.contains (l.frame / 4096 + k))
      || s.xlat.migrations.any fun m => m.new == l.frame || (m.ctx == ctx && m.va == va / l.size * l.size)

/-- The cells of the entries that map a page, with its new frame (R391, R392, R408). -/
def leafCells (m : Memory) (table va : Nat) (l : Leaf) (new : Nat) : List Host.Cell :=
  let one := levelSize l.level
  let run := decide (one < l.size)
  let idx := levelIndex va l.level
  let first := if run then idx / 16 * 16 else idx
  (List.range (if run then 16 else 1)).flatMap fun i =>
    let a := table + 8 * (first + i)
    cellsAt a (leBytes 8 (setBits (ptWord m a) 53 12 ((new + i * one) / 4096)))

/-- A location of the old frame, in the new one. -/
def Migration.moved (m : Migration) (loc : Nat) : Nat :=
  if m.old ≤ loc ∧ loc < m.old + m.size then m.new + (loc - m.old) else loc

/-- A map's keys moved. -/
def moveKeys {α : Type} (f : Nat → Nat) (m : Store α) : Store α := m.foldl (fun r kv => Store.put r (f kv.1) kv.2) []

/-- What names the page by its old frame, named by the new one: L1 lines, which are tagged by virtual address (R409), requests on their
way, waiters, held operations, retired frames and draining stores. -/
def State.renameFrame (s : State) (m : Migration) : State :=
  let f := m.moved
  let line := fun (l : Nat) => f (l * 128) / 128
  let engines := s.work.engines.mapKV fun _ e => { e with
    beats := e.beats.map fun b => { b with cells := moveKeys f b.cells }
    draining := e.draining.map fun b => { b with cells := moveKeys f b.cells } }
  { s with
    work := { s.work with engines }
    mem :=
      { s.mem with
        l1 := s.mem.l1.map fun t => { t with lines := t.lines.map line, bytes := moveKeys f t.bytes }
        icache := s.mem.icache.map fun p => (p.1, line p.2)
        icachePending := s.mem.icachePending.map fun p => (p.1, line p.2.1, p.2.2)
        mesh := s.mem.mesh.mapKV fun _ q => { q with parts := q.parts.map fun p => { p with loc := f p.loc } }
        waiters := s.mem.waiters.map fun w => { w with loc := f w.loc }
        held := s.mem.held.map fun d => { d with loc := f d.loc } }
    own := { s.own with entries := s.own.entries.mapKV fun _ x => { x with retiredFrames := moveKeys f x.retiredFrames } } }

/-- Steps 1 and 2 of R408: valid bits clear, the leaf written with the new frame, and the page's sweep started. -/
def State.startMigration (s : State) (ctx va new wait : Nat) : State :=
  match s.deviceLeaf ctx va, (walkTables s.mem.cells va 4 (ptbOf s ctx)).getLast? with
  | some l, some (_, table) =>
    let m : Migration :=
      { ctx, va := va / l.size * l.size, old := l.frame, new, size := l.size, valid := [], written := [], pulling := [], cursor := 0
        nextTick := 0, sweeping := true }
    let s := s.perform (leafCells s.mem.cells table va l new)
    let inNew := fun (line : Nat) => m.holds (line * 128)
    let s := { s with mem :=
      { s.mem with
        l2 := s.mem.l2.filter fun kv => !inNew kv.1
        poison := s.mem.poison.filter fun l => !inNew l } }
    let s := s.renameFrame m
    let s := { s with xlat :=
      { s.xlat with
        migrations := s.xlat.migrations ++ [m]
        hostBias := s.xlat.hostBias.filter fun p => !m.holds (p * 4096) } }
    s.startSweep (some ctx) (some (m.va, m.size)) (.migration wait)
  | _, _ => s

/-- Whether the die of a frame runs 64 migrations (R407). -/
def State.migrationsFull (s : State) (new : Nat) : Bool :=
  decide (64 ≤ (s.xlat.migrations.filter fun m => m.new / 2 ^ 38 == new / 2 ^ 38).length)

/-- MIGR: the live migration of the page that holds A to the frame F; the lanes sleep until a migration is free, and then until the
page's sweep is complete (R407, R408). -/
def execMigr (g : Guard) (b : Fin 64) (a : Fin 64) (s : State) : Out :=
  gang (infoMigr g b a) s fun i e live =>
    let addr := ((e.low live).pair a).toNat
    let new := ((e.low live).pair b).toNat % 2 ^ 40
    if s.migrRefused e.ctx (addr % 2 ^ 57) new then s.outOfRange i live addr
    else if s.migrationsFull new then .next (s.maintSleep (infoMigr g b a) i live 7 0 addr new 0).2
    else
      let (id, s) := s.maintSleep (infoMigr g b a) i live 5 0 addr new 0
      .next (s.startMigration e.ctx (addr % 2 ^ 57) new id)

/-- The first waiting `migr` for whose frame's die a migration is free starts, or is refused now (R407). -/
def State.startWaitingMigr (s : State) : State :=
  match s.maintWait 7 fun _ _ _ new _ => !s.migrationsFull new with
  | none => s
  | some (w, _, addr, new, _) =>
    let ctx := s.ctxOf w.eng
    if s.migrRefused ctx (addr % 2 ^ 57) new then
      (s.dropWait w).refuse { eng := w.eng, pc := w.pc, lanes := w.lanes, away := 0, insn := w.insn, len := w.len } w.lanes addr 6 7 0
    else s.startMigration ctx (addr % 2 ^ 57) new w.id

/-- The migration whose background sweep takes its next line. -/
def State.tickDue (s : State) : Option Migration :=
  s.xlat.migrations.find? fun m => !m.sweeping && decide (m.cursor < m.size / 128) && decide (m.nextTick ≤ s.clock.cyc)

/-- MIGRATION_SWEEP_TICK: the background sweep pulls its next line, or passes over it (R408). -/
def execMigrationSweepTick (s : State) : Out :=
  match s.tickDue with
  | none => .next s
  | some m =>
    let s := s.startPull (m.new + 128 * m.cursor)
    .next { s with xlat := { s.xlat with migrations := s.xlat.migrations.map fun x =>
      if x.new = m.new then { x with cursor := x.cursor + 1, nextTick := x.nextTick + 16 } else x } }

/-- A pull that completes, with its migration and its line. -/
def State.pullDue (s : State) : Option (Migration × Nat) :=
  firstSome (fun (m : Migration) => (m.pulling.find? fun p => decide (p.2 ≤ s.clock.cyc)).map fun p => (m, p.1)) s.xlat.migrations

/-- A line pulled: its unwritten bytes come from the old frame, a poisoned line as poisoned, and its bit is set (R408, R409). -/
def State.pullLine (s : State) (m : Migration) (k : Nat) : State :=
  let at_ := m.new + 128 * k
  let cells := (List.range 128).foldl (fun mem i =>
    if m.written.contains (at_ + i) then mem else Memory.write mem (at_ + i) (s.mem.cells.read (m.old + 128 * k + i))) s.mem.cells
  let sick := s.mem.poison.contains (lineOf (m.old + 128 * k))
  let m' :=
    { m with
      valid := m.valid ++ [k], pulling := m.pulling.filter fun p => p.1 != k
      written := m.written.filter fun l => lineOf l != lineOf at_ }
  { s with
    mem :=
      { s.mem with
        cells
        l2 := s.mem.l2.put (lineOf at_) true
        poison := if sick then (s.mem.poison ++ [lineOf at_]).dedup else s.mem.poison }
    xlat := { s.xlat with migrations := s.xlat.migrations.map fun x => if x = m then m' else x } }

/-- The migration of which every bit is set. -/
def State.migrated (s : State) : Option Migration :=
  s.xlat.migrations.find? fun m => !m.sweeping && (List.range (m.size / 128)).all m.valid.contains

/-- MIGRATION_PULL_COMPLETE: a pulled line stands in its new home; with the last bit MIGDONE is sent, and a waiting `migr` may start
(R407, R408). -/
def execMigrationPullComplete (s : State) : Out :=
  let s := match s.pullDue with
    | some (m, k) => s.pullLine m k
    | none => s
  match s.migrated with
  | none => .next s
  | some m =>
    let s := { s with xlat := { s.xlat with migrations := s.xlat.migrations.filter fun x => x != m } }
    .next ((s.notify (padTo 32 (Config.notice 1 m.va m.new))).startWaitingMigr)

/-! ## L1 invalidation (R223) -/

/-- The tags of a context's objects in one L1, or in every one. -/
def State.tagsOf (s : State) (ctx l1 k : Nat) : List L1Tag :=
  s.mem.l1.filter fun t => (k == 1 || t.core == l1) && (s.entry t.obj).ctx == ctx

/-- Host lines among tags' dirty lines that their die may not yet write. -/
def State.tagsMissing (s : State) (tags : List L1Tag) : List Nat :=
  tags.flatMap fun t => (s.dirtyLines t.core t.obj t.version).filter fun l =>
    isHost (l * 128) && s.hostReachable (l * 128) && !s.lineOwned l

/-- L1 lines written back to L2 and dropped. -/
def State.dropTags (s : State) (tags : List L1Tag) : State :=
  let s := tags.foldl (fun s t => s.flushObject t.core t.obj t.version) s
  { s with mem := { s.mem with l1 := s.mem.l1.filter fun u =>
    !(tags.any fun t => t.core == u.core && t.obj == u.obj && t.version == u.version) } }

/-- INVL1: a context's lines in this core's L1, or in every core's, are written back and dropped; at once where none is dirty
(R223). -/
def execInvl1 (g : Guard) (b : Fin 64) (a : Fin 64) (s : State) : Out :=
  gang (infoInvl1 g b a) s fun i e live =>
    let ctx := ((e.low live).reg a).toNat % 1024
    let s' := s.commitIssue i
    let tags := s'.tagsOf ctx e.l1 b
    let cost := (tags.map fun t =>
      let ls := s'.dirtyLines t.core t.obj t.version
      if ls.isEmpty then 0 else s'.writeBackCycles t.core 6 ls).foldl max 0
    if cost = 0 then .next ((s.commitDone i live).dropTags tags)
    else .next (s.maintSleep (infoInvl1 g b a) i live 6 (s.clock.cyc + cost) ctx b e.l1).2

/-- The L1 invalidation that completes, or that asks for host lines. -/
def State.invl1Due (s : State) : Option (Wait × Nat × Nat × Nat × Nat) :=
  s.maintWait 6 fun _ t ctx k l1 =>
    let m := s.tagsMissing (s.tagsOf ctx l1 k)
    decide (t ≤ s.clock.cyc) && (m.isEmpty || m.any fun l => !s.lineAsked l)

/-- INVL1_COMPLETE: the lines stand in L2 and leave L1; host lines are asked for first (R223, R427). -/
def execInvl1Complete (s : State) : Out :=
  match s.invl1Due with
  | none => .next s
  | some (w, _, ctx, k, l1) =>
    let tags := s.tagsOf ctx l1 k
    let m := s.tagsMissing tags
    if m.isEmpty then .next ((s.dropTags tags).endWait w.id) else .next (m.foldl (fun s l => s.requestLine l true) s)

/-! ## Counters (R439)

The store of the counters keeps, for each core, the events counted since cold reset (keys 0 to 13), the counters 8 to 31 since cold
reset (keys 40 to 63), and what each counter stood at when it last restarted (keys 64 to 95). -/

/-- A number that a core has counted since cold reset. -/
def State.counted (s : State) (core k : Nat) : Nat := Store.get 0 s.repair.counters (core * 128 + k)

/-- An event's count since cold reset (R439). -/
def State.eventCount (s : State) (core ev : Nat) : Nat :=
  match ev with
  | 0 => s.clock.cyc
  | 13 => s.clock.wall
  | _ => s.counted core ev

/-- A counter since cold reset, as it is now programmed; E = 0 holds in the cycles that counters 9 to 15 did not take (R439). -/
def State.counterTotal (s : State) (core k : Nat) : Nat :=
  if k < 8 then s.eventCount core (Store.get 0 s.repair.programs (core * 8 + k))
  else if k = 8 then s.clock.cyc - ((List.range 7).map fun j => s.counted core (41 + j)).sum
  else s.counted core (32 + k)

/-- The value of a counter. -/
def State.counterValue (s : State) (core k : Nat) : Nat := (s.counterTotal core k - s.counted core (64 + k)) % 2 ^ 64

/-- A counter restarted from 0, a programmable one with a new event (R439). -/
def State.restartCounter (s : State) (core k ev : Nat) : State :=
  let s := if k < 8 then
      { s with repair := { s.repair with programs := Store.set 0 s.repair.programs (core * 8 + k) ev } } else s
  let total := s.counterTotal core k
  { s with repair := { s.repair with counters := Store.set 0 s.repair.counters (core * 128 + 64 + k) total } }

/-- PCNT: the counter to the pair, and with gS[31] = 1 a restart (R223, R439). -/
def execPcnt (g : Guard) (b : Fin 64) (a : Fin 64) (d : Fin 64) (s : State) : Out :=
  gang (infoPcnt g b a d) s fun i e live =>
    let sel := ((e.low live).reg a).toNat
    let ev := ((e.low live).reg b).toNat
    let k := sel % 256
    if 31 < k ∨ (bit sel 31 ∧ k < 8 ∧ 13 < ev) then s.outOfRange i live 0
    else
      let v : Dword := BitVec.ofNat 64 (s.counterValue e.place.coreId k)
      let s := (s.commitBook (infoPcnt g b a d) i live).modEngine i.eng fun e => e.mapLanes live fun _ l => l.setPair d v
      .next (if bit sel 31 then s.restartCounter e.place.coreId k ev else s)

end Sys2Proof.Machine
end

