-- ==== Sys2Proof/Machine/Counters.lean ====
section
/-! DEFINITION. What the counters of a core count: events, ready gangs and the reasons for which gangs do not issue (R439, R440). -/

namespace Sys2Proof.Machine

/-- A number of a core's counter store raised. -/
def State.addCount (s : State) (core k n : Nat) : State :=
  if n = 0 then s
  else { s with repair := { s.repair with counters := Store.set 0 s.repair.counters (core * 128 + k) (s.counted core k + n) } }

/-! ## Instructions (R439) -/

/-- Whether a word has one of some majors. -/
def majorOf (w : Word) (l : List Nat) : Bool := w.getLsbD 0 && l.contains (w.toNat / 2 % 64)

/-- The lanes in which an issue's guard holds. -/
def State.issueLanes (s : State) (e : Engine) (i : Issue) : Dword :=
  match s.decoded.find? i.insn.toNat with
  | some (some (_, f)) => e.guarded f.guard i.lanes
  | _ => i.lanes

/-- Whether an instruction found a full queue and did not issue: its lanes stand where they stood and no trap was raised; a branch
may lead to itself. -/
def State.stalled (before after : State) (e : Engine) (i : Issue) : Bool :=
  !majorOf i.insn [0x36, 0x37, 0x38] && after.work.traps.length == before.work.traps.length &&
    (match after.engine i.eng with
    | none => false
    | some e' => (e.lanesOf i.lanes).all fun kl => (e'.lane kl.1).pc == kl.2.pc && (e'.lane kl.1).status == kl.2.status)

/-- Lines that a core's L1 holds. -/
def State.l1Lines (s : State) (core : Nat) : Nat := ((s.mem.l1.filter fun t => t.core == core).map fun t => t.lines.length).sum

/-- Requests of an engine that are on their way to a home, of all kinds and far operations alone. -/
def State.sentBy (s : State) (eng : Nat) : Nat := ((Store.vals s.mem.mesh).filter fun q => q.eng == eng).length
def MeshOp.isFarOp : MeshOp → Bool
  | .far _ _ _ _ _ | .faro _ _ _ _ _ => true
  | _ => false
def State.farsBy (s : State) (eng : Nat) : Nat :=
  ((Store.vals s.mem.mesh).filter fun q => q.eng == eng && q.parts.any fun p => p.op.isFarOp).length +
    (s.host.remote.filter fun r => r.eng == eng && r.kind == 1).length

/-- The counts of an instruction that has issued, from the states before and after it (R439). -/
def State.countIssue (before after : State) (i : Issue) : State :=
  match before.engine i.eng with
  | none => after
  | some e =>
    if e.isSeq then after
    else
      let core := e.place.coreId
      if before.stalled after e i then after.addCount core 56 1
      else
        let live := maskCount (before.issueLanes e i) 64
        let lines := after.l1Lines core - before.l1Lines core
        let borrows := (after.own.requests.filter fun r => r.who == .eng i.eng).length -
          (before.own.requests.filter fun r => r.who == .eng i.eng).length
        let misses := (after.xlat.pending.filter fun p => p.eng == i.eng).length - (before.xlat.pending.filter fun p => p.eng == i.eng).length
        [(1, 1), (3, live), (4, lines), (5, lines + (after.sentBy i.eng - before.sentBy i.eng)), (6, borrows),
          (9, after.farsBy i.eng - before.farsBy i.eng), (10, if majorOf i.insn [0x32, 0x33, 0x34, 0x35] then 1 else 0),
          (11, if majorOf i.insn [0x1B] then live else 0), (12, misses)].foldl (fun s x => s.addCount core x.1 x.2) after

/-- The counts of an event: try forms answered BUSY and region aborts (R439). -/
def State.countEvent (before after : State) : State :=
  let busy := before.own.requests.filter fun r => r.try_ && (match r.stage with
      | .answered _ n => n == 1
      | _ => false) && !(after.own.requests.any fun q => q.id == r.id)
  let s := busy.foldl (fun s r => match r.who with
    | .eng id => match before.engine id with
      | some e => if e.isSeq then s else s.addCount e.place.coreId 7 1
      | none => s
    | .package _ _ _ => s) after
  let aborts := after.work.waits.filter fun w => (match w.kind with
      | .page _ _ _ => true
      | _ => false) && !(before.work.waits.any fun x => x.id == w.id)
  aborts.foldl (fun s w => match before.engine w.eng with
    | some e => if e.isSeq then s else s.addCount e.place.coreId 8 1
    | none => s) s

/-! ## Cycles (R439, R440) -/

/-- The counter of E gangs with a ready selected instruction; E = 0 is found from the others. -/
def readyCounter (n : Nat) : Option Nat :=
  if n = 0 then none
  else if n ≤ 3 then some (8 + n)
  else if n ≤ 7 then some 12
  else if n ≤ 15 then some 13
  else if n ≤ 63 then some 14
  else some 15

/-- The counter of a sleeping lane's wait: an answer of a borrow or `lbrw`, or anything else. -/
def sleepCounter (k : WaitKind) : Nat :=
  match k with
  | .borrow _ | .layer _ _ _ => 20
  | _ => 18

/-- The counters of the waits of an engine's sleeping lanes. -/
def State.sleepCounters (s : State) (e : Engine) : List Nat :=
  e.lanes.filterMap fun kl => match kl.2.status with
    | .sleeping id => (s.waitOf id).map fun w => sleepCounter w.kind
    | _ => none

/-- Whether a far operation of an engine waits for its page (R314). -/
def State.farHeld (s : State) (eng : Nat) : Bool := s.mem.mesh.any fun kq => kq.2.eng == eng && (match kq.2.stage with
  | .held _ => true
  | _ => false)

/-- Whether what blocks an instruction is the result of a load or a far operation. -/
def State.memResult (s : State) (eng : Nat) (e : Engine) (f : Info) (more : List SbKey) (pc : Word) (live : Dword) : Bool :=
  (e.sb.filter fun x => x.blocks f more live && !(e.open_.any fun o => o.pc == pc && o.tag == x.tag && x.due.isNone)).any fun x =>
    x.tag != 0 && (s.mem.mesh.any (fun kq => kq.2.eng == eng && kq.2.wait == x.tag) || (s.mem.mesh.find? x.tag).isSome
      || (s.xlat.pending.any fun p => p.id == x.tag) || s.host.remote.any fun r => r.eng == eng && r.wait == x.tag)

/-- The reason of one selected program counter. -/
def State.pcReason (s : State) (eng : Nat) (e : Engine) (g : Word × Dword) : Nat :=
  match s.fetch e g.1 with
  | .words bs => match s.decoded.find? (leValue bs) with
    | some (some (x, f)) =>
      let live := e.guarded f.guard g.2
      let more := e.childKeys live x
      if !f.legal e.isSeq e.regCount then 25
      else if e.blocked f more g.1 live then (if s.memResult eng e f more g.1 live then 22 else 23)
      else if !s.queuesAccept eng e g.1 live x || ((s.unitsOf e.place.coreId 0).enter s.clock.cyc (f.unit e.width live)).isNone then 24
      else if s.lentBlocks eng e f then 26
      else 25
    | _ => 25
  | _ => 21

/-- The counter that a gang which issues nothing is charged to: the first reason of R440 that applies. -/
def State.reason (s : State) (eng : Nat) (e : Engine) : Nat :=
  let live := e.lanes.filter fun kl => kl.2.live
  let sleeps := s.sleepCounters e
  if live.all fun kl => kl.2.stopped then 16
  else if s.trapQueued eng || live.any fun kl => kl.2.held then 17
  else if sleeps.contains 18 then 18
  else if live.any fun kl => kl.2.status == .waiting then 19
  else if sleeps.contains 20 || s.farHeld eng then 20
  else if e.yieldFrom.isSome then 27
  else (e.selected.map (s.pcReason eng e)).foldl min 27

/-- The charges of a work cycle: the gangs that issue are those of `l` (R439, R440). -/
def State.charge (before after : State) (l : List Issue) : State :=
  let gangs := before.work.engines.filter fun kv => !kv.2.isSeq && !kv.2.ended && (before.context kv.2.ctx).state == .active &&
    kv.2.lanes.any fun kl => kl.2.live
  let cores := (gangs.map fun kv => kv.2.place.coreId).dedup
  let ready := gangs.filter fun kv => before.mayIssue kv.1 kv.2 &&
    !(before.issuesOf kv.1 kv.2 (before.unitsOf kv.2.place.coreId 0)).1.isEmpty
  let s := cores.foldl (fun s c => match readyCounter (ready.filter fun kv => kv.2.place.coreId == c).length with
    | some k => s.addCount c (32 + k) 1
    | none => s) after
  gangs.foldl (fun s kv =>
    let n := (l.filter fun i => i.eng == kv.1).length
    if n = 0 then s.addCount kv.2.place.coreId (32 + before.reason kv.1 kv.2) 1
    else if n = 2 then s.addCount kv.2.place.coreId 2 1
    else s) s

end Sys2Proof.Machine
end

