-- ==== Sys2Proof/Machine/Links.lean ====
section
/-! DEFINITION. Abaot Link and the translations of the host: what arrives, what it answers, and how links fail; with the host's commands
that answer fault reports and set routes, keys and ranges (R6, R400, R403, R404, R410, R417 to R426, R430). -/

namespace Sys2Proof.Machine

/-! ## Arrivals (R6, R417 to R420, R472) -/

/-- The packet that an input carries, with its kind. -/
def inputPacket : Input → Option (Nat × Packet)
  | .readRequest p => some (0, p)
  | .farOperationPacket p => some (1, p)
  | .signalPacket p => some (2, p)
  | .mailboxMessage p => some (3, p)
  | .postedWrite p => some (4, p)
  | .readData p => some (5, p)
  | .completion p => some (6, p)
  | .farOpResult p => some (7, p)
  | .nak p => some (8, p)
  | _ => none

/-- The ownership message that an input carries. -/
def inputMessage : Input → Option OwnMsg
  | .reqx m | .reqs m | .grant m | .deny m | .msgReturn m | .lreturn m | .renew m | .renewed m | .recall m | .wbdone m
  | .unknownOwnershipMessage m => some m
  | _ => none

/-- Whether an input travels by CXL.cache or CXL.mem (R426). -/
def inputGuarded : Input → Bool
  | .bisnpResponse _ _ | .snpdata _ | .snpinv _ | .snpcur _ | .hostMemRead _ _ | .cxlCacheData _ _ _ => true
  | .hostMemWrite t _ _ => t == .device
  | _ => false

/-- Whether the links carry CXL.cache and CXL.mem: the configuration record does not ask for IDE, or its keys are set (R465, R472); in
recovery only CXL.io is trained (R464). -/
def State.linksOpen (s : State) : Bool :=
  s.boot.mode == .running && (s.boot.ideKeys || !bit ((((s.boot.config.drop 0x1E).head?).map BitVec.toNat).getD 0) 2)

/-- Whether this wall cycle is a bubble: one of the last T of its window (R4, R474). -/
def State.bubble (s : State) : Bool := decide (64 ≤ s.clock.wall % 64 + s.clock.throttle)

/-- The first arrival that a link layer can take: CXL.cache and CXL.mem wait until they are carried. -/
def State.receivable (s : State) : Option Nat := s.host.wire.findIdx? fun i => s.linksOpen || !inputGuarded i

/-- An arrival parsed: its buffer frees, and its credits return to the sender (R419). -/
def State.freeBuffer (s : State) (i : Input) : State :=
  match inputPacket i, inputMessage i with
  | some (kind, p), _ =>
    { s with host := { s.host with out := s.host.out ++ [.credit p.port (packetChannel kind) (packetFlits kind)] } }
  | none, some m =>
    { s with host := { s.host with out := s.host.out ++ [.credit ((Store.get [] s.host.routes m.srcPkg).headD 0) 0 1] } }
  | none, none => s

/-- Whether an input is for another package (R420). -/
def State.inTransit (s : State) (i : Input) : Bool :=
  match inputPacket i, inputMessage i with
  | some (_, p), _ => p.dst != s.pkgId
  | none, some m => m.dstPkg != s.pkgId
  | none, none => false

/-- The first arrival in the receive buffers that is for another package; no arrival is parsed in a bubble (R6). -/
def State.transit (s : State) : Option (Nat × Input) :=
  if s.bubble then none else (s.host.inbox.zipIdx.find? fun x => s.inTransit x.1).map fun x => (x.2, x.1)

/-- A packet or message sent on to its package (R420). -/
def State.forward (s : State) (i : Input) : State :=
  match inputPacket i, inputMessage i with
  | some (kind, p), _ => s.sendPacket p.dst kind p
  | none, some m => s.sendOuter m
  | none, none => s

/-- The port of Abaot Link by which an input comes. -/
def State.inputPort (s : State) (i : Input) : Option Nat :=
  match inputPacket i, inputMessage i with
  | some (_, p), _ => some p.port
  | none, some m => (Store.get [] s.host.routes m.srcPkg).head?
  | none, none => none

/-- LINK_RECEIVE: a link layer takes an arrival into its receive buffers and acknowledges it, in a bubble too (R6); and in a work cycle
what its buffers hold for another package is forwarded (R420). -/
def execLinkReceive (s : State) : Out :=
  match s.transit with
  | some (k, i) => .next (({ s with host := { s.host with inbox := s.host.inbox.eraseIdx k } }.freeBuffer i).forward i)
  | none =>
    match s.receivable.bind fun k => (s.host.wire[k]?).map fun i => (k, i) with
    | none => .next s
    | some (k, i) =>
      let heard := fun (l : Link) => { l with flits := 0 }
      let ports := match inputPacket i with
        | some (_, p) => s.host.ports.modify p.port heard
        | none => s.host.ports
      .next { s with host :=
        { s.host with
          wire := s.host.wire.eraseIdx k, ports, inbox := s.host.inbox ++ [i]
          out := s.host.out ++ [.linkAck (s.inputPort i)] } }

/-- CREDIT_RETURN: a receiver grants credits of a channel again, and what waited for them is sent (R419). -/
def execCreditReturn (port : Nat) (chan : Nat) (n : Nat) (s : State) : Out :=
  let l := Store.get .down s.host.ports port
  let l := { l with credits := l.credits.put chan (Store.get 0 l.credits chan + n) }
  .next ({ s with host := { s.host with ports := s.host.ports.put port l } }.flushOwn.flushUnsent)


/-! ## Requests of other packages (R418, R422, R425) -/

/-- An inbound access handed to the adapter, ahead of what arrived later. -/
def State.toAdapter (s : State) (kind : InboundKind) (p : Packet) : State :=
  { s with host := { s.host with inbox := .inboundAccess { kind, pkt := p } :: s.host.inbox } }

/-- READ_REQUEST (R418). -/
def execReadRequest (p : Packet) (s : State) : Out := .next (s.toAdapter .read p)

/-- POSTED_WRITE: performed at its home (R422). -/
def execPostedWrite (p : Packet) (s : State) : Out := .next (s.toAdapter .write p)

/-- A far operation or signal: held until as many writes of its source as it counts have been performed (R422). -/
def State.afterWrites (s : State) (kind : Nat) (p : Packet) : State :=
  if p.count ≤ Store.get 0 s.host.performed p.src then s.toAdapter (if kind = 1 then .far else .signal) p
  else { s with host := { s.host with heldPackets := s.host.heldPackets ++ [(kind, p)] } }

/-- FAR_OPERATION_PACKET (R422). -/
def execFarOperationPacket (p : Packet) (s : State) : Out := .next (s.afterWrites 1 p)

/-- SIGNAL_PACKET (R422). -/
def execSignalPacket (p : Packet) (s : State) : Out := .next (s.afterWrites 2 p)

/-- MAILBOX_MESSAGE: accepted as `mbpost`; a full mailbox is answered NAK FULL, one that is not bound NAK FATAL (R353, R425). -/
def execMailboxMessage (p : Packet) (s : State) : Out :=
  match s.mailbox p.addr with
  | none => .next (s.nakPacket p 2)
  | some m =>
    if m.waiting.length < 256 then
      .next ((s.postMessage p.addr (padTo 16 (p.data.map fun b => b.getD 0))).answerPacket p 6 [] false 0)
    else .next (s.nakPacket p 1)

/-- Whether an inbound access passes its checks: its key, with the object, the bytes and the right, and its borrow (R425). -/
def State.inboundAllowed (s : State) (a : Inbound) (k : ExportKey) : Bool :=
  let p := a.pkt
  let obj := k.obj % 2 ^ 18
  let x := s.entry obj
  let lo := (x.base + k.offset) % 2 ^ 48
  let used := match a.kind with
    | .write => p.data.zipIdx.filterMap fun (b : Option Byte × Nat) => b.1.map fun _ => p.addr + b.2
    | _ => (List.range p.len).map (p.addr + ·)
  let right := match a.kind with
    | .read => 0
    | .write => 1
    | .far | .signal => 2
  let holds := x.kind == .excl && x.xlaunch == 0 && x.xblock == p.src
  let lease := x.kind == .shared && (Store.get [] s.own.leases obj).any fun l => l.pkg == p.src
  k.obj == p.obj && x.kind != .free && x.ctx == k.ctx && bit k.rights right && (holds || (lease && right == 0)) &&
    used.all fun b => decide (lo ≤ b) && decide (b < lo + k.len)

/-- INBOUND_ACCESS: an access that passes its checks is translated and goes to its home; any other is answered NAK FATAL (R410, R425). -/
def execInboundAccess (a : Inbound) (s : State) : Out :=
  match s.exportKey a.pkt.key with
  | none => .next (s.refuseInbound a)
  | some k =>
    if s.inboundAllowed a k then
      let (id, s) := s.fresh
      let x : HeldInbound := { id, acc := a, arrived := s.clock.cyc, ctx := k.ctx, seq := none }
      .next ({ s with xlat := { s.xlat with inbound := s.xlat.inbound ++ [x] } }.inboundGo x)
    else .next (s.refuseInbound a)

/-- The held access whose page has not become mapped within 8,192 cycles of its arrival (R410). -/
def State.inboundLate (s : State) : Option HeldInbound :=
  s.xlat.inbound.find? fun x => (match x.seq with
    | some n => n != 0
    | none => false) && decide (x.arrived + 8192 ≤ s.clock.cyc)

/-- INBOUND_FAULT_TIMEOUT: NAK with reason ABSENT; the report stays outstanding (R410). -/
def execInboundFaultTimeout (s : State) : Out :=
  match s.inboundLate with
  | none => .next s
  | some x => .next ((s.dropInbound x.id).nakPacket x.acc.pkt 0)

/-! ## Answers of other packages (R316, R410, R418, R422, R429, R447) -/

/-- The request that an answer names, of one of some kinds. -/
def State.remoteOf (s : State) (p : Packet) (kinds : List Nat) : Option RemoteReq :=
  s.host.remote.find? fun r => r.id == p.id && kinds.contains r.kind

/-- A request ended: its tag clears with its last part, and a far operation that its home has performed moves its lane's restart point
(R311). -/
def State.endRemote (s : State) (r : RemoteReq) : State :=
  let remote := s.host.remote.filter fun x => x.id != r.id
  let s := { s with host := { s.host with remote, unsent := s.host.unsent.filter fun u => u.2.2.id != r.id || u.2.2.src != s.pkgId } }
  let more := (remote.any fun x => x.eng == r.eng && x.wait == r.wait) || s.mem.mesh.any fun q => q.2.eng == r.eng && q.2.wait == r.wait
  let s := if more then s else s.modEngine r.eng fun e => e.clearTag r.wait
  if r.kind = 1 ∨ r.kind = 2 then s.modEngine r.eng fun e => e.farPerformed r.lane r.pc else s

/-- POISON for the lane of a request: its load or its wait consumes it (R318, R429). -/
def State.poisonRemote (s : State) (r : RemoteReq) : State :=
  let s := s.endRemote r
  match s.engine r.eng with
  | none => s
  | some e =>
    let lanes := listMask [r.lane]
    let s := match (e.lane r.lane).status with
      | .sleeping id => match s.waitOf id with
        | some w => if w.kind = WaitKind.signal then s.dropWait w else s
        | none => s
      | _ => s
    s.raise { eng := r.eng, cause := .poison, lanes, pc := r.pc, insn := s.insnAt e.ctx r.pc.toNat, faddr := r.addr, detail := 0 }

/-- Bytes that an engine operation, a copy, a swap-in or the dispatcher asked for, handed to it; a poisoned line is marked (R429). -/
def State.deliver (s : State) (r : RemoteReq) (bs : List Byte) (poison : Bool) : State :=
  let put := fun (m : Store Byte) => bs.zipIdx.foldl (fun m b => Store.put m (r.addr + b.2) b.1) m
  let line := lineOf (remoteLoc r.addr)
  let marks := if poison then line :: s.mem.poison.filter (· != line) else s.mem.poison.filter (· != line)
  let matrix := s.work.matrix.mapKV fun _ m =>
    { m with queue := m.queue.map fun o => if o.id = r.wait then { o with data := put o.data } else o }
  let copies := s.work.copies.map fun c => if c.id = r.wait then { c with data := put c.data } else c
  let waits := s.work.waits.map fun w => match w.kind with
    | .spanMma a b c ra rb asked data => if w.id = r.wait then { w with kind := .spanMma a b c ra rb asked (put data) } else w
    | _ => w
  let swapIns := s.ctxs.swapIns.map fun w => if w.id = r.wait then { w with data := put w.data } else w
  let slots := s.launch.slots.mapKV fun _ (x : Slot) => if (x.pending && x.reader == r.wait) then { x with data := put x.data } else x
  { s with
    mem := { s.mem with poison := marks }
    work := { s.work with matrix, copies, waits }
    launch := { s.launch with slots }
    ctxs := { s.ctxs with swapIns } }.endRemote r

/-- The bytes of a load from another package, with those that its own core supplied at the issue (R145). -/
def RemoteReq.bytes (r : RemoteReq) (bs : List Byte) : List Byte :=
  bs.zipIdx.map fun b => ((r.given.find? fun o => o.1 == b.2).map Prod.snd).getD b.1

/-- READ_DATA: a load's value reaches its lane; a poisoned one raises POISON; an engine takes its bytes (R418, R429). -/
def execReadData (p : Packet) (s : State) : Out :=
  match s.remoteOf p [0, 8] with
  | none => .next s
  | some r =>
    let bs := p.data.map fun b => b.getD 0
    if r.kind = 8 then .next (s.deliver r (padTo 128 bs) p.poison)
    else if p.poison then .next (s.poisonRemote r)
    else
      let z := r.size
      .next ((s.modEngine r.eng fun e =>
        e.setLane r.lane ((e.lane r.lane).loadValue r.dest z r.signed (r.bytes (padTo (sizeBytes z) bs)))).endRemote r)

/-- FAR_OP_RESULT: the old value, or what a signal held, reaches its lane; a lane asleep at the signal continues (R418). -/
def execFarOpResult (p : Packet) (s : State) : Out :=
  match s.remoteOf p [1, 2] with
  | none => .next s
  | some r =>
    if p.poison then .next (s.poisonRemote r)
    else
      let bs := padTo r.size (p.data.map fun b => b.getD 0)
      let put := fun (l : Lane) => l.setRegs r.dest (wordsOf bs)
      match s.engine r.eng with
      | none => .next (s.endRemote r)
      | some e =>
        let wait := match (e.lane r.lane).status with
          | .sleeping id => (s.waitOf id).filter fun w => w.kind == .signal
          | _ => none
        match wait with
        | some w => .next ((s.finishWait w put).endRemote r)
        | none => .next ((s.setEngine r.eng (e.setLane r.lane (put (e.lane r.lane)))).endRemote r)

/-- COMPLETION: a write, or a far operation without a result, has been performed at its home (R422, R447). -/
def execCompletion (p : Packet) (s : State) : Out :=
  match s.remoteOf p [1, 2, 3, 4] with
  | none => .next s
  | some r => .next (s.endRemote r)

/-- The frame of lanes whose page cannot be mapped, in their launch's fault record, with RESTART where their region was aborted; the
launch ends (R315, R317). -/
def State.endLaunch (s : State) (t : TrapReq) (restart : Bool := false) : State :=
  match s.engine t.eng with
  | none => s
  | some e => (s.recordFault e.launch (e.frame t (e.frameFlags e.inHandler restart false))).stopLaunch e.launch

/-- The access that a request to another package makes. -/
def RemoteReq.access (r : RemoteReq) : AccessKind :=
  match r.kind with
  | 0 => .load
  | 4 => .store
  | _ => .far

/-- A copy that fails: `cpstat` reads 2 (R400). -/
def State.failCopy (s : State) (c : Copy) : State :=
  (s.setCopy { c with status := .failed, slots := [], bad := true }).releaseSlots c.cluster c.slots

/-- A request refused for good: its launch ends by R315; a copy fails, a swap-in fails with KIND 2, and what
the dispatcher asked for reads as poisoned (R341, R389, R410). -/
def State.fatalRemote (s : State) (r : RemoteReq) : State :=
  let s := s.endRemote r
  if r.kind = 8 then
    let s := if s.launch.slots.any fun kx => kx.2.pending && kx.2.reader == r.wait then s.deliver r (List.replicate 128 0) true else s
    let ops := (s.work.matrix.flatMap fun kv => kv.2.queue).filter fun o => o.id == r.wait
    let s := ops.foldl (fun s o => s.endLaunch
      { eng := o.eng, cause := .page, lanes := 1, pc := o.pc, insn := o.insn, faddr := r.addr, detail := pageDetail .engine 1 }) s
    let s := (s.work.waits.filter fun w => w.id == r.wait).foldl (fun s w => s.endLaunch
      { eng := w.eng, cause := .page, lanes := w.lanes, pc := w.pc, insn := w.insn, faddr := r.addr, detail := pageDetail .engine 1 }) s
    let s := (s.work.copies.filter fun c => c.id == r.wait).foldl State.failCopy s
    (s.ctxs.swapIns.filter fun w => w.id == r.wait).foldl (fun s w => s.swapFails w 2) s
  else s.endLaunch
    { eng := r.eng, cause := .page, lanes := listMask [r.lane], pc := r.pc
      insn := s.insnAt (s.ctxOf r.eng) r.pc.toNat, faddr := r.addr, detail := pageDetail r.access 1 }

/-- NAK: an access answered ABSENT or FULL is sent again 1,024 cycles later; one answered FATAL fails (R410, R425). -/
def execNak (p : Packet) (s : State) : Out :=
  match s.remoteOf p [0, 1, 2, 3, 4, 8] with
  | none => .next s
  | some r =>
    if p.reason = 2 then .next (s.fatalRemote r)
    else
      let remote := s.host.remote.map fun (x : RemoteReq) => if x.id = r.id then { x with resendAt := some (s.clock.cyc + 1024) } else x
      .next { s with host := { s.host with remote } }

/-- The access that is sent again now. -/
def State.resendDue (s : State) : Option RemoteReq :=
  s.host.remote.find? fun r => match r.resendAt with
    | some t => decide (t ≤ s.clock.cyc)
    | none => false

/-- NAK_RESEND: the access is sent again (R410). -/
def execNakResend (s : State) : Out :=
  match s.resendDue with
  | none => .next s
  | some r =>
    let r' := { r with resendAt := none, sent := s.clock.cyc, port := 17 }
    let remote := s.host.remote.map fun x => if x.id = r.id then r' else x
    .next ({ s with host := { s.host with remote } }.sendPacket r.pkg
      (if r.kind = 8 then 0 else r.kind) r.packet)

/-! ## Links that train and fail (R419, R426, R430) -/

/-- Whether the configuration record enables a link (R465); in recovery only CXL.io is trained (R464). -/
def State.enabled (s : State) (link : LinkId) : Bool :=
  s.boot.mode == .running && (match link with
    | .cxl n => decide (n < 2) && bit (leValue ((s.boot.config.drop 0x1E).take 1)) n
    | .port n => decide (n < 16) && bit (leValue ((s.boot.config.drop 0x1C).take 2)) n)

/-- LINK_TRAINED: an enabled link has trained and starts, a port with 128 credits in each channel (R419, R465). -/
def execLinkTrained (link : LinkId) (s : State) : Out :=
  if s.enabled link then
    match link with
    | .cxl n =>
      let l := Store.get .down s.host.cxl n
      .next { s with host := { s.host with cxl := s.host.cxl.put n { l with trained := true } } }
    | .port n =>
      let l := Store.get .down s.host.ports n
      let l := { l with trained := true, credits := [(0, 128), (1, 128), (2, 128), (3, 128)] }
      .next ({ s with host := { s.host with ports := s.host.ports.put n l } }.flushOwn.flushUnsent)
  else .next s

/-- A write to another package that cannot be completed: IMPRECISE, through its write-back where one runs, and the line is poisoned for what
borrows it later; DETAIL 2, or 3 where its answer has not come in time (R322, R430). -/
def State.loseWrite (s : State) (r : RemoteReq) : State :=
  let detail := if r.sent + 2 ^ 20 ≤ s.clock.cyc ∧ r.port < 16 then 3 else 2
  let s := s.endRemote r
  let mine := fun (w : WriteBack) => w.obj == r.packet.obj && ((w.away.map Prod.fst) == some r.pkg) &&
    (match w.origin with
    | some (g, _, _) => g == r.eng
    | none => false)
  let s := { s with mem := { s.mem with poison := (lineOf (remoteLoc r.addr) :: s.mem.poison).dedup } }
  if s.own.writeBacks.any mine then
    { s with own := { s.own with writeBacks := s.own.writeBacks.map fun w =>
      if (mine w) then { w with fail := detail, faddr := r.addr } else w } }
  else s.imprecise r.eng r.pc (listMask [r.lane]) r.addr detail

/-- A request that a failed port leaves without an answer: a read or a result completes poisoned, a write is lost (R430). -/
def State.loseRemote (s : State) (r : RemoteReq) : State :=
  match r.kind with
  | 8 => s.deliver r (padTo 128 []) true
  | 4 => s.loseWrite r
  | _ => if r.signed ∨ r.kind = 0 then s.poisonRemote r else s.endRemote r

/-- A request for a host line that completes poisoned: the line is held, and marked (R429, R430). -/
def State.poisonLine (s : State) (r : CxlReq) : State :=
  let line := (2 ^ 60 + r.hpa) / 128
  let s := { s with
    host := { s.host with cxlReqs := s.host.cxlReqs.filter fun x => x.hpa != r.hpa || x.own != r.own }
    mem := { s.mem with poison := if r.own then s.mem.poison else (line :: s.mem.poison).dedup } }
  if r.own then s else s.setLineState 0 line .s

/-- A link that fails: what is outstanding on it completes poisoned, and Reten reports it to the host (R430). -/
def State.failLink (s : State) (link : LinkId) : State :=
  match link with
  | .cxl n =>
    let l := Store.get .down s.host.cxl n
    let gone := s.host.cxlReqs.filter fun r => s.linkOf r.hpa == some n
    let s := { s with host := { s.host with cxl := s.host.cxl.put n { l with failed := true } } }
    ((gone.foldl State.poisonLine s).wakeXlats).notify (padTo 32 (Config.notice 5 0 n))
  | .port n =>
    let l := Store.get .down s.host.ports n
    let s := { s with host := { s.host with ports := s.host.ports.put n { l with failed := true } } }
    let gone := s.host.remote.filter fun r => r.port == n || (decide (16 ≤ r.port) && !s.reachable r.pkg)
    (gone.foldl State.loseRemote s).notify (padTo 32 (Config.notice 5 1 n))

/-- FLIT_CHECK_FAIL: the link layer replays the flit, which adds latency only (R417); once the replay has failed 8 times running, the
link is failed (R455). -/
def execFlitCheckFail (port : Nat) (s : State) : Out :=
  let l := Store.get .down s.host.ports port
  if l.flits < 8 then .next { s with host := { s.host with ports := s.host.ports.put port { l with flits := l.flits + 1 } } }
  else .next ((s.failLink (.port port)).record (port / 4)
    { kind := 7, cls := 1, mem := 10, bank := 0xFF, place := port / 4 % 4, addr := port, cyc := s.clock.cyc, count := 1 })

/-- LINK_FAILURE: a link reports viral or loses training (R430). -/
def execLinkFailure (link : LinkId) (s : State) : Out := .next (s.failLink link)

/-- The link on which a request has been unanswered for 2^20 cycles (R430). -/
def State.linkTimeout (s : State) : Option LinkId :=
  let cxl := firstSome (fun (r : CxlReq) => if r.sent + 2 ^ 20 ≤ s.clock.cyc then (s.linkOf r.hpa).map LinkId.cxl else none)
    s.host.cxlReqs
  cxl.or (firstSome (fun (r : RemoteReq) =>
    if r.sent + 2 ^ 20 ≤ s.clock.cyc ∧ r.port < 16 ∧ r.resendAt.isNone then some (LinkId.port r.port) else none) s.host.remote)

/-- LINK_REQUEST_TIMEOUT: the link fails (R430). -/
def execLinkRequestTimeout (s : State) : Out :=
  match s.linkTimeout with
  | none => .next s
  | some l => .next (s.failLink l)

/-! ## ATS (R403, R404) -/

/-- What waited for the host's translations looks again: loads and fetches, far operations and inbound accesses. -/
def State.retryAts (s : State) : State :=
  let far := (Store.vals s.mem.mesh).filter fun q => q.stage == .held 0
  let s := far.foldl State.retryFar s.wakeXlats
  (s.xlat.inbound.filter fun x => x.seq == some 0).foldl State.inboundGo s

/-- ATS_COMPLETION: the translation is kept for the pages that name it; one that grants nothing stays as a refusal until its report is
answered (R403). -/
def execAtsCompletion (iova : Nat) (ans : Option AtsAnswer) (s : State) : Out :=
  let a : AtsAnswer := ans.getD { hpa := 0, read := false, write := false }
  .next { s with xlat :=
    { s.xlat with ats := s.xlat.ats.put iova a, atsPending := s.xlat.atsPending.filter (· != iova) } }.retryAts

/-- The largest page that a leaf can give (R390, R392). -/
def largestPage : Nat := 16 * levelSize 2

/-- ATS_INVALIDATION: the translations of the range, of every context, are swept; the host is answered when the sweep is complete
(R404). -/
def execAtsInvalidation (iova : Nat) (len : Nat) (s : State) : Out :=
  let near := s.xlat.ats.filter fun kv => decide (kv.1 < iova + len) && decide (iova < kv.1 + largestPage)
  let hits := fun (p : PageEntry) => near.any fun kv =>
    p.frame == hostLoc kv.2.hpa && decide (kv.1 < iova + len) && decide (iova < kv.1 + p.size)
  let held := ((Store.vals s.xlat.core).flatten ++ (Store.vals s.xlat.cluster).flatten ++ (Store.vals s.xlat.die).flatten).filter hits
  let beat := fun (_ _ loc : Nat) => held.any fun p => decide (p.frame ≤ loc) && decide (loc < p.frame + p.size)
  let w : Sweep := { ctx := none, page := none, reach := s.clock.cyc + 100, before := s.nextId, for_ := .ats iova len }
  let s := s.dropTranslations hits (fun _ => false) beat
  .next { s with xlat :=
    { s.xlat with
      ats := s.xlat.ats.filter fun kv => !(near.any fun x => x.1 == kv.1)
      sweeps := s.xlat.sweeps ++ [w] } }

/-! ## Answers to fault reports (R315, R400, R410) -/

/-- A report closed; refused translations of the host are asked for again. -/
def State.closeReport (s : State) (r : FaultReport) : State :=
  { s with xlat :=
    { s.xlat with
      reports := s.xlat.reports.filter fun x => x != r
      ats := s.xlat.ats.filter fun kv => kv.2.read || kv.2.write } }

/-- The gangs that sleep on a report. -/
def State.pageWaits (s : State) (ctx seq : Nat) : List Wait :=
  s.work.waits.filter fun w => (match w.kind with
    | .page n _ _ => n == seq
    | _ => false) && s.ctxOf w.eng == ctx

/-- A gang that slept on a page issues again (R313, R400). -/
def State.wakePage (s : State) (w : Wait) : State :=
  let waits := s.work.waits.filter fun x => x.id != w.id
  let more := waits.any fun x => x.eng == w.eng && (match x.kind with
    | .page _ _ _ => true
    | _ => false)
  { s with work := { s.work with waits } }.modEngine w.eng fun e => { e with asleep := more }

/-- The engines' requests for a context that is served no more by a report, made again where they still need them. -/
def State.askAgain (s : State) (ctx : Nat) : State :=
  let s := (s.work.copies.filter fun c => c.status == .stalled && s.ctxOf c.eng == ctx).foldl (fun s c =>
    let e := s.copyEngine c
    (c.needs c.nextPieces).foldl (fun s n => s.askLine e c.id (if n.1 then c.dest.obj else c.src.obj) n.1 c.data n.2) s) s
  let s := { s with work := { s.work with
    matrix := s.work.matrix.mapKV fun _ m =>
      { m with queue := m.queue.map fun (o : EngineOp) => if s.ctxOf o.eng = ctx then { o with asked := [] } else o }
    waits := s.work.waits.map fun (w : Wait) => match w.kind with
      | .spanMma a b c ra rb asked data =>
        if s.ctxOf w.eng = ctx ∧ asked ≠ [] then { w with kind := .spanMma a b c ra rb [(0, 0)] data } else w
      | _ => w } }
  (s.ctxs.swapIns.filter fun w => w.ctx == ctx).foldl (fun s w =>
    match s.swapObject w with
    | none => s
    | some o => (w.flying.filter fun f => f.2.2.isNone).foldl (fun s f =>
        s.askLine (calicoEngine ctx) w.id 0 false w.data (o.lines.getD f.1 0)) s) s

/-- The far operations and signals held for a report (R314). -/
def State.heldFor (s : State) (ctx seq : Nat) : List MeshReq :=
  (Store.vals s.mem.mesh).filter fun q => q.stage == .held seq && s.reqCtx q == ctx

/-- The inbound accesses held for a report (R410). -/
def State.inboundFor (s : State) (ctx seq : Nat) : List HeldInbound := s.xlat.inbound.filter fun x => x.ctx == ctx && x.seq == some seq

/-- A report that a command names. -/
def State.reportOf (s : State) (ctx seq : Nat) : Option FaultReport := s.xlat.reports.find? fun r => r.ctx == ctx && r.seq == seq

/-- PAGEDONE_MAPPED: the report closes, and every party that waits on it translates again (R400). -/
def execPagedoneMapped (s : State) : Out :=
  contextCommand s 0x05 (fun b => entryField b 12 1 == 0) [(8, 5)] fun b ctx _ =>
    match s.reportOf ctx (entryField b 8 4) with
    | none => s.answer 1 0
    | some r =>
      let s := s.closeReport r
      let s := (s.pageWaits ctx r.seq).foldl State.wakePage s
      let s := (s.heldFor ctx r.seq).foldl State.retryFar s
      let s := (s.inboundFor ctx r.seq).foldl State.inboundGo s
      (s.wakeXlats.askAgain ctx).answer 0 0

/-- The launches whose parties wait on a page that cannot be mapped end; copies fail, swap-ins fail with KIND 2, and inbound accesses are
answered NAK FATAL (R315, R400, R410). -/
def State.unmappable (s : State) (r : FaultReport) : State :=
  let page := fun (ctx va : Nat) => ctx == r.ctx && reportPage va == r.page && translated va
  let perm := if r.perm then 4 else 0
  let copies := s.work.copies.filter fun c =>
    c.status == .stalled && (c.needs c.nextPieces).any fun n => page (s.ctxOf c.eng) n.2
  let ops := (s.work.matrix.flatMap fun kv => kv.2.queue.take 1).filter fun o => o.asked.any fun l => page (s.ctxOf o.eng) l.1
  let scales := s.work.waits.filter fun w => match w.kind with
    | .spanMma _ _ _ _ _ asked _ => asked.any fun l => page (s.ctxOf w.eng) l.1
    | _ => false
  let swaps := s.ctxs.swapIns.filter fun w => match s.swapObject w with
    | none => false
    | some o => w.flying.any fun f => f.2.2.isNone && page w.ctx (o.lines.getD f.1 0)
  let inbound := s.inboundFor r.ctx r.seq
  let waits := s.pageWaits r.ctx r.seq
  let far := s.heldFor r.ctx r.seq
  let s := s.closeReport r
  let s := waits.foldl (fun s w => match w.kind with
    | .page _ a d => s.endLaunch { eng := w.eng, cause := .page, lanes := w.lanes, pc := w.pc, insn := w.insn, faddr := a
                                   detail := d % 4 + perm } true
    | _ => s) s
  let s := far.foldl (fun s q => s.endLaunch
    { eng := q.eng, cause := .page, lanes := listMask (q.parts.map MeshPart.lane), pc := q.pc, insn := s.insnAt r.ctx q.pc.toNat
      faddr := (q.parts.map MeshPart.addr).headD 0, detail := 2 + perm }) s
  let s := ops.foldl (fun s o => s.endLaunch
    { eng := o.eng, cause := .page, lanes := 1, pc := o.pc, insn := o.insn, faddr := r.va, detail := perm + (if o.isDrain then 1 else 0) }) s
  let s := scales.foldl (fun s w => s.endLaunch
    { eng := w.eng, cause := .page, lanes := w.lanes, pc := w.pc, insn := w.insn, faddr := r.va, detail := perm }) s
  let s := copies.foldl State.failCopy s
  let s := swaps.foldl (fun s w => s.swapFails w 2) s
  inbound.foldl (fun s x => (s.dropInbound x.id).refuseInbound x.acc) s

/-- PAGEDONE_UNMAPPABLE: the page cannot be mapped (R400); a verdict beyond the two is refused. -/
def execPagedoneUnmappable (s : State) : Out :=
  contextCommand s 0x05 (fun b => entryField b 12 1 != 0) [(8, 5)] fun b ctx _ =>
    match s.reportOf ctx (entryField b 8 4) with
    | none => s.answer 1 0
    | some r => if entryField b 12 1 = 1 then (s.unmappable r).answer 0 0 else s.answer 1 0

/-! ## Routes, keys and ranges (R420, R424, R426, R430, R469) -/

/-- ROUTE: the ports that lead to a package; none removes the route (R420). -/
def execRoute (s : State) : Out :=
  command s 0x07 anyEntry false [(8, 19)] fun b =>
    let pkg := entryField b 8 2
    let n := entryField b 10 1
    let ports := (List.range n).map fun i => entryField b (11 + i) 1
    if 2 ^ 12 ≤ pkg ∨ 16 < n ∨ ports.any (fun p => decide (16 ≤ p)) then s.answer 1 0
    else
      let routes := if n = 0 then s.host.routes.erase pkg else s.host.routes.put pkg ports
      ({ s with host := { s.host with routes } }.flushOwn.flushUnsent).answer 0 0

/-- The export key of an image (R424), none where a reserved bit is set or its value is 0. -/
def keyOf (b : List Byte) : Option ExportKey :=
  let f := fun (off n : Nat) => entryField b (16 + off) n
  if f 0 8 = 0 ∨ 1024 ≤ f 8 2 ∨ 8 ≤ f 10 1 ∨ f 11 1 ≠ 0 ∨ 2 ^ 18 ≤ f 12 4 then none
  else some { key := f 0 8, ctx := f 8 2, rights := f 10 1, obj := f 12 4, offset := f 16 8, len := f 24 8 }

/-- KEYCREATE: an export key (R424). -/
def execKeycreate (s : State) : Out :=
  command s 0x08 anyEntry false [(8, 2), (16, 32)] fun b =>
    match keyOf b with
    | some k =>
      if entryField b 8 2 < 4096 then { s with host := { s.host with keys := s.host.keys.put (entryField b 8 2) k } }.answer 0 0
      else s.answer 1 0
    | none => s.answer 1 0

/-- KEYDROP: an export key removed (R424). -/
def execKeydrop (s : State) : Out :=
  command s 0x09 anyEntry false [(8, 2)] fun b =>
    if entryField b 8 2 < 4096 then { s with host := { s.host with keys := s.host.keys.erase (entryField b 8 2) } }.answer 0 0
    else s.answer 1 0

/-- RKEY: an import entry of a context; KEY 0 clears it (R424, R469). -/
def execRkey (s : State) : Out :=
  contextCommand s 0x0A anyEntry [(8, 1), (10, 2), (12, 4), (16, 8)] fun b ctx c =>
    let n := entryField b 8 1
    let k : ImportKey := { pkg := entryField b 10 2, obj := entryField b 12 4, key := entryField b 16 8 }
    if 2 ^ 12 ≤ k.pkg ∨ 2 ^ 18 ≤ k.obj then s.answer 1 0
    else (s.setContext ctx { c with imports := if k.key = 0 then c.imports.erase n else c.imports.put n k }).answer 0 0

/-- RANGE: a host physical range assigned to a link; length 0 clears the entry (R426, R469). -/
def execRange (s : State) : Out :=
  command s 0x0B anyEntry false [(8, 1), (9, 1), (16, 8), (24, 8)] fun b =>
    let n := entryField b 8 1
    let r : HostRange := { base := entryField b 16 8, len := entryField b 24 8, link := entryField b 9 1 }
    if 64 ≤ n ∨ 2 ≤ r.link ∨ r.base % 4096 ≠ 0 ∨ r.len % 4096 ≠ 0 then s.answer 1 0
    else { s with host :=
      { s.host with ranges := if r.len = 0 then s.host.ranges.erase n else s.host.ranges.put n r } }.answer 0 0

/-- LINKRESET: a failed link is restored (R430). -/
def execLinkreset (s : State) : Out :=
  command s 0x0C anyEntry false [(8, 2)] fun b =>
    let n := entryField b 9 1
    match entryField b 8 1 with
    | 0 =>
      if 2 ≤ n then s.answer 1 0
      else { s with host := { s.host with cxl := s.host.cxl.put n { Store.get Link.down s.host.cxl n with failed := false } } }.answer 0 0
    | 1 =>
      if 16 ≤ n then s.answer 1 0
      else { s with host := { s.host with ports := s.host.ports.put n { Store.get Link.down s.host.ports n with failed := false } } }.answer 0 0
    | _ => s.answer 1 0

end Sys2Proof.Machine
end

