-- ==== Sys2Proof/Machine/HostMem.lean ====
section
/-! DEFINITION. The host's accesses to device memory and to the BARs, its snoops, and the lines of its own memory that come in (R292, R335,
R405, R406, R427 to R429, R464, R467). -/

namespace Sys2Proof.Machine

/-! ## CXL.mem (R405, R406) -/

/-- Whether a host access to a device address must wait for the flip of its page to device bias (R406). -/
def State.hostWaits (s : State) (pa : Nat) : Bool :=
  match s.flipOf (pa / 4096) with
  | some f => !f.toHost
  | none => false

/-- Whether an arrival can be taken now: host accesses to a page wait while it flips to device bias (R406), and a request of another
package until the table takes it (R80, R256). -/
def State.inputReady (s : State) : Input → Bool
  | .hostMemRead pa _ => !s.hostWaits pa
  | .hostMemWrite .device pa _ => !s.hostWaits pa
  | .reqx m | .reqs m => s.tableTakes m.obj
  | _ => true

/-- The lines that a run of bytes meets. -/
def linesOf (loc len : Nat) : List Nat := (List.range ((loc % 128 + len + 127) / 128)).map (loc / 128 + ·)

/-- A host access to host-biased lines: the device's copies in L2 go, since the host may cache the lines (R405). -/
def State.hostTakes (s : State) (lines : List Nat) : State :=
  let gone := lines.filter fun l => s.hostBiased (l * 128)
  { s with
    mem := { s.mem with l2 := s.mem.l2.filter fun kv => !gone.contains kv.1 }
    xlat := { s.xlat with snooped := s.xlat.snooped.filter fun n => !gone.contains (n / 2) } }

/-- HOST_MEM_READ: a CXL.mem read of device memory, performed at the line's home slice; under host bias the host may keep the line
(R405). -/
def execHostMemRead (pa : Nat) (len : Nat) (s : State) : Out :=
  if 2 ^ 40 < pa + len then .next s
  else
    let bs := s.readHomeBytes pa len
    let poison := (s.poisonAt pa len).isSome
    let s := { s with host := { s.host with out := s.host.out ++ [Outbound.memData pa bs poison] } }
    let lines := linesOf pa len
    .next ((s.fillL2 ((lines.filter fun l => !s.hostBiased (l * 128)).map (· * 128))).hostTakes lines)

/-- The signals that a run of bytes meets, judged again for their waiters (R153). -/
def State.judgeSignals (s : State) (loc len : Nat) : State :=
  ((List.range ((loc % 8 + len + 7) / 8)).map fun k => (loc / 8 + k) * 8).foldl (fun s l =>
    if s.mem.waiters.any fun w => w.loc == l then s.answerWaiters l (s.signal l) s.mem.waiters else s) s

/-- A register of BAR 0 written by the host: CMDTAIL and NQHEAD; CMDHEAD and NQTAIL are read only (R467, R470). -/
def State.writeBar0 (s : State) (addr : Nat) (data : List Byte) : State :=
  let v := leValue (data.take 4)
  if addr < 4096 then
    let cells := (data.zipIdx.map fun b => (addr + b.2, b.1)).filter fun c => decide (c.1 < 4096)
    { s with host := { s.host with ring := cells.foldl (fun r c => Store.set 0 r c.1 c.2) s.host.ring } }
  else if addr = 0x1000 then { s with host := { s.host with cmdTail := v % 64 } }
  else if addr = 0x100C then State.postHeld s.host.nqHeld.length { s with host := { s.host with nqHead := v } }
  else s

/-- HOST_MEM_WRITE: a write to device memory, the launch window included, at the home slice; to BAR 0; or to the recovery window, which
stands in BAR 2 during recovery (R335, R405, R464, R467). -/
def execHostMemWrite (t : HostTarget) (addr : Nat) (data : List Byte) (s : State) : Out :=
  match t with
  | .device =>
    if 2 ^ 40 < addr + data.length then .next s
    else .next (((s.perform (cellsAt addr data)).hostTakes (linesOf addr data.length)).judgeSignals addr data.length)
  | .bar0 => .next (s.writeBar0 addr data)
  | .bar2 =>
    let cells := (data.zipIdx.map fun b => (addr + b.2, b.1)).filter fun c => decide (c.1 < 262144)
    if s.boot.mode = .recovery then
      .next { s with boot := { s.boot with window := cells.foldl (fun r c => Store.set 0 r c.1 c.2) s.boot.window } }
    else .next s

/-! ## CXL.cache (R427, R429) -/

/-- CXL_CACHE_DATA: the data of a request for host or pool memory arrives and fills L2: shared, or exclusive where it was asked for to be
written; poisoned data marks the line.  What waited goes on (R427, R429). -/
def execCxlCacheData (hpa : Nat) (data : List Byte) (poison : Bool) (s : State) : Out :=
  match s.host.cxlReqs.find? fun r => r.hpa == hpa with
  | none => .next s
  | some r =>
    let line := (2 ^ 60 + hpa) / 128
    let marks := s.mem.poison.filter (· != line)
    let cells := (cellsAt (line * 128) (padTo 128 data)).foldl (fun m c => Memory.write m c.1 c.2) s.mem.cells
    let s := { s with
      host := { s.host with cxlReqs := s.host.cxlReqs.erase r }
      mem := { s.mem with cells, l2 := s.mem.l2.put line false, poison := if poison then line :: marks else marks } }
    let sick := fun (w : WriteBack) => poison && r.own && w.away.isNone && w.cells.any fun c => lineOf c.1 == line
    let s := { s with own := { s.own with writeBacks := s.own.writeBacks.map fun w => if sick w then { w with fail := 1 } else w } }
    let s := if r.own then ((List.range 4).foldl (fun s d => s.setLineState d line .i) s).setLineState 0 line .e
      else if s.lineHeld line then s
      else s.setLineState 0 line .s
    .next s.wakeXlats

/-- Whether some die holds a host line dirty. -/
def State.lineDirty (s : State) (line : Nat) : Bool := (List.range 4).any fun d => match s.lineState d line with
  | .m | .o => true
  | _ => false

/-- A dirty line leaves towards the host: the snooped 64 bytes in the answer, the other 64 by a write. -/
def State.snoopData (s : State) (hpa line : Nat) (dirty : Bool) : State :=
  let half := 2 ^ 60 + hpa / 64 * 64
  let other := if half = line * 128 then line * 128 + 64 else line * 128
  let out := .snoopResponse hpa (if dirty then s.readHomeBytes half 64 else []) ::
    (if dirty then [.cxlWrite (other - 2 ^ 60) (s.readHomeBytes other 64) (s.mem.poison.contains line)] else [])
  { s with host := { s.host with out := s.host.out ++ out } }

/-- SNPDATA: dirty data is answered, and the package's copies are left shared (R427). -/
def execSnpdata (hpa : Nat) (s : State) : Out :=
  let line := (2 ^ 60 + hpa) / 128
  let s := s.snoopData hpa line (s.lineDirty line)
  let s := (List.range 4).foldl (fun s d => if s.lineState d line = .i then s else s.setLineState d line .s) s
  .next { s with mem := { s.mem with l2 := s.mem.l2.modify line fun _ => false } }

/-- SNPINV: the data of the M or O die is answered, and every die is left I (R427); a fetch unit that has the line pinned keeps the bytes for
the step that comes next (R297). -/
def execSnpinv (hpa : Nat) (s : State) : Out :=
  let line := (2 ^ 60 + hpa) / 128
  .next (((s.snoopData hpa line (s.lineDirty line)).dropLines [line]).unpinHost line)

/-- SNPCUR: the line's data where the package holds it, with no change of state (R427). -/
def execSnpcur (hpa : Nat) (s : State) : Out :=
  let line := (2 ^ 60 + hpa) / 128
  let data := if s.lineHeld line then s.readHomeBytes (2 ^ 60 + hpa / 64 * 64) 64 else []
  .next { s with host := { s.host with out := s.host.out ++ [.snoopResponse hpa data] } }

end Sys2Proof.Machine
end

