-- ==== Sys2Proof/Machine/Debug.lean ====
section
/-! DEFINITION. The host's debug commands (R432 to R437, R469). -/

namespace Sys2Proof.Machine

/-- DBGATTACH: the context is attached (R432). -/
def execDbgattach (s : State) : Out :=
  contextCommand s 0x0D anyEntry [] fun _ ctx c => (s.setContext ctx { c with attached := true }).answer 0 0

/-- DBGDETACH (R432). -/
def execDbgdetach (s : State) : Out :=
  contextCommand s 0x0E anyEntry [] fun _ ctx c => (s.setContext ctx { c with attached := false }).answer 0 0

/-- The engines of a context that a scope and a SLOT field name: all of them, one gang, or one sequencer's stream; none where the field
names none (R316, R469). -/
def State.named (s : State) (ctx scope slot : Nat) : Option (List Nat) :=
  let mine := s.work.engines.filter fun kv => kv.2.ctx == ctx && !kv.2.ended
  let one := fun (p : Engine → Bool) => match mine.filter fun kv => p kv.2 with
    | [] => none
    | l => some (l.map Prod.fst)
  match scope with
  | 0 => if slot = 0 then some (mine.map Prod.fst) else none
  | 1 => one fun e => !e.isSeq && e.slotWord == slot
  | 2 => one fun e => e.isSeq && e.place.cluster == slot / 4 && e.place.die == slot % 4
  | _ => none

/-- DBGHALT: a halt of a context, a gang or a sequencer at its next instruction (R432, R433). -/
def execDbghalt (s : State) : Out :=
  contextCommand s 0x0F anyEntry [(8, 1), (12, 4)] fun b ctx _ =>
    match s.named ctx (entryField b 8 1) (entryField b 12 4) with
    | none => s.answer 1 0
    | some ids => (ids.foldl State.haltEngine s).answer 0 0

/-- Whether a lane stands at a `brk`: minor 4 of major 0x38 (R119). -/
def State.atBrk (s : State) (ctx : Nat) (l : Lane) : Bool :=
  let w := (s.insnAt ctx l.pc.toNat).toNat
  bits w 6 0 == 0x71 && bits w 31 29 == 4

/-- Stopped lanes of an engine made ready; with SKIP those at a `brk` stand after it (R436). -/
def State.resumeLanes (s : State) (eng : Nat) (mask : Dword) (skip : Bool) : State :=
  s.modEngine eng fun e => e.mapLanes mask fun _ l =>
    if !l.stopped then l
    else if skip && s.atBrk e.ctx l then { l with stopped := false, pc := l.pc + 4, issued := true }
    else { l with stopped := false }

/-- DBGRESUME: the named stopped lanes are ready in one cycle (R436). -/
def execDbgresume (s : State) : Out :=
  contextCommand s 0x10 anyEntry [(8, 1), (9, 1), (12, 4), (16, 8)] fun b ctx _ =>
    let scope := entryField b 8 1
    let mask := entryField b 16 8
    if 2 ≤ entryField b 9 1 ∨ (scope ≠ 1 ∧ mask ≠ 0) then s.answer 1 0
    else match s.named ctx scope (entryField b 12 4) with
      | none => s.answer 1 0
      | some ids =>
        let lanes : Dword := if scope = 1 then BitVec.ofNat 64 mask else BitVec.allOnes 64
        (ids.foldl (fun s id => s.resumeLanes id lanes (entryField b 9 1 == 1)) s).answer 0 0

/-- Bytes that Reten writes to a host buffer by CXL.io (R469). -/
def State.toHost (s : State) (hpa : Nat) (bs : List Byte) : State :=
  { s with host := { s.host with out := s.host.out ++ [.hostStore hpa bs] } }

/-- DBGSTOPS: the context's most recent stop frames, as many as the buffer holds (R435, R469). -/
def execDbgstops (s : State) : Out :=
  contextCommand s 0x11 anyEntry [(8, 8), (16, 4)] fun b _ c =>
    let at_ := entryField b 8 8
    let len := entryField b 16 4
    if at_ % 64 ≠ 0 ∨ len % 64 ≠ 0 then s.answer 1 0
    else
      let n := min c.stops.length (len / 64)
      (s.toHost at_ (c.stops.drop (c.stops.length - n)).flatten).answer 0 n

/-- The image of a bind record (R355). -/
def BindRecord.image (r : BindRecord) : List Byte :=
  leBytes 4 r.launch ++ leBytes 4 r.first ++ leBytes 4 r.count ++ leBytes 4 r.stride ++ leBytes 16 r.coreset ++ leBytes 1 r.prio
    ++ leBytes 1 r.state ++ leBytes 2 r.group ++ leBytes 2 (match r.cohort with
      | some n => 2 ^ 15 + n % 256
      | none => 0)
    ++ leBytes 2 r.barhome ++ leBytes 4 r.next ++ leBytes 4 0 ++ leBytes 8 r.armcyc ++ leBytes 8 0

/-- SLOTREAD: a die's slot table as 4,096 bind records (R435, R469). -/
def execSlotread (s : State) : Out :=
  command s 0x12 anyEntry false [(8, 8), (16, 1)] fun b =>
    let die := entryField b 16 1
    if entryField b 8 8 % 64 ≠ 0 ∨ 4 ≤ die then s.answer 1 0
    else
      let row := fun (k : Nat) => match s.launch.binds.find? (4096 * die + k) with
        | some r => r.image
        | none => List.replicate 64 0
      (s.toHost (entryField b 8 8) ((List.range 4096).flatMap row)).answer 0 0

/-- TRACE: the context's trace buffer, whose header is cleared, and the kinds that it records; length 0 disables tracing (R437). -/
def execTrace (s : State) : Out :=
  contextCommand s 0x13 anyEntry [(8, 8), (16, 8), (24, 1)] fun b ctx c =>
    let base := entryField b 8 8
    let len := entryField b 16 8
    let kinds := entryField b 24 1
    if 16 ≤ kinds ∨ (len ≠ 0 ∧ (base % 128 ≠ 0 ∨ len % 128 ≠ 0 ∨ len < 256 ∨ 2 ^ 57 ≤ base)) then s.answer 1 0
    else
      let s := s.setContext ctx { c with traceBase := base, traceLen := len, traceKinds := kinds, traceCount := 0 }
      (if len = 0 then s else s.writeVa ctx base (leBytes 128 0)).answer 0 0

end Sys2Proof.Machine
end

