-- ==== Sys2Proof/Machine/Repair.lean ====
section
/-! DEFINITION. Repair while the memory stays in use: the rebuild of a failed bank into the spare, the retirement of a memory, and the
sparing of DRAM rows (R453, R454, R456). -/

namespace Sys2Proof.Machine

/-! ## Retirement (R454) -/

/-- The granted cores that a retired memory takes with it, as bits; none for an L2 slice or DRAM. -/
def MemoryUnit.cores (u : MemoryUnit) : List Nat :=
  let cl := 16 * u.die + u.cluster
  if u.mem = 4 ∨ u.mem = 9 then []
  else if u.core < 8 then [8 * cl + u.core]
  else (List.range 8).map (8 * cl + ·)

/-- The contexts with a party on some cores. -/
def State.ctxsOn (s : State) (cores : List Nat) : List Nat :=
  ((s.work.engines.filter fun kv => !kv.2.ended &&
    (if kv.2.isSeq then cores.any fun c => c / 8 == kv.2.place.clusterId else cores.contains kv.2.place.coreId)).map fun kv =>
      kv.2.ctx).dedup

/-- A slice leaves its interleave domain by the sequence of R460, unless domain 0 would be left with none. -/
def State.retireSlice (s : State) (u : MemoryUnit) : State :=
  let domains := Store.set 0 s.repair.domains (16 * u.die + u.cluster) 4
  if (List.range 16).any fun k => Store.get 0 domains (16 * u.die + k) == 0 then
    { s with repair := { s.repair with cfgs := s.repair.cfgs ++ [{ die := u.die, domains, due := none, wait := 0 }] } }
  else s

/-- Cores withdrawn from every bind record and every CORES grant. -/
def State.withdrawCores (s : State) (cores : List Nat) : State :=
  let withdrawn := s.repair.withdrawn ++ cores
  let bits := cores.foldl (fun n k => Nat.lor n (2 ^ k)) 0
  let table := s.ctxs.table.mapKV fun _ (c : Context) => { c with cores := c.cores - Nat.land c.cores bits }
  let binds := s.launch.binds.mapKV fun _ (b : BindRecord) =>
    { b with coreset := b.coreset - Nat.land b.coreset (bits / 2 ^ (128 * b.die) % 2 ^ 128) }
  { s with
    repair := { s.repair with withdrawn }
    ctxs := { s.ctxs with table }
    launch := { s.launch with binds } }

/-- Whether the unit of a retired memory is out of use already. -/
def State.outOfUse (s : State) (u : MemoryUnit) : Bool :=
  if u.mem = 4 then
    Store.get 0 s.repair.domains (16 * u.die + u.cluster) == 4 ||
      s.repair.cfgs.any fun c => Store.get 0 c.domains (16 * u.die + u.cluster) == 4
  else u.cores.all s.repair.withdrawn.contains

/-- MEMORY_RETIRE: a slice leaves its domain; a core or cluster is withdrawn once the parties on it have been saved (R374, R454). -/
def State.retire (s : State) (b : BankState) : State :=
  let u := b.unit
  if u.mem = 4 then
    if s.repair.cfgs.any (fun c => c.die == u.die) then s else (s.retireSlice u).recordAt u 8 1 0xFF 0
  else
    let on := (s.ctxsOn u.cores).filter fun c => (s.context c).state != .suspended
    if on.isEmpty then (s.withdrawCores u.cores).recordAt u 8 1 0xFF 0
    else on.foldl (fun s c => if (s.context c).state = .active then s.suspendContext c true else s) s

/-- Whether a retirement can go on. -/
def State.retireReady (s : State) (b : BankState) : Bool :=
  b.retired && !s.outOfUse b.unit &&
    (if b.unit.mem = 4 then
        !(s.repair.cfgs.any fun c => c.die == b.unit.die) &&
          (List.range 16).any fun k => k != b.unit.cluster && Store.get 0 s.repair.domains (16 * b.unit.die + k) == 0
      else ((s.ctxsOn b.unit.cores).filter fun c => (s.context c).state != .suspended).all fun c => (s.context c).state == .active)

/-! ## Rebuild (R454) -/

/-- Whether a memory serves another access: requests at the head of a slice's queue, and instructions that issued on its core in
the last cycle. -/
def State.serving (s : State) (u : MemoryUnit) : Bool :=
  if u.mem = 4 then (Store.vals s.mem.mesh).any fun q => q.stage == .queued && q.home == 16 * u.die + u.cluster
  else s.work.engines.any fun kv => kv.2.lastIssue == some (s.clock.cyc - 1) && kv.2.place.clusterId == 16 * u.die + u.cluster &&
    (u.core == 8 || kv.2.place.core == u.core)

/-- The memory whose rebuild takes its next word in this cycle, or whose retirement goes on. -/
def State.rebuildDue (s : State) : Option BankState :=
  s.repair.banks.find? fun b => s.retireReady b ||
    match b.rebuild with
    | some (_, t) => decide (t ≤ s.clock.cyc) && !s.serving b.unit
    | none => false

/-- The walk of a memory past its next word; after the last the spare replaces the failed bank. -/
def State.rebuildStep (s : State) (b : BankState) (next : Nat) : State :=
  if next + 1 < memoryWords b.unit.mem then s.setBanks { b with rebuild := some (next + 1, s.clock.cyc + 4) }
  else
    (s.setBanks { b with rebuild := none, failed := b.failed.drop 1, replaced := 1 }).recordAt b.unit 4 1 (b.failed.headD 0) 0

/-- REBUILD_WORD: one word reconstructed into the spare (R454), or the next step of a retirement. -/
def execRebuildWord (s : State) : Out :=
  match s.rebuildDue with
  | none => .next s
  | some b =>
    if s.retireReady b then .next (s.retire b)
    else match b.rebuild with
      | none => .next s
      | some (next, _) => .next (s.rebuildStep b next)

/-! ## Row sparing (R456) -/

/-- The row copy that takes its next word. -/
def State.rowDue (s : State) : Option RowSpare := s.repair.rows.find? fun r => !r.done && decide (r.nextAt ≤ s.clock.cyc)

/-- The lasting errors of a row, which its spare ends. -/
def State.endRow (s : State) (r : RowSpare) : State :=
  let banks := s.repair.banks.map fun b =>
    if b.unit.mem = 9 ∧ b.unit.die = r.die then { b with lasting := b.lasting.filter fun p => rowOf p.2 != (r.bank, r.row) } else b
  { s with repair := { s.repair with banks } }

/-- ROW_SPARE_COPY: one word copied from the old row, one per 16 cycles; when the walk ends, reads take the spare row and the row is
recorded (R456). -/
def execRowSpareCopy (s : State) : Out :=
  match s.rowDue with
  | none => .next s
  | some r =>
    let last := decide (Config.rowWords ≤ r.word + 1)
    let r' := { r with word := r.word + 1, nextAt := s.clock.cyc + 16, done := last }
    let s := { s with repair := { s.repair with rows := s.repair.rows.map fun x => if x = r then r' else x } }
    if last then
      .next ((s.endRow r).record r.die
        { kind := 5, cls := 1, mem := 9, bank := 0xFF, place := r.die % 4 + 8 * 64, addr := r.row, cyc := s.clock.cyc, count := 1 })
    else .next s

end Sys2Proof.Machine
end

