-- ==== Sys2Proof/Machine/Boot.lean ====
section
/-! DEFINITION. Boot, recovery, resets and the crash record; attestation; the throttle (R5, R462 to R466, R469, R472 to R475). -/

namespace Sys2Proof.Machine

/-! ## The image and the configuration record (R462, R463, R465) -/

/-- Whether bytes carry a signature under the firmware key: SIG stands at `at_` and covers the first `n` bytes. -/
def signed (b : List Byte) (n at_ : Nat) : Bool :=
  Config.ecdsaVerifies Config.retenKey (Config.sha384 (b.take n)) ((b.drop at_).take 96)

/-- Whether an image passes the boot ROM's checks against the lowest SVN accepted (R463). -/
def imageOk (b : List Byte) (svnmin : Nat) : Bool :=
  let len := fieldAt b 8 4
  fieldAt b 0 4 == 0x52455401 && decide (len ≤ 262144 - 512) && fieldAt b 0x10 48 == Config.sha384 ((b.drop 512).take len) &&
    signed b 0x40 0x40 && decide (svnmin ≤ fieldAt b 4 4)

/-- Whether a configuration record passes the boot ROM's checks, its reserved bytes among them (R10, R465). -/
def configOk (b : List Byte) : Bool :=
  fieldAt b 0 4 == 0x43464701 && fieldAt b 0x20 32 == 0 && fieldAt b 0x40 48 == Config.sha384 (b.take 0x40) && signed b 0x70 0x70

/-- A field of the configuration record in force. -/
def Boot.configField (b : Boot) (off n : Nat) : Nat := fieldAt b.config off n

/-- The boot ROM's checks of an image, with the configuration record in force. -/
def Boot.accepts (b : Boot) (image : List Byte) : Bool := configOk b.config && imageOk image (b.configField 4 4)

/-- Reten started with an image: the watchdog and the throttle's evaluations begin (R463, R466, R475). -/
def State.startReten (s : State) (image : List Byte) : State :=
  { s with
    boot := { s.boot with mode := .running, image, svn := fieldAt image 4 4 }
    clock := { s.clock with kick := s.clock.wall, evaluated := s.clock.wall } }

/-- BOOT_CHECK: the boot ROM checks the image in flash and starts it, or the device enters recovery with CAUSE 4 (R463, R465, R466). -/
def State.bootCheck (s : State) : State :=
  if s.boot.accepts s.boot.flashImage then s.startReten s.boot.flashImage
  else { s with boot := { s.boot with mode := .recovery, image := [], cause := 4 } }

/-! ## Resets (R5, R463, R466) -/

/-- COLD_RESET: the state of reset, with what flash holds and what stands outside the device, and then the boot ROM's steps; the
configuration record is read (R5, R335, R405, R463, R465, R466). -/
def execColdReset (s : State) : Out :=
  let b := { Boot.reset with flashImage := s.boot.flashImage, flashConfig := s.boot.flashConfig, config := s.boot.flashConfig }
  let fresh : State :=
    { State.reset with
      boot := b
      clock := { Clock.reset with ptime := s.clock.ptime + Config.ptime s.clock.wall }
      host := { HostIf.reset with wire := s.host.wire }
      repair := { Repair.reset with reads := s.repair.reads }
      freeCtr := s.freeCtr }
  .next fresh.bootCheck

/-- The error records of all dies, oldest first. -/
def State.allRecords (s : State) : List ErrorRecord :=
  sortBy (fun a b => decide (a.cyc ≤ b.cyc)) ((List.range 4).flatMap fun d => Store.get [] s.repair.rings d)

/-- The crash record written at a warm reset; the management core's program counter is a free value (R466). -/
def State.crash (s : State) (cause : Nat) : State :=
  let errs := s.allRecords
  { s with
    boot :=
      { s.boot with
        resets := (s.boot.resets + 1) % 2 ^ 32, cause, crashWall := s.clock.wall
        crashPc := (Config.freeValue s.freeCtr).toNat % 2 ^ 32, crashSvn := s.boot.svn
        crashErrs := errs.drop (errs.length - 32) }
    freeCtr := s.freeCtr + 1 }

/-- A launch that will have no completion update. -/
def State.mute (s : State) (ctx : Nat) : State :=
  let launches := s.launch.launches.mapKV fun _ (l : Launch) => if l.ctx = ctx then { l with donesig := 0, cbmap := 0 } else l
  { s with launch := { s.launch with launches } }

/-- A warm reset: the crash record is written, every context ends as KILL does but without its completion updates, and the boot ROM
checks the image again (R463, R466). -/
def State.warmReset (s : State) (cause : Nat) : State :=
  let s := s.crash cause
  let live := (s.liveContexts.filter fun kc => kc.2.state != .killing).map Prod.fst
  (live.foldl (fun s c => (s.mute c).killContext c) s).bootCheck

/-- RESET: a warm reset by the host's command, with CAUSE 1 (R466, R469). -/
def execReset (s : State) : Out := command s 0x16 anyEntry false [] fun _ => (s.answer 0 0).warmReset 1

/-- Whether Reten has not written its kick register for 2^24 wall cycles (R466). -/
def State.watchdogDue (s : State) : Bool := s.boot.mode == .running && decide (s.clock.kick + 2 ^ 24 ≤ s.clock.wall)

/-- WATCHDOG_TIMEOUT (R466). -/
def execWatchdogTimeout (s : State) : Out := .next (if s.watchdogDue then s.warmReset 2 else s)

/-- WATCHDOG_KICK: Reten writes its kick register (R466). -/
def execWatchdogKick (s : State) : Out := .next { s with clock := { s.clock with kick := s.clock.wall } }

/-- RETEN_FATAL: a reset with CAUSE 3 (R466). -/
def execRetenFatal (s : State) : Out := .next (s.warmReset 3)

/-! ## Recovery (R464, R465) -/

/-- Bytes of the recovery window. -/
def State.windowBytes (s : State) (n : Nat) : List Byte := (List.range n).map fun i => Store.get 0 s.boot.window i

/-- The bytes of a configuration record with its digest and signature. -/
def configBytes : Nat := 0x70 + 96

/-- RECOVER with an image: checked and run, and written to flash with PERSIST; status 2 where a check fails (R464). -/
def State.recoverImage (s : State) (persist : Bool) : State :=
  let image := s.windowBytes (512 + min (262144 - 512) (leValue ((s.windowBytes 12).drop 8)))
  if s.boot.accepts image then
    let s := if persist then { s with boot := { s.boot with flashImage := image } } else s
    (s.answer 0 0).startReten image
  else s.answer 2 0

/-- RECOVER with a configuration record: checked and taken, and written to flash with PERSIST; then the image in flash is checked
(R465). -/
def State.recoverConfig (s : State) (persist : Bool) : State :=
  let config := s.windowBytes configBytes
  if configOk config then
    let flash := if persist then config else s.boot.flashConfig
    let s := { s with boot := { s.boot with config, flashConfig := flash } }
    let s := s.answer 0 0
    if s.boot.accepts s.boot.flashImage then s.startReten s.boot.flashImage else s
  else s.answer 2 0

/-- RECOVER (R464, R465); outside recovery it is answered with status 3. -/
def execRecover (s : State) : Out :=
  match s.commandDue with
  | none => .next s
  | some b =>
    let f := entryField b 8 1
    if entryOp b ≠ 0x14 then .next s
    else if entryOk b false [(8, 1)] = false ∨ 4 ≤ f then .next (s.answer 1 0)
    else if s.boot.mode = .running then .next (s.answer 3 0)
    else if bit f 1 then .next (s.recoverConfig (bit f 0))
    else .next (s.recoverImage (bit f 0))

/-- The image of the crash record; Reten's trail has free contents (R466). -/
def State.crashImage (s : State) : List Byte × State :=
  let (trail, t) := s.deviceBytes 3040
  (leBytes 4 s.boot.resets ++ leBytes 1 s.boot.cause ++ leBytes 3 0 ++ leBytes 8 s.boot.crashWall ++ leBytes 4 s.boot.crashPc ++
    leBytes 4 s.boot.crashSvn ++ leBytes 8 0 ++ padTo 1024 (s.boot.crashErrs.flatMap ErrorRecord.image) ++ trail, t)

/-- CRASHREAD: the crash record copied to a host buffer (R466, R469). -/
def execCrashread (s : State) : Out :=
  command s 0x15 anyEntry false [(8, 8)] fun b =>
    if entryField b 8 8 % 64 ≠ 0 then s.answer 1 0
    else
      let (image, s) := s.crashImage
      (s.toHost (entryField b 8 8) image).answer 0 0

/-! ## Attestation (R472) -/

/-- An SPDM answer; its bytes belong to the protocol and its keys. -/
def State.spdm (s : State) (code : Nat) (req : List Byte) : State :=
  { s with host := { s.host with out := s.host.out ++ [.spdm code (Config.spdmAnswer req)] } }

/-- The measurements: the boot ROM, the running image with its SVN, and the configuration record. -/
def State.measurements (s : State) : List Byte :=
  leBytes 48 Config.bootRomDigest ++ (s.boot.image.drop 0x10).take 48 ++ leBytes 4 s.boot.svn ++ (s.boot.config.drop 0x40).take 48

/-- GET_VERSION (R472). -/
def execGetVersion (req : List Byte) (s : State) : Out := .next (s.spdm 0 req)

/-- GET_CAPABILITIES (R472). -/
def execGetCapabilities (req : List Byte) (s : State) : Out := .next (s.spdm 1 req)

/-- NEGOTIATE_ALGORITHMS (R472). -/
def execNegotiateAlgorithms (req : List Byte) (s : State) : Out := .next (s.spdm 2 req)

/-- GET_DIGESTS (R472). -/
def execGetDigests (req : List Byte) (s : State) : Out := .next (s.spdm 3 req)

/-- GET_CERTIFICATE (R472). -/
def execGetCertificate (req : List Byte) (s : State) : Out := .next (s.spdm 4 req)

/-- CHALLENGE (R472). -/
def execChallenge (req : List Byte) (s : State) : Out := .next (s.spdm 5 req)

/-- GET_MEASUREMENTS: the measurements stand before the bytes that the protocol fixes (R472). -/
def execGetMeasurements (req : List Byte) (s : State) : Out :=
  .next { s with host := { s.host with out := s.host.out ++ [.spdm 6 (s.measurements ++ Config.spdmAnswer req)] } }

/-- KEY_EXCHANGE: a session is set up (R472). -/
def execKeyExchange (req : List Byte) (s : State) : Out :=
  .next ({ s with boot := { s.boot with session := true } }.spdm 7 req)

/-- FINISH: the session is complete and sets the IDE keys (R426, R472). -/
def execFinish (req : List Byte) (s : State) : Out :=
  .next ({ s with boot := { s.boot with ideKeys := s.boot.ideKeys || s.boot.session } }.spdm 8 req)

/-! ## The throttle (R474, R475) -/

/-- The throttle level after an evaluation with a power P and a temperature (R475). -/
def nextThrottle (t p temp plimit tlimit : Nat) : Nat :=
  if plimit < p ∨ tlimit < temp then min 48 (t + max 1 ((64 * (p - plimit) + plimit - 1) / plimit))
  else if 100 * p < 95 * plimit ∧ temp + 50 < tlimit then t - 1
  else t

/-- Whether Reten evaluates the throttle level in this wall cycle. -/
def State.throttleDue (s : State) : Bool := s.boot.mode == .running && decide (s.clock.evaluated + 2 ^ 16 ≤ s.clock.wall)

/-- THROTTLE_EVALUATION (R475). -/
def execThrottleEvaluation (s : State) : Out :=
  if s.throttleDue then
    let w := s.clock.wall
    let t := nextThrottle s.clock.throttleNext (Config.power w) (Config.temperature w) (s.boot.configField 0x18 2)
      (s.boot.configField 0x1A 2)
    .next { s with clock := { s.clock with throttleNext := t, evaluated := w } }
  else .next s

/-- Whether a window of 64 wall cycles begins. -/
def State.windowDue (s : State) : Bool := s.clock.wall % 64 == 0 && s.clock.window != s.clock.wall

/-- THROTTLE_WINDOW_START: the level that Reten has set takes effect (R474). -/
def execThrottleWindowStart (s : State) : Out :=
  if s.windowDue then
    .next { s with clock := { s.clock with throttle := s.clock.throttleNext, window := s.clock.wall } }
  else .next s

end Sys2Proof.Machine
end

