-- ==== Sys2Proof/Machine/Fp.lean ====
section
/-! DEFINITION. Floating-point and conversion instructions (R122 to R139) and FCMP (R99). -/

namespace Sys2Proof.Machine

/-- D := an f32 result of S1 and S2 under the gang's rounding (R122). -/
def far2 (op : Rounding → Nat → Nat → FloatRes) (a b d : Nat) (e : Engine) (_ : Dword) (_ : Nat) (l : Lane) : Lane × Fx :=
  fop (fun l => op e.rounding (l.reg a).toNat (l.reg b).toNat) d l

/-- D := an f32 result of D, S1 and S2 (R124). -/
def far3 (op : Rounding → Nat → Nat → Nat → FloatRes) (a b d : Nat) (e : Engine) (_ : Dword) (_ : Nat) (l : Lane) : Lane × Fx :=
  fop (fun l => op e.rounding (l.reg d).toNat (l.reg a).toNat (l.reg b).toNat) d l

/-- D := a result of S1 (R128, R136). -/
def far1 (op : Rounding → Nat → FloatRes) (a d : Nat) (e : Engine) (_ : Dword) (_ : Nat) (l : Lane) : Lane × Fx :=
  fop (fun l => op e.rounding (l.reg a).toNat) d l

/-- Element k of a register divided into elements of w bits. -/
def element (w k v : Nat) : Nat := v / 2 ^ (w * k) % 2 ^ w

/-- A register of elements of w bits, from their results, with the OR of their flags (R34). -/
def packRes (w : Nat) (l : List FloatRes) : FloatRes :=
  ⟨(l.zipIdx.map fun p => p.1.code * 2 ^ (w * p.2)).sum, fxOr (l.map FloatRes.flags)⟩

/-- A packed operation on two 16-bit elements (R126). -/
def packed2 (op : Rounding → Nat → Nat → FloatRes) (r : Rounding) (x y : Nat) : FloatRes :=
  packRes 16 ((List.range 2).map fun k => op r (element 16 k x) (element 16 k y))

def packed3 (op : Rounding → Nat → Nat → Nat → FloatRes) (r : Rounding) (z x y : Nat) : FloatRes :=
  packRes 16 ((List.range 2).map fun k => op r (element 16 k z) (element 16 k x) (element 16 k y))

/-- The dot product of n elements of a format with an f32 accumulator (R127, R36). -/
def dotElems (f : FloatFmt) (n : Nat) (r : Rounding) (z x y : Nat) : FloatRes :=
  dotRound .f32 r [FloatFmt.f32.decode z]
    ((List.range n).map fun k => (f.decode (element f.width k x), f.decode (element f.width k y)))

/-- The integer dot product of four bytes (R127). -/
def idot (signed : Bool) (z x y : Word) : Word :=
  let b := fun (v : Word) k =>
    if signed then ((BitVec.ofNat 8 (element 8 k v.toNat)).toInt) else ((element 8 k v.toNat : Nat) : Int)
  z + BitVec.ofInt 32 (((List.range 4).map fun k => b x k * b y k).sum)

/-- FCMP (R99): the condition with U and the flag it raises. -/
def fcmpVal (cond : Nat) (u : Bool) (x y : Nat) : Bool × Fx :=
  let vx := FloatFmt.f32.decode x
  let vy := FloatFmt.f32.decode y
  if vx.isNan || vy.isNan then
    let sig := vx.isSignalling || vy.isSignalling
    (if cond = 1 then true else u, if sig || (decide (2 ≤ cond) && !u) then Fx.nv else Fx.none)
  else (condHolds cond (FloatFmt.f32.compare x y), Fx.none)

/-- FCMP in a lane: pd combined with the condition. -/
def fcmp (cond c : Nat) (u : Bool) (a b d : Nat) (_ : Engine) (_ : Dword) (_ : Nat) (l : Lane) : Lane × Fx :=
  let r := fcmpVal cond u (l.reg a).toNat (l.reg b).toNat
  (l.setPred d (combine c (l.pred d) r.1), r.2)

/-- FADD16: as the FARI form with D, D, S (R40). -/
def execFadd16 (s : Fin 32) (d : Fin 32) (st : State) : Out :=
  lanesFx (infoFadd16 s d) st (far2 (fAdd .f32) d s d)

/-- FSUB16: as the FARI form with D, D, S (R40). -/
def execFsub16 (s : Fin 32) (d : Fin 32) (st : State) : Out :=
  lanesFx (infoFsub16 s d) st (far2 (fSub .f32) d s d)

/-- FMUL16: as the FARI form with D, D, S (R40). -/
def execFmul16 (s : Fin 32) (d : Fin 32) (st : State) : Out :=
  lanesFx (infoFmul16 s d) st (far2 (fMul .f32) d s d)

/-- FMIN16: as the FARI form with D, D, S (R40). -/
def execFmin16 (s : Fin 32) (d : Fin 32) (st : State) : Out :=
  lanesFx (infoFmin16 s d) st (far2 (fun _ => fMinMax .f32 false) d s d)

/-- FMAX16: as the FARI form with D, D, S (R40). -/
def execFmax16 (s : Fin 32) (d : Fin 32) (st : State) : Out :=
  lanesFx (infoFmax16 s d) st (far2 (fun _ => fMinMax .f32 true) d s d)

/-- FCMP_EQ: pd combined with S1 eq S2 as f32 (R99). -/
def execFcmpEq (g : Guard) (c : Fin 4) (u : Fin 2) (b : Fin 64) (a : Fin 64) (d : Fin 8) (s : State) : Out :=
  lanesFx (infoFcmpEq g c u b a d) s (fcmp 0 c (u.val == 1) a b d)

/-- FCMP_NE: pd combined with S1 ne S2 as f32 (R99). -/
def execFcmpNe (g : Guard) (c : Fin 4) (b : Fin 64) (a : Fin 64) (d : Fin 8) (s : State) : Out :=
  lanesFx (infoFcmpNe g c b a d) s (fcmp 1 c false a b d)

/-- FCMP_LT: pd combined with S1 lt S2 as f32 (R99). -/
def execFcmpLt (g : Guard) (c : Fin 4) (u : Fin 2) (b : Fin 64) (a : Fin 64) (d : Fin 8) (s : State) : Out :=
  lanesFx (infoFcmpLt g c u b a d) s (fcmp 2 c (u.val == 1) a b d)

/-- FCMP_LE: pd combined with S1 le S2 as f32 (R99). -/
def execFcmpLe (g : Guard) (c : Fin 4) (u : Fin 2) (b : Fin 64) (a : Fin 64) (d : Fin 8) (s : State) : Out :=
  lanesFx (infoFcmpLe g c u b a d) s (fcmp 3 c (u.val == 1) a b d)

/-- FCMP_GT: pd combined with S1 gt S2 as f32 (R99). -/
def execFcmpGt (g : Guard) (c : Fin 4) (u : Fin 2) (b : Fin 64) (a : Fin 64) (d : Fin 8) (s : State) : Out :=
  lanesFx (infoFcmpGt g c u b a d) s (fcmp 4 c (u.val == 1) a b d)

/-- FCMP_GE: pd combined with S1 ge S2 as f32 (R99). -/
def execFcmpGe (g : Guard) (c : Fin 4) (u : Fin 2) (b : Fin 64) (a : Fin 64) (d : Fin 8) (s : State) : Out :=
  lanesFx (infoFcmpGe g c u b a d) s (fcmp 5 c (u.val == 1) a b d)

/-! ## FARI (R124, R125) -/

/-- FADD: by R123 (R124). -/
def execFadd (g : Guard) (b : Fin 64) (a : Fin 64) (d : Fin 64) (s : State) : Out :=
  lanesFx (infoFadd g b a d) s (far2 (fAdd .f32) a b d)

/-- FSUB: by R123 (R124). -/
def execFsub (g : Guard) (b : Fin 64) (a : Fin 64) (d : Fin 64) (s : State) : Out :=
  lanesFx (infoFsub g b a d) s (far2 (fSub .f32) a b d)

/-- FMUL: by R123 (R124). -/
def execFmul (g : Guard) (b : Fin 64) (a : Fin 64) (d : Fin 64) (s : State) : Out :=
  lanesFx (infoFmul g b a d) s (far2 (fMul .f32) a b d)

/-- FFMA: D + S1 × S2 with one rounding (R124). -/
def execFfma (g : Guard) (b : Fin 64) (a : Fin 64) (d : Fin 64) (s : State) : Out :=
  lanesFx (infoFfma g b a d) s (far3 (fFma .f32) a b d)

/-- FMIN: by R125. -/
def execFmin (g : Guard) (b : Fin 64) (a : Fin 64) (d : Fin 64) (s : State) : Out :=
  lanesFx (infoFmin g b a d) s (far2 (fun _ => fMinMax .f32 false) a b d)

/-- FMAX: by R125. -/
def execFmax (g : Guard) (b : Fin 64) (a : Fin 64) (d : Fin 64) (s : State) : Out :=
  lanesFx (infoFmax g b a d) s (far2 (fun _ => fMinMax .f32 true) a b d)

/-- FABS: bit [31] cleared (R124). -/
def execFabs (g : Guard) (a : Fin 64) (d : Fin 64) (s : State) : Out :=
  lanes (infoFabs g a d) s (op1 (fun x => x &&& 0x7FFFFFFF) a d)

/-- FNEG: bit [31] inverted (R124). -/
def execFneg (g : Guard) (a : Fin 64) (d : Fin 64) (s : State) : Out :=
  lanes (infoFneg g a d) s (op1 (fun x => x ^^^ 0x80000000) a d)

/-! ## FPK (R126) -/

/-- FADD_BF16X2: elements added (R126). -/
def execFaddBf16x2 (g : Guard) (b : Fin 64) (a : Fin 64) (d : Fin 64) (s : State) : Out :=
  lanesFx (infoFaddBf16x2 g b a d) s (far2 (packed2 (fAdd .bf16)) a b d)

/-- FMUL_BF16X2: elements multiplied (R126). -/
def execFmulBf16x2 (g : Guard) (b : Fin 64) (a : Fin 64) (d : Fin 64) (s : State) : Out :=
  lanesFx (infoFmulBf16x2 g b a d) s (far2 (packed2 (fMul .bf16)) a b d)

/-- FFMA_BF16X2: d + a × b by element (R126). -/
def execFfmaBf16x2 (g : Guard) (b : Fin 64) (a : Fin 64) (d : Fin 64) (s : State) : Out :=
  lanesFx (infoFfmaBf16x2 g b a d) s (far3 (packed3 (fFma .bf16)) a b d)

/-- FADD_F16X2: elements added (R126). -/
def execFaddF16x2 (g : Guard) (b : Fin 64) (a : Fin 64) (d : Fin 64) (s : State) : Out :=
  lanesFx (infoFaddF16x2 g b a d) s (far2 (packed2 (fAdd .f16)) a b d)

/-- FMUL_F16X2: elements multiplied (R126). -/
def execFmulF16x2 (g : Guard) (b : Fin 64) (a : Fin 64) (d : Fin 64) (s : State) : Out :=
  lanesFx (infoFmulF16x2 g b a d) s (far2 (packed2 (fMul .f16)) a b d)

/-- FFMA_F16X2: d + a × b by element (R126). -/
def execFfmaF16x2 (g : Guard) (b : Fin 64) (a : Fin 64) (d : Fin 64) (s : State) : Out :=
  lanesFx (infoFfmaF16x2 g b a d) s (far3 (packed3 (fFma .f16)) a b d)

/-- FMAX_BF16X2: by R125 on elements (R126). -/
def execFmaxBf16x2 (g : Guard) (b : Fin 64) (a : Fin 64) (d : Fin 64) (s : State) : Out :=
  lanesFx (infoFmaxBf16x2 g b a d) s (far2 (packed2 fun _ => fMinMax .bf16 true) a b d)

/-- FMIN_BF16X2: by R125 on elements (R126). -/
def execFminBf16x2 (g : Guard) (b : Fin 64) (a : Fin 64) (d : Fin 64) (s : State) : Out :=
  lanesFx (infoFminBf16x2 g b a d) s (far2 (packed2 fun _ => fMinMax .bf16 false) a b d)

/-! ## FDOT (R127) -/

/-- DOT2_BF16: D + Σ a × b, rounded once (R127). -/
def execDot2Bf16 (g : Guard) (b : Fin 64) (a : Fin 64) (d : Fin 64) (s : State) : Out :=
  lanesFx (infoDot2Bf16 g b a d) s (far3 (dotElems .bf16 2) a b d)

/-- DOT2_F16: D + Σ a × b, rounded once (R127). -/
def execDot2F16 (g : Guard) (b : Fin 64) (a : Fin 64) (d : Fin 64) (s : State) : Out :=
  lanesFx (infoDot2F16 g b a d) s (far3 (dotElems .f16 2) a b d)

/-- DOT4_E4M3: D + Σ a × b, rounded once (R127). -/
def execDot4E4m3 (g : Guard) (b : Fin 64) (a : Fin 64) (d : Fin 64) (s : State) : Out :=
  lanesFx (infoDot4E4m3 g b a d) s (far3 (dotElems .e4m3 4) a b d)

/-- DOT4_E5M2: D + Σ a × b, rounded once (R127). -/
def execDot4E5m2 (g : Guard) (b : Fin 64) (a : Fin 64) (d : Fin 64) (s : State) : Out :=
  lanesFx (infoDot4E5m2 g b a d) s (far3 (dotElems .e5m2 4) a b d)

/-- DOT8_E2M1: D + Σ a × b, rounded once (R127). -/
def execDot8E2m1 (g : Guard) (b : Fin 64) (a : Fin 64) (d : Fin 64) (s : State) : Out :=
  lanesFx (infoDot8E2m1 g b a d) s (far3 (dotElems .e2m1 8) a b d)

/-- IDOT4_S8: the integer dot product, modulo 2^32 (R127). -/
def execIdot4S8 (g : Guard) (b : Fin 64) (a : Fin 64) (d : Fin 64) (s : State) : Out :=
  lanes (infoIdot4S8 g b a d) s (op3 (idot true) a b d)

/-- IDOT4_N8: the integer dot product, modulo 2^32 (R127). -/
def execIdot4N8 (g : Guard) (b : Fin 64) (a : Fin 64) (d : Fin 64) (s : State) : Out :=
  lanes (infoIdot4N8 g b a d) s (op3 (idot false) a b d)

/-! ## SFU (R128, R129) -/

/-- RCP: under FPM.RM (R128). -/
def execRcp (g : Guard) (a : Fin 64) (d : Fin 64) (s : State) : Out :=
  lanesFx (infoRcp g a d) s (far1 sfuRcp a d)

/-- SQRT: under FPM.RM (R128). -/
def execSqrt (g : Guard) (a : Fin 64) (d : Fin 64) (s : State) : Out :=
  lanesFx (infoSqrt g a d) s (far1 sfuSqrt a d)

/-- RSQ: under rne (R128). -/
def execRsq (g : Guard) (a : Fin 64) (d : Fin 64) (s : State) : Out :=
  lanesFx (infoRsq g a d) s (far1 (fun _ => sfuRsq) a d)

/-- EXP2: under rne (R128). -/
def execExp2 (g : Guard) (a : Fin 64) (d : Fin 64) (s : State) : Out :=
  lanesFx (infoExp2 g a d) s (far1 (fun _ => sfuExp2) a d)

/-- LOG2: under rne (R128). -/
def execLog2 (g : Guard) (a : Fin 64) (d : Fin 64) (s : State) : Out :=
  lanesFx (infoLog2 g a d) s (far1 (fun _ => sfuLog2) a d)

/-- SIN: under rne (R128). -/
def execSin (g : Guard) (a : Fin 64) (d : Fin 64) (s : State) : Out :=
  lanesFx (infoSin g a d) s (far1 (fun _ => sfuSin) a d)

/-- COS: under rne (R128). -/
def execCos (g : Guard) (a : Fin 64) (d : Fin 64) (s : State) : Out :=
  lanesFx (infoCos g a d) s (far1 (fun _ => sfuCos) a d)

/-- TANH: under rne (R128). -/
def execTanh (g : Guard) (a : Fin 64) (d : Fin 64) (s : State) : Out :=
  lanesFx (infoTanh g a d) s (far1 (fun _ => sfuTanh) a d)

/-! ## FCVT (R130, R131) -/

/-- The rounding of an FCVT minor (R49). -/
def cvtMode (r : Nat) : RoundMode :=
  match r with
  | 0 => .rne | 1 => .rz | 2 => .rd | 3 => .ru | 4 => .sd | 5 => .rneSat | 6 => .sdSat | _ => .rna

/-- FPM with DPH advanced by one, modulo 8 (R27). -/
def nextDph (fpm : Word) : Word := BitVec.ofNat 32 (setBits fpm.toNat 10 8 (fpm.toNat / 256 + 1))

/-- Whether a rounding dithers (R24). -/
def RoundMode.dithers : RoundMode → Bool
  | .sd | .sdSat => true
  | _ => false

/-- FCVT: S1 converted between formats; a dithered minor advances FPM.DPH (R130, R131). -/
def execFcvt (g : Guard) (r : Fin 8) (e : Fin 8) (s : Fin 8) (a : Fin 64) (d : Fin 64) (st : State) : Out :=
  lanesFx (infoFcvt g r e s a d) st (fun en _ k l =>
      fop (fun l => fcvt (cvtFmt e) (cvtFmt s) ⟨cvtMode r, k % 8, en.dph⟩ (l.reg a).toNat) d l)
    fun en => if (cvtMode r).dithers then { en with fpm := nextDph en.fpm } else en

/-! ## QPK (R132 to R135) -/

/-- The source of each lane of a group, +0 where the lane does not execute the instruction (R132). -/
def groupSources (e : Engine) (live : Dword) (n k a : Nat) : List Nat :=
  (List.range n).map fun j =>
    let lane := k / n * n + j
    if live.getLsbD lane && (e.lanes.find? lane).isSome then ((e.lane lane).reg a).toNat else 0

/-- The greater of two magnitudes m × 2^e. -/
def maxMag (x y : Nat × Int) : Nat × Int :=
  let lo := min x.2 y.2
  if x.1 * 2 ^ (x.2 - lo).toNat < y.1 * 2 ^ (y.2 - lo).toNat then y else x

/-- The scale code of a group (R133). -/
def qScale (xs : List Nat) : Nat :=
  let mags := xs.filterMap fun x => match FloatFmt.f32.decode x with
    | .num _ m e => some (m, e)
    | _ => none
  let (m, e) := mags.foldl maxMag (0, 0)
  e3m5Least m e 256 0

/-- The e2m1 code of an element under a scale code (R133). -/
def qElem (sc x : Nat) : FloatRes :=
  match FloatFmt.f32.decode x with
  | .nan _ => ⟨0, Fx.nv⟩
  | .inf n => ⟨if n then 0xF else 0x7, Fx.nv⟩
  | .num n m e =>
    let (sm, se) := e3m5 sc
    if sm = 0 ∨ m = 0 then ⟨if n then 0x8 else 0, Fx.none⟩
    else
      let q := ratNum m sm (e - se)
      roundNum .e2m1 (.plain .rne) n q.1 q.2

/-- QENC_E2M1: eight lanes encoded as one q4 block (R133). -/
def execQencE2m1 (g : Guard) (a : Fin 64) (d : Fin 64) (s : State) : Out :=
  lanesFx (infoQencE2m1 g a d) s fun e live k l =>
    let xs := groupSources e live 8 k a
    let sc := qScale xs
    let w := (xs.zipIdx.map fun p => (qElem sc p.1).code * 16 ^ p.2).sum
    ((l.setReg d (BitVec.ofNat 32 w)).setReg (d.val + 1) (BitVec.ofNat 32 sc), (qElem sc (l.reg a).toNat).flags)

/-- QDEC_E2M1: an element of S1 times its scale, exactly (R134). -/
def execQdecE2m1 (g : Guard) (b : Fin 64) (a : Fin 64) (d : Fin 64) (s : State) : Out :=
  lanesFx (infoQdecE2m1 g b a d) s fun _ _ k l =>
    let v := FloatFmt.e2m1.decode (element 4 (k % 8) (l.reg a).toNat)
    let (sm, se) := e3m5 ((l.reg b).toNat % 256)
    let r := match v with
      | .num n m e => roundNum .f32 (.plain .rne) n (m * sm) (e + se)
      | _ => ⟨0, Fx.none⟩
    (l.setReg d (BitVec.ofNat 32 r.code), Fx.none)

/-- A packing form: each element of the group's sources rounded to a format, and the lane's own flags (R135). -/
def packForm (f : FloatFmt) (n : Nat) (sat : Bool) (a d : Nat) (e : Engine) (live : Dword) (k : Nat) (l : Lane) : Lane × Fx :=
  let one := fun x =>
    let r := cvtVal (.float f) e.rounding (FloatFmt.f32.decode x)
    if sat then
      match FloatFmt.f32.decode x with
      | .nan sig => f.nanRes sig
      | .inf neg => ⟨f.withSign neg f.maxCode, Fx.nx⟩
      | .num neg _ _ =>
        if r.flags &&& Fx.of != 0 then ⟨f.withSign neg f.maxCode, r.flags⟩ else r
    else r
  let xs := groupSources e live n k a
  let w := (xs.zipIdx.map fun p => (one p.1).code * 2 ^ (f.width * p.2)).sum
  (l.setReg d (BitVec.ofNat 32 w), (one (l.reg a).toNat).flags)

/-- An unpacking form: byte k of the lane's own register as f32 (R135). -/
def unpackForm (f : FloatFmt) (a d : Nat) (_ : Engine) (_ : Dword) (k : Nat) (l : Lane) : Lane × Fx :=
  fop (fun l => cvtVal (.float .f32) (.plain .rne) (f.decode (element 8 (k % 4) (l.reg a).toNat))) d l

/-- PK2_BF16: 2 lanes packed into one word (R135). -/
def execPk2Bf16 (g : Guard) (a : Fin 64) (d : Fin 64) (s : State) : Out :=
  lanesFx (infoPk2Bf16 g a d) s (packForm .bf16 2 false a d)

/-- PK2_F16: 2 lanes packed into one word (R135). -/
def execPk2F16 (g : Guard) (a : Fin 64) (d : Fin 64) (s : State) : Out :=
  lanesFx (infoPk2F16 g a d) s (packForm .f16 2 false a d)

/-- PK4_E4M3: 4 lanes packed into one word (R135). -/
def execPk4E4m3 (g : Guard) (a : Fin 64) (d : Fin 64) (s : State) : Out :=
  lanesFx (infoPk4E4m3 g a d) s (packForm .e4m3 4 true a d)

/-- PK4_E5M2: 4 lanes packed into one word (R135). -/
def execPk4E5m2 (g : Guard) (a : Fin 64) (d : Fin 64) (s : State) : Out :=
  lanesFx (infoPk4E5m2 g a d) s (packForm .e5m2 4 true a d)

/-- UNPK_E4M3: a byte converted exactly (R135). -/
def execUnpkE4m3 (g : Guard) (a : Fin 64) (d : Fin 64) (s : State) : Out :=
  lanesFx (infoUnpkE4m3 g a d) s (unpackForm .e4m3 a d)

/-- UNPK_E5M2: a byte converted exactly (R135). -/
def execUnpkE5m2 (g : Guard) (a : Fin 64) (d : Fin 64) (s : State) : Out :=
  lanesFx (infoUnpkE5m2 g a d) s (unpackForm .e5m2 a d)

/-! ## FMISC (R136 to R138) -/

/-- FCLASS: the class bit (R137). -/
def execFclass (g : Guard) (a : Fin 64) (d : Fin 64) (s : State) : Out :=
  lanes (infoFclass g a d) s (op1 (fun x => BitVec.ofNat 32 (fclass x.toNat)) a d)

/-- FRND: rounded to an integral f32 (R136). -/
def execFrnd (g : Guard) (a : Fin 64) (d : Fin 64) (s : State) : Out :=
  lanesFx (infoFrnd g a d) s (far1 frnd a d)

/-- FGETEXP: ⌊log₂ |a|⌋ (R136, R138). -/
def execFgetexp (g : Guard) (a : Fin 64) (d : Fin 64) (s : State) : Out :=
  lanesFx (infoFgetexp g a d) s (far1 (fun _ => fgetexp) a d)

/-- FSCALE: a × 2^n, rounded (R136). -/
def execFscale (g : Guard) (b : Fin 64) (a : Fin 64) (d : Fin 64) (s : State) : Out :=
  lanesFx (infoFscale g b a d) s (far2 (fun r x n => fscale r x (BitVec.ofNat 32 n).toInt) a b d)

/-- FCOPYSIGN: bit [31] of S2 (R136). -/
def execFcopysign (g : Guard) (b : Fin 64) (a : Fin 64) (d : Fin 64) (s : State) : Out :=
  lanes (infoFcopysign g b a d) s (op2 (fun x y => (x &&& 0x7FFFFFFF) ||| (y &&& 0x80000000)) a b d)

/-- FSAT: clamped to [+0, 1.0] (R136). -/
def execFsat (g : Guard) (a : Fin 64) (d : Fin 64) (s : State) : Out :=
  lanesFx (infoFsat g a d) s (far1 (fun _ => fsat) a d)

end Sys2Proof.Machine
end

