-- ==== Sys2Proof/Machine/Dispatch.lean ====
section
/-! DEFINITION. One arm for each constructor of Instr. -/

namespace Sys2Proof.Machine

def exec (i : Instr) (s : State) : Host.Outcome State Fault Refusal :=
  match i with
  | .add16 s1 d => Sys2Proof.Machine.execAdd16 s1 d s
  | .sub16 s1 d => Sys2Proof.Machine.execSub16 s1 d s
  | .and16 s1 d => Sys2Proof.Machine.execAnd16 s1 d s
  | .or16 s1 d => Sys2Proof.Machine.execOr16 s1 d s
  | .xor16 s1 d => Sys2Proof.Machine.execXor16 s1 d s
  | .shl16 s1 d => Sys2Proof.Machine.execShl16 s1 d s
  | .shr16 s1 d => Sys2Proof.Machine.execShr16 s1 d s
  | .sar16 s1 d => Sys2Proof.Machine.execSar16 s1 d s
  | .mov16 s1 d => Sys2Proof.Machine.execMov16 s1 d s
  | .movi5 i1 d => Sys2Proof.Machine.execMovi5 i1 d s
  | .fadd16 s1 d => Sys2Proof.Machine.execFadd16 s1 d s
  | .fsub16 s1 d => Sys2Proof.Machine.execFsub16 s1 d s
  | .fmul16 s1 d => Sys2Proof.Machine.execFmul16 s1 d s
  | .fmin16 s1 d => Sys2Proof.Machine.execFmin16 s1 d s
  | .fmax16 s1 d => Sys2Proof.Machine.execFmax16 s1 d s
  | .addi5 i1 d => Sys2Proof.Machine.execAddi5 i1 d s
  | .guardNop z m => Sys2Proof.Machine.execGuardNop z m s
  | .add g b a d => Sys2Proof.Machine.execAdd g b a d s
  | .sub g b a d => Sys2Proof.Machine.execSub g b a d s
  | .addc g b a d => Sys2Proof.Machine.execAddc g b a d s
  | .subb g b a d => Sys2Proof.Machine.execSubb g b a d s
  | .minS32 g b a d => Sys2Proof.Machine.execMinS32 g b a d s
  | .maxS32 g b a d => Sys2Proof.Machine.execMaxS32 g b a d s
  | .minN32 g b a d => Sys2Proof.Machine.execMinN32 g b a d s
  | .maxN32 g b a d => Sys2Proof.Machine.execMaxN32 g b a d s
  | .mul g b a d => Sys2Proof.Machine.execMul g b a d s
  | .mulhiS32 g b a d => Sys2Proof.Machine.execMulhiS32 g b a d s
  | .mulhiN32 g b a d => Sys2Proof.Machine.execMulhiN32 g b a d s
  | .mad g b a d => Sys2Proof.Machine.execMad g b a d s
  | .divS32 g b a d => Sys2Proof.Machine.execDivS32 g b a d s
  | .divN32 g b a d => Sys2Proof.Machine.execDivN32 g b a d s
  | .remS32 g b a d => Sys2Proof.Machine.execRemS32 g b a d s
  | .remN32 g b a d => Sys2Proof.Machine.execRemN32 g b a d s
  | .and g b a d => Sys2Proof.Machine.execAnd g b a d s
  | .or g b a d => Sys2Proof.Machine.execOr g b a d s
  | .xor g b a d => Sys2Proof.Machine.execXor g b a d s
  | .andn g b a d => Sys2Proof.Machine.execAndn g b a d s
  | .orn g b a d => Sys2Proof.Machine.execOrn g b a d s
  | .xnor g b a d => Sys2Proof.Machine.execXnor g b a d s
  | .not g a d => Sys2Proof.Machine.execNot g a d s
  | .mov g a d => Sys2Proof.Machine.execMov g a d s
  | .shl g b a d => Sys2Proof.Machine.execShl g b a d s
  | .shr g b a d => Sys2Proof.Machine.execShr g b a d s
  | .sar g b a d => Sys2Proof.Machine.execSar g b a d s
  | .rotl g b a d => Sys2Proof.Machine.execRotl g b a d s
  | .rotr g b a d => Sys2Proof.Machine.execRotr g b a d s
  | .bfeN32 g b a d => Sys2Proof.Machine.execBfeN32 g b a d s
  | .bfeS32 g b a d => Sys2Proof.Machine.execBfeS32 g b a d s
  | .bfi g b a d => Sys2Proof.Machine.execBfi g b a d s
  | .popc g a d => Sys2Proof.Machine.execPopc g a d s
  | .clz g a d => Sys2Proof.Machine.execClz g a d s
  | .ctz g a d => Sys2Proof.Machine.execCtz g a d s
  | .brev g a d => Sys2Proof.Machine.execBrev g a d s
  | .bperm g b a d => Sys2Proof.Machine.execBperm g b a d s
  | .abs g a d => Sys2Proof.Machine.execAbs g a d s
  | .neg g a d => Sys2Proof.Machine.execNeg g a d s
  | .sext g b a d => Sys2Proof.Machine.execSext g b a d s
  | .addi g i1 a d => Sys2Proof.Machine.execAddi g i1 a d s
  | .shlImm g i1 a d => Sys2Proof.Machine.execShlImm g i1 a d s
  | .shrImm g i1 a d => Sys2Proof.Machine.execShrImm g i1 a d s
  | .sarImm g i1 a d => Sys2Proof.Machine.execSarImm g i1 a d s
  | .rotlImm g i1 a d => Sys2Proof.Machine.execRotlImm g i1 a d s
  | .movl g i1 d => Sys2Proof.Machine.execMovl g i1 d s
  | .movh g i1 d => Sys2Proof.Machine.execMovh g i1 d s
  | .add64 g b a d => Sys2Proof.Machine.execAdd64 g b a d s
  | .sub64 g b a d => Sys2Proof.Machine.execSub64 g b a d s
  | .mul64lo g b a d => Sys2Proof.Machine.execMul64lo g b a d s
  | .mulwS32 g b a d => Sys2Proof.Machine.execMulwS32 g b a d s
  | .mulwN32 g b a d => Sys2Proof.Machine.execMulwN32 g b a d s
  | .shl64 g b a d => Sys2Proof.Machine.execShl64 g b a d s
  | .shr64 g b a d => Sys2Proof.Machine.execShr64 g b a d s
  | .sar64 g b a d => Sys2Proof.Machine.execSar64 g b a d s
  | .icmpEq g c b a d => Sys2Proof.Machine.execIcmpEq g c b a d s
  | .icmpNe g c b a d => Sys2Proof.Machine.execIcmpNe g c b a d s
  | .icmpLt g c s1 b a d => Sys2Proof.Machine.execIcmpLt g c s1 b a d s
  | .icmpLe g c s1 b a d => Sys2Proof.Machine.execIcmpLe g c s1 b a d s
  | .icmpGt g c s1 b a d => Sys2Proof.Machine.execIcmpGt g c s1 b a d s
  | .icmpGe g c s1 b a d => Sys2Proof.Machine.execIcmpGe g c s1 b a d s
  | .fcmpEq g c u b a d => Sys2Proof.Machine.execFcmpEq g c u b a d s
  | .fcmpNe g c b a d => Sys2Proof.Machine.execFcmpNe g c b a d s
  | .fcmpLt g c u b a d => Sys2Proof.Machine.execFcmpLt g c u b a d s
  | .fcmpLe g c u b a d => Sys2Proof.Machine.execFcmpLe g c u b a d s
  | .fcmpGt g c u b a d => Sys2Proof.Machine.execFcmpGt g c u b a d s
  | .fcmpGe g c u b a d => Sys2Proof.Machine.execFcmpGe g c u b a d s
  | .pand g b a d => Sys2Proof.Machine.execPand g b a d s
  | .por g b a d => Sys2Proof.Machine.execPor g b a d s
  | .pxor g b a d => Sys2Proof.Machine.execPxor g b a d s
  | .pandn g b a d => Sys2Proof.Machine.execPandn g b a d s
  | .pnot g a d => Sys2Proof.Machine.execPnot g a d s
  | .p2g g d => Sys2Proof.Machine.execP2g g d s
  | .g2p g a => Sys2Proof.Machine.execG2p g a s
  | .pset g a d => Sys2Proof.Machine.execPset g a d s
  | .voteAnyP g b a d => Sys2Proof.Machine.execVoteAnyP g b a d s
  | .voteAllP g b a d => Sys2Proof.Machine.execVoteAllP g b a d s
  | .voteCountP g b a d => Sys2Proof.Machine.execVoteCountP g b a d s
  | .voteBallotP g b a d => Sys2Proof.Machine.execVoteBallotP g b a d s
  | .voteAnyFx g b a d => Sys2Proof.Machine.execVoteAnyFx g b a d s
  | .voteAllFx g b a d => Sys2Proof.Machine.execVoteAllFx g b a d s
  | .voteCountFx g b a d => Sys2Proof.Machine.execVoteCountFx g b a d s
  | .voteBallotFx g b a d => Sys2Proof.Machine.execVoteBallotFx g b a d s
  | .fxrd g d => Sys2Proof.Machine.execFxrd g d s
  | .fxclr g b => Sys2Proof.Machine.execFxclr g b s
  | .fxor g a => Sys2Proof.Machine.execFxor g a s
  | .fxtest g b d => Sys2Proof.Machine.execFxtest g b d s
  | .shflIdx g m b a d => Sys2Proof.Machine.execShflIdx g m b a d s
  | .shflUp g m b a d => Sys2Proof.Machine.execShflUp g m b a d s
  | .shflDown g m b a d => Sys2Proof.Machine.execShflDown g m b a d s
  | .shflXor g m b a d => Sys2Proof.Machine.execShflXor g m b a d s
  | .xredAdd g m b a d => Sys2Proof.Machine.execXredAdd g m b a d s
  | .xredMin g m b a d => Sys2Proof.Machine.execXredMin g m b a d s
  | .xredMax g m b a d => Sys2Proof.Machine.execXredMax g m b a d s
  | .xredLogic g m b a d => Sys2Proof.Machine.execXredLogic g m b a d s
  | .xscanAddInc g m b a d => Sys2Proof.Machine.execXscanAddInc g m b a d s
  | .xscanAddExc g m b a d => Sys2Proof.Machine.execXscanAddExc g m b a d s
  | .xscanMaxInc g m b a d => Sys2Proof.Machine.execXscanMaxInc g m b a d s
  | .xscanMaxExc g m b a d => Sys2Proof.Machine.execXscanMaxExc g m b a d s
  | .sadd g b a d => Sys2Proof.Machine.execSadd g b a d s
  | .ssub g b a d => Sys2Proof.Machine.execSsub g b a d s
  | .sand g b a d => Sys2Proof.Machine.execSand g b a d s
  | .sor g b a d => Sys2Proof.Machine.execSor g b a d s
  | .sshl g b a d => Sys2Proof.Machine.execSshl g b a d s
  | .sshr g b a d => Sys2Proof.Machine.execSshr g b a d s
  | .s2g g a d => Sys2Proof.Machine.execS2g g a d s
  | .g2s g a d => Sys2Proof.Machine.execG2s g a d s
  | .sv g a d => Sys2Proof.Machine.execSv g a d s
  | .mset g a d => Sys2Proof.Machine.execMset g a d s
  | .mget g a d => Sys2Proof.Machine.execMget g a d s
  | .mand g b a d => Sys2Proof.Machine.execMand g b a d s
  | .mor g b a d => Sys2Proof.Machine.execMor g b a d s
  | .mfromp g a d => Sys2Proof.Machine.execMfromp g a d s
  | .fadd g b a d => Sys2Proof.Machine.execFadd g b a d s
  | .fsub g b a d => Sys2Proof.Machine.execFsub g b a d s
  | .fmul g b a d => Sys2Proof.Machine.execFmul g b a d s
  | .ffma g b a d => Sys2Proof.Machine.execFfma g b a d s
  | .fmin g b a d => Sys2Proof.Machine.execFmin g b a d s
  | .fmax g b a d => Sys2Proof.Machine.execFmax g b a d s
  | .fabs g a d => Sys2Proof.Machine.execFabs g a d s
  | .fneg g a d => Sys2Proof.Machine.execFneg g a d s
  | .faddBf16x2 g b a d => Sys2Proof.Machine.execFaddBf16x2 g b a d s
  | .fmulBf16x2 g b a d => Sys2Proof.Machine.execFmulBf16x2 g b a d s
  | .ffmaBf16x2 g b a d => Sys2Proof.Machine.execFfmaBf16x2 g b a d s
  | .faddF16x2 g b a d => Sys2Proof.Machine.execFaddF16x2 g b a d s
  | .fmulF16x2 g b a d => Sys2Proof.Machine.execFmulF16x2 g b a d s
  | .ffmaF16x2 g b a d => Sys2Proof.Machine.execFfmaF16x2 g b a d s
  | .fmaxBf16x2 g b a d => Sys2Proof.Machine.execFmaxBf16x2 g b a d s
  | .fminBf16x2 g b a d => Sys2Proof.Machine.execFminBf16x2 g b a d s
  | .dot2Bf16 g b a d => Sys2Proof.Machine.execDot2Bf16 g b a d s
  | .dot2F16 g b a d => Sys2Proof.Machine.execDot2F16 g b a d s
  | .dot4E4m3 g b a d => Sys2Proof.Machine.execDot4E4m3 g b a d s
  | .dot4E5m2 g b a d => Sys2Proof.Machine.execDot4E5m2 g b a d s
  | .dot8E2m1 g b a d => Sys2Proof.Machine.execDot8E2m1 g b a d s
  | .idot4S8 g b a d => Sys2Proof.Machine.execIdot4S8 g b a d s
  | .idot4N8 g b a d => Sys2Proof.Machine.execIdot4N8 g b a d s
  | .rcp g a d => Sys2Proof.Machine.execRcp g a d s
  | .rsq g a d => Sys2Proof.Machine.execRsq g a d s
  | .sqrt g a d => Sys2Proof.Machine.execSqrt g a d s
  | .exp2 g a d => Sys2Proof.Machine.execExp2 g a d s
  | .log2 g a d => Sys2Proof.Machine.execLog2 g a d s
  | .sin g a d => Sys2Proof.Machine.execSin g a d s
  | .cos g a d => Sys2Proof.Machine.execCos g a d s
  | .tanh g a d => Sys2Proof.Machine.execTanh g a d s
  | .fcvt g r e s1 a d => Sys2Proof.Machine.execFcvt g r e s1 a d s
  | .qencE2m1 g a d => Sys2Proof.Machine.execQencE2m1 g a d s
  | .qdecE2m1 g b a d => Sys2Proof.Machine.execQdecE2m1 g b a d s
  | .pk2Bf16 g a d => Sys2Proof.Machine.execPk2Bf16 g a d s
  | .pk2F16 g a d => Sys2Proof.Machine.execPk2F16 g a d s
  | .pk4E4m3 g a d => Sys2Proof.Machine.execPk4E4m3 g a d s
  | .pk4E5m2 g a d => Sys2Proof.Machine.execPk4E5m2 g a d s
  | .unpkE4m3 g a d => Sys2Proof.Machine.execUnpkE4m3 g a d s
  | .unpkE5m2 g a d => Sys2Proof.Machine.execUnpkE5m2 g a d s
  | .fclass g a d => Sys2Proof.Machine.execFclass g a d s
  | .frnd g a d => Sys2Proof.Machine.execFrnd g a d s
  | .fgetexp g a d => Sys2Proof.Machine.execFgetexp g a d s
  | .fscale g b a d => Sys2Proof.Machine.execFscale g b a d s
  | .fcopysign g b a d => Sys2Proof.Machine.execFcopysign g b a d s
  | .fsat g a d => Sys2Proof.Machine.execFsat g a d s
  | .ld g z s1 q x h d => Sys2Proof.Machine.execLd g z s1 q x h d s
  | .ldi g z i1 h d => Sys2Proof.Machine.execLdi g z i1 h d s
  | .ldv g z v x h d => Sys2Proof.Machine.execLdv g z v x h d s
  | .st g z r x h d => Sys2Proof.Machine.execSt g z r x h d s
  | .sti g z i1 h d => Sys2Proof.Machine.execSti g z i1 h d s
  | .pref g x h => Sys2Proof.Machine.execPref g x h s
  | .touch g x h => Sys2Proof.Machine.execTouch g x h s
  | .probe g x h d => Sys2Proof.Machine.execProbe g x h d s
  | .farAddS32 g t x h d => Sys2Proof.Machine.execFarAddS32 g t x h d s
  | .farAddF32 g t x h d => Sys2Proof.Machine.execFarAddF32 g t x h d s
  | .farAddBf16x2 g t x h d => Sys2Proof.Machine.execFarAddBf16x2 g t x h d s
  | .farMinS32 g t x h d => Sys2Proof.Machine.execFarMinS32 g t x h d s
  | .farMaxS32 g t x h d => Sys2Proof.Machine.execFarMaxS32 g t x h d s
  | .farMinN32 g t x h d => Sys2Proof.Machine.execFarMinN32 g t x h d s
  | .farMaxN32 g t x h d => Sys2Proof.Machine.execFarMaxN32 g t x h d s
  | .farMinF32 g t x h d => Sys2Proof.Machine.execFarMinF32 g t x h d s
  | .farMaxF32 g t x h d => Sys2Proof.Machine.execFarMaxF32 g t x h d s
  | .farAnd g t x h d => Sys2Proof.Machine.execFarAnd g t x h d s
  | .farOr g t x h d => Sys2Proof.Machine.execFarOr g t x h d s
  | .farXor g t x h d => Sys2Proof.Machine.execFarXor g t x h d s
  | .farExch g t x h d => Sys2Proof.Machine.execFarExch g t x h d s
  | .farCas g t x h d => Sys2Proof.Machine.execFarCas g t x h d s
  | .farIncWrap g t x h d => Sys2Proof.Machine.execFarIncWrap g t x h d s
  | .farDecWrap g t x h d => Sys2Proof.Machine.execFarDecWrap g t x h d s
  | .faroAddS32 g w x h d => Sys2Proof.Machine.execFaroAddS32 g w x h d s
  | .faroExchB32 g w x h d => Sys2Proof.Machine.execFaroExchB32 g w x h d s
  | .faroCasB32 g w x h d => Sys2Proof.Machine.execFaroCasB32 g w x h d s
  | .faroAddN64 g w x h d => Sys2Proof.Machine.execFaroAddN64 g w x h d s
  | .faroExchB64 g w x h d => Sys2Proof.Machine.execFaroExchB64 g w x h d s
  | .faroCasB64 g w x h d => Sys2Proof.Machine.execFaroCasB64 g w x h d s
  | .faroMinN64 g w x h d => Sys2Proof.Machine.execFaroMinN64 g w x h d s
  | .faroMaxN64 g w x h d => Sys2Proof.Machine.execFaroMaxN64 g w x h d s
  | .sigAdd g x h d => Sys2Proof.Machine.execSigAdd g x h d s
  | .sigMax g x h d => Sys2Proof.Machine.execSigMax g x h d s
  | .sigWaitGe g x h d => Sys2Proof.Machine.execSigWaitGe g x h d s
  | .sigWaitEq g x h d => Sys2Proof.Machine.execSigWaitEq g x h d s
  | .sigTest g x h d => Sys2Proof.Machine.execSigTest g x h d s
  | .borrowX g x s1 h => Sys2Proof.Machine.execBorrowX g x s1 h s
  | .borrowS g x s1 h => Sys2Proof.Machine.execBorrowS g x s1 h s
  | .borrowXTry g k x s1 h => Sys2Proof.Machine.execBorrowXTry g k x s1 h s
  | .borrowSTry g k x s1 h => Sys2Proof.Machine.execBorrowSTry g k x s1 h s
  | .reborrowX g x s1 h => Sys2Proof.Machine.execReborrowX g x s1 h s
  | .reborrowS g x s1 h => Sys2Proof.Machine.execReborrowS g x s1 h s
  | .split2 g x s1 h => Sys2Proof.Machine.execSplit2 g x s1 h s
  | .split4 g x s1 h => Sys2Proof.Machine.execSplit4 g x s1 h s
  | .split8 g x s1 h => Sys2Proof.Machine.execSplit8 g x s1 h s
  | .join g s1 => Sys2Proof.Machine.execJoin g s1 s
  | .give g x s1 => Sys2Proof.Machine.execGive g x s1 s
  | .freeze g s1 => Sys2Proof.Machine.execFreeze g s1 s
  | .thaw g s1 => Sys2Proof.Machine.execThaw g s1 s
  | .returnBlk g s1 => Sys2Proof.Machine.execReturnBlk g s1 s
  | .returnCore g s1 => Sys2Proof.Machine.execReturnCore g s1 s
  | .returnDie g s1 => Sys2Proof.Machine.execReturnDie g s1 s
  | .returnDev g s1 => Sys2Proof.Machine.execReturnDev g s1 s
  | .returnSys g s1 => Sys2Proof.Machine.execReturnSys g s1 s
  | .bstat g x s1 => Sys2Proof.Machine.execBstat g x s1 s
  | .bdrop g s1 => Sys2Proof.Machine.execBdrop g s1 s
  | .fenceAcq g b a => Sys2Proof.Machine.execFenceAcq g b a s
  | .fenceRel g b a => Sys2Proof.Machine.execFenceRel g b a s
  | .fenceAcqrel g b a => Sys2Proof.Machine.execFenceAcqrel g b a s
  | .dflush g => Sys2Proof.Machine.execDflush g s
  | .rcv g a => Sys2Proof.Machine.execRcv g a s
  | .barSync g b a => Sys2Proof.Machine.execBarSync g b a s
  | .barArrive g b a => Sys2Proof.Machine.execBarArrive g b a s
  | .barWait g b a => Sys2Proof.Machine.execBarWait g b a s
  | .copy g k x s1 h => Sys2Proof.Machine.execCopy g k x s1 h s
  | .copyShadow g k x s1 h => Sys2Proof.Machine.execCopyShadow g k x s1 h s
  | .publish g h => Sys2Proof.Machine.execPublish g h s
  | .cpwait g x => Sys2Proof.Machine.execCpwait g x s
  | .cpstat g x h => Sys2Proof.Machine.execCpstat g x h s
  | .cpcancel g h => Sys2Proof.Machine.execCpcancel g h s
  | .mbpost g b a => Sys2Proof.Machine.execMbpost g b a s
  | .spawn g a d => Sys2Proof.Machine.execSpawn g a d s
  | .hqpost g b a => Sys2Proof.Machine.execHqpost g b a s
  | .hqtake g a d => Sys2Proof.Machine.execHqtake g a d s
  | .hqpeek g a d => Sys2Proof.Machine.execHqpeek g a d s
  | .sleepUntil g a => Sys2Proof.Machine.execSleepUntil g a s
  | .yield g => Sys2Proof.Machine.execYield g s
  | .dadd g b a d => Sys2Proof.Machine.execDadd g b a d s
  | .dsub g b a d => Sys2Proof.Machine.execDsub g b a d s
  | .dmul g b a d => Sys2Proof.Machine.execDmul g b a d s
  | .ddiv g b a d => Sys2Proof.Machine.execDdiv g b a d s
  | .dmin g b a d => Sys2Proof.Machine.execDmin g b a d s
  | .dmax g b a d => Sys2Proof.Machine.execDmax g b a d s
  | .dmix g x b a d => Sys2Proof.Machine.execDmix g x b a d s
  | .dscale g x a d => Sys2Proof.Machine.execDscale g x a d s
  | .dshift g x a d => Sys2Proof.Machine.execDshift g x a d s
  | .dmap g f a d => Sys2Proof.Machine.execDmap g f a d s
  | .dneg g a d => Sys2Proof.Machine.execDneg g a d s
  | .dmov g a d => Sys2Proof.Machine.execDmov g a d s
  | .dcond g f x a d => Sys2Proof.Machine.execDcond g f x a d s
  | .dtag g f x a d => Sys2Proof.Machine.execDtag g f x a d s
  | .dnorm g a d => Sys2Proof.Machine.execDnorm g a d s
  | .dsrc g x d => Sys2Proof.Machine.execDsrc g x d s
  | .dpush g x d => Sys2Proof.Machine.execDpush g x d s
  | .dpushw g x d => Sys2Proof.Machine.execDpushw g x d s
  | .dld g k x h d => Sys2Proof.Machine.execDld g k x h d s
  | .dst g k x h d => Sys2Proof.Machine.execDst g k x h d s
  | .dselV g k x a => Sys2Proof.Machine.execDselV g k x a s
  | .dselW g k x a => Sys2Proof.Machine.execDselW g k x a s
  | .dmass g x a => Sys2Proof.Machine.execDmass g x a s
  | .dmom1 g x a => Sys2Proof.Machine.execDmom1 g x a s
  | .dmom2c g x a => Sys2Proof.Machine.execDmom2c g x a s
  | .dmom3c g x a => Sys2Proof.Machine.execDmom3c g x a s
  | .dmom4c g x a => Sys2Proof.Machine.execDmom4c g x a s
  | .dqnt g x a => Sys2Proof.Machine.execDqnt g x a s
  | .dcdf g x a => Sys2Proof.Machine.execDcdf g x a s
  | .dlo g x a => Sys2Proof.Machine.execDlo g x a s
  | .dhi g x a => Sys2Proof.Machine.execDhi g x a s
  | .bra g o => Sys2Proof.Machine.execBra g o s
  | .call g o => Sys2Proof.Machine.execCall g o s
  | .jmp g a => Sys2Proof.Machine.execJmp g a s
  | .ret g a => Sys2Proof.Machine.execRet g a s
  | .exit g => Sys2Proof.Machine.execExit g s
  | .rgn g => Sys2Proof.Machine.execRgn g s
  | .brk g b => Sys2Proof.Machine.execBrk g b s
  | .trap g b => Sys2Proof.Machine.execTrap g b s
  | .nop g => Sys2Proof.Machine.execNop g s
  | .halt g => Sys2Proof.Machine.execHalt g s
  | .park g o => Sys2Proof.Machine.execPark g o s
  | .tset g b a => Sys2Proof.Machine.execTset g b a s
  | .tget g a d => Sys2Proof.Machine.execTget g a d s
  | .tbind g b a => Sys2Proof.Machine.execTbind g b a s
  | .tdrop g a => Sys2Proof.Machine.execTdrop g a s
  | .tchk g a d => Sys2Proof.Machine.execTchk g a d s
  | .lbrw g a d => Sys2Proof.Machine.execLbrw g a d s
  | .lpref g a => Sys2Proof.Machine.execLpref g a s
  | .lstat g a d => Sys2Proof.Machine.execLstat g a d s
  | .lret g b a => Sys2Proof.Machine.execLret g b a s
  | .lretry g a d => Sys2Proof.Machine.execLretry g a d s
  | .lpin g a => Sys2Proof.Machine.execLpin g a s
  | .lunpin g a => Sys2Proof.Machine.execLunpin g a s
  | .mcfg g b a => Sys2Proof.Machine.execMcfg g b a s
  | .mcommit g => Sys2Proof.Machine.execMcommit g s
  | .mma g b a => Sys2Proof.Machine.execMma g b a s
  | .mzero g a => Sys2Proof.Machine.execMzero g a s
  | .mfeed g a => Sys2Proof.Machine.execMfeed g a s
  | .mdrain g a => Sys2Proof.Machine.execMdrain g a s
  | .mwait g a => Sys2Proof.Machine.execMwait g a s
  | .mchain g a => Sys2Proof.Machine.execMchain g a s
  | .mfsr g r d => Sys2Proof.Machine.execMfsr g r d s
  | .mtsr g r d => Sys2Proof.Machine.execMtsr g r d s
  | .tret g => Sys2Proof.Machine.execTret g s
  | .tretSkip g => Sys2Proof.Machine.execTretSkip g s
  | .haltCtx g => Sys2Proof.Machine.execHaltCtx g s
  | .ecall g s1 d => Sys2Proof.Machine.execEcall g s1 d s
  | .dbgmark g s1 d => Sys2Proof.Machine.execDbgmark g s1 d s
  | .tlbi g b a => Sys2Proof.Machine.execTlbi g b a s
  | .l2wb g b a d => Sys2Proof.Machine.execL2wb g b a d s
  | .l2cfg g b a => Sys2Proof.Machine.execL2cfg g b a s
  | .owalk g b a d => Sys2Proof.Machine.execOwalk g b a d s
  | .bias g b a => Sys2Proof.Machine.execBias g b a s
  | .migr g b a => Sys2Proof.Machine.execMigr g b a s
  | .invl1 g b a => Sys2Proof.Machine.execInvl1 g b a s
  | .pcnt g b a d => Sys2Proof.Machine.execPcnt g b a d s
  | .coldReset => Sys2Proof.Machine.execColdReset s
  | .watchdogTimeout => Sys2Proof.Machine.execWatchdogTimeout s
  | .watchdogKick => Sys2Proof.Machine.execWatchdogKick s
  | .throttleEvaluation => Sys2Proof.Machine.execThrottleEvaluation s
  | .throttleWindowStart => Sys2Proof.Machine.execThrottleWindowStart s
  | .linkReceive => Sys2Proof.Machine.execLinkReceive s
  | .issueArbitration => Sys2Proof.Machine.execIssueArbitration s
  | .icacheLineArrive => Sys2Proof.Machine.execIcacheLineArrive s
  | .registerWriteComplete => Sys2Proof.Machine.execRegisterWriteComplete s
  | .meshRequestArrive => Sys2Proof.Machine.execMeshRequestArrive s
  | .homeServe => Sys2Proof.Machine.execHomeServe s
  | .dramSupply => Sys2Proof.Machine.execDramSupply s
  | .valueReturn => Sys2Proof.Machine.execValueReturn s
  | .rebuildWord => Sys2Proof.Machine.execRebuildWord s
  | .rowSpareCopy => Sys2Proof.Machine.execRowSpareCopy s
  | .storeBeatDrain => Sys2Proof.Machine.execStoreBeatDrain s
  | .crosslaneDeadlock => Sys2Proof.Machine.execCrosslaneDeadlock s
  | .borrowRequestArrive => Sys2Proof.Machine.execBorrowRequestArrive s
  | .borrowGrant => Sys2Proof.Machine.execBorrowGrant s
  | .borrowAnswer => Sys2Proof.Machine.execBorrowAnswer s
  | .writebackComplete => Sys2Proof.Machine.execWritebackComplete s
  | .writebackFail => Sys2Proof.Machine.execWritebackFail s
  | .sleepUntilWake => Sys2Proof.Machine.execSleepUntilWake s
  | .cpwaitWake => Sys2Proof.Machine.execCpwaitWake s
  | .yieldExpire => Sys2Proof.Machine.execYieldExpire s
  | .publishPerform => Sys2Proof.Machine.execPublishPerform s
  | .copyComplete => Sys2Proof.Machine.execCopyComplete s
  | .hqEntryEnter => Sys2Proof.Machine.execHqEntryEnter s
  | .mailboxRunStart => Sys2Proof.Machine.execMailboxRunStart s
  | .dflushDrain => Sys2Proof.Machine.execDflushDrain s
  | .detEndDrain => Sys2Proof.Machine.execDetEndDrain s
  | .engineOpBegin => Sys2Proof.Machine.execEngineOpBegin s
  | .engineOpComplete => Sys2Proof.Machine.execEngineOpComplete s
  | .mcommitClear => Sys2Proof.Machine.execMcommitClear s
  | .tileFetchArrive => Sys2Proof.Machine.execTileFetchArrive s
  | .ttabWriteComplete => Sys2Proof.Machine.execTtabWriteComplete s
  | .handlerEntry => Sys2Proof.Machine.execHandlerEntry s
  | .sresumeWrite e v => Sys2Proof.Machine.execSresumeWrite e v s
  | .registerWrite e r v => Sys2Proof.Machine.execRegisterWrite e r v s
  | .translationComplete => Sys2Proof.Machine.execTranslationComplete s
  | .nqheadWrite v => Sys2Proof.Machine.execNqheadWrite v s
  | .sweepComplete => Sys2Proof.Machine.execSweepComplete s
  | .l2wbComplete => Sys2Proof.Machine.execL2wbComplete s
  | .l2cfgSwitch => Sys2Proof.Machine.execL2cfgSwitch s
  | .l2cfgReplayReceive => Sys2Proof.Machine.execL2cfgReplayReceive s
  | .owalkComplete => Sys2Proof.Machine.execOwalkComplete s
  | .invl1Complete => Sys2Proof.Machine.execInvl1Complete s
  | .biasFlipComplete => Sys2Proof.Machine.execBiasFlipComplete s
  | .bisnpResponse pa data => Sys2Proof.Machine.execBisnpResponse pa data s
  | .migrationSweepTick => Sys2Proof.Machine.execMigrationSweepTick s
  | .migrationPullComplete => Sys2Proof.Machine.execMigrationPullComplete s
  | .poolFlushDeadline => Sys2Proof.Machine.execPoolFlushDeadline s
  | .poolGangHost => Sys2Proof.Machine.execPoolGangHost s
  | .poolGangReady => Sys2Proof.Machine.execPoolGangReady s
  | .slotTrigger slot => Sys2Proof.Machine.execSlotTrigger slot s
  | .launchParse => Sys2Proof.Machine.execLaunchParse s
  | .launchComplete => Sys2Proof.Machine.execLaunchComplete s
  | .mailboxUnbind slot => Sys2Proof.Machine.execMailboxUnbind slot s
  | .startTimeMet => Sys2Proof.Machine.execStartTimeMet s
  | .retenPass => Sys2Proof.Machine.execRetenPass s
  | .passTimer => Sys2Proof.Machine.execPassTimer s
  | .blockStart => Sys2Proof.Machine.execBlockStart s
  | .detStartNotice => Sys2Proof.Machine.execDetStartNotice s
  | .suspendComplete => Sys2Proof.Machine.execSuspendComplete s
  | .prioritySuspend => Sys2Proof.Machine.execPrioritySuspend s
  | .reclaimWalk => Sys2Proof.Machine.execReclaimWalk s
  | .calicoSwapinStart => Sys2Proof.Machine.execCalicoSwapinStart s
  | .calicoLineArrive => Sys2Proof.Machine.execCalicoLineArrive s
  | .calicoObjectPublish => Sys2Proof.Machine.execCalicoObjectPublish s
  | .swapinTimeout => Sys2Proof.Machine.execSwapinTimeout s
  | .layerEvictComplete => Sys2Proof.Machine.execLayerEvictComplete s
  | .atsCompletion iova ans => Sys2Proof.Machine.execAtsCompletion iova ans s
  | .atsInvalidation iova len => Sys2Proof.Machine.execAtsInvalidation iova len s
  | .inboundAccess a => Sys2Proof.Machine.execInboundAccess a s
  | .inboundFaultTimeout => Sys2Proof.Machine.execInboundFaultTimeout s
  | .nakResend => Sys2Proof.Machine.execNakResend s
  | .reqx m => Sys2Proof.Machine.execReqx m s
  | .reqs m => Sys2Proof.Machine.execReqs m s
  | .grant m => Sys2Proof.Machine.execGrant m s
  | .deny m => Sys2Proof.Machine.execDeny m s
  | .msgReturn m => Sys2Proof.Machine.execMsgReturn m s
  | .lreturn m => Sys2Proof.Machine.execLreturn m s
  | .renew m => Sys2Proof.Machine.execRenew m s
  | .renewed m => Sys2Proof.Machine.execRenewed m s
  | .recall m => Sys2Proof.Machine.execRecall m s
  | .wbdone m => Sys2Proof.Machine.execWbdone m s
  | .renewTimer => Sys2Proof.Machine.execRenewTimer s
  | .leaseExpiry => Sys2Proof.Machine.execLeaseExpiry s
  | .lostHolderTimeout => Sys2Proof.Machine.execLostHolderTimeout s
  | .readRequest p => Sys2Proof.Machine.execReadRequest p s
  | .farOperationPacket p => Sys2Proof.Machine.execFarOperationPacket p s
  | .signalPacket p => Sys2Proof.Machine.execSignalPacket p s
  | .mailboxMessage p => Sys2Proof.Machine.execMailboxMessage p s
  | .postedWrite p => Sys2Proof.Machine.execPostedWrite p s
  | .readData p => Sys2Proof.Machine.execReadData p s
  | .completion p => Sys2Proof.Machine.execCompletion p s
  | .farOpResult p => Sys2Proof.Machine.execFarOpResult p s
  | .nak p => Sys2Proof.Machine.execNak p s
  | .creditReturn port chan n => Sys2Proof.Machine.execCreditReturn port chan n s
  | .flitCheckFail port => Sys2Proof.Machine.execFlitCheckFail port s
  | .linkFailure link => Sys2Proof.Machine.execLinkFailure link s
  | .linkRequestTimeout => Sys2Proof.Machine.execLinkRequestTimeout s
  | .snpdata hpa => Sys2Proof.Machine.execSnpdata hpa s
  | .snpinv hpa => Sys2Proof.Machine.execSnpinv hpa s
  | .snpcur hpa => Sys2Proof.Machine.execSnpcur hpa s
  | .hostMemRead pa len => Sys2Proof.Machine.execHostMemRead pa len s
  | .hostMemWrite t addr data => Sys2Proof.Machine.execHostMemWrite t addr data s
  | .cxlCacheData hpa data poison => Sys2Proof.Machine.execCxlCacheData hpa data poison s
  | .create => Sys2Proof.Machine.execCreate s
  | .suspend => Sys2Proof.Machine.execSuspend s
  | .resume => Sys2Proof.Machine.execResume s
  | .kill => Sys2Proof.Machine.execKill s
  | .pagedoneMapped => Sys2Proof.Machine.execPagedoneMapped s
  | .pagedoneUnmappable => Sys2Proof.Machine.execPagedoneUnmappable s
  | .biasHost => Sys2Proof.Machine.execBiasHost s
  | .biasDevice => Sys2Proof.Machine.execBiasDevice s
  | .route => Sys2Proof.Machine.execRoute s
  | .keycreate => Sys2Proof.Machine.execKeycreate s
  | .keydrop => Sys2Proof.Machine.execKeydrop s
  | .rkey => Sys2Proof.Machine.execRkey s
  | .range => Sys2Proof.Machine.execRange s
  | .linkreset => Sys2Proof.Machine.execLinkreset s
  | .dbgattach => Sys2Proof.Machine.execDbgattach s
  | .dbgdetach => Sys2Proof.Machine.execDbgdetach s
  | .dbghalt => Sys2Proof.Machine.execDbghalt s
  | .dbgresume => Sys2Proof.Machine.execDbgresume s
  | .dbgstops => Sys2Proof.Machine.execDbgstops s
  | .slotread => Sys2Proof.Machine.execSlotread s
  | .trace => Sys2Proof.Machine.execTrace s
  | .recover => Sys2Proof.Machine.execRecover s
  | .crashread => Sys2Proof.Machine.execCrashread s
  | .reset => Sys2Proof.Machine.execReset s
  | .ecallNone => Sys2Proof.Machine.execEcallNone s
  | .ecallPost => Sys2Proof.Machine.execEcallPost s
  | .ecallThrottle => Sys2Proof.Machine.execEcallThrottle s
  | .ecallResets => Sys2Proof.Machine.execEcallResets s
  | .getVersion req => Sys2Proof.Machine.execGetVersion req s
  | .getCapabilities req => Sys2Proof.Machine.execGetCapabilities req s
  | .negotiateAlgorithms req => Sys2Proof.Machine.execNegotiateAlgorithms req s
  | .getDigests req => Sys2Proof.Machine.execGetDigests req s
  | .getCertificate req => Sys2Proof.Machine.execGetCertificate req s
  | .challenge req => Sys2Proof.Machine.execChallenge req s
  | .getMeasurements req => Sys2Proof.Machine.execGetMeasurements req s
  | .keyExchange req => Sys2Proof.Machine.execKeyExchange req s
  | .finish req => Sys2Proof.Machine.execFinish req s
  | .linkTrained link => Sys2Proof.Machine.execLinkTrained link s
  | .unlistedCommand => Sys2Proof.Machine.execUnlistedCommand s
  | .unlistedEcallService => Sys2Proof.Machine.execUnlistedEcallService s
  | .unknownOwnershipMessage m => Sys2Proof.Machine.execUnknownOwnershipMessage m s
  | .retenFatal => Sys2Proof.Machine.execRetenFatal s

end Sys2Proof.Machine
end

