-- ==== Sys2Proof/Machine/Cycle.lean ====
section
/-! DEFINITION. What a step does: the events that are due, the choice of a cycle's issues, an issue, and the clocks.

A step runs the next issue of this cycle; or, before a cycle's issues are chosen, the first event that is due; or chooses the issues;
or lets the clock go on (the log entry on serialisation). -/

namespace Sys2Proof.Machine

/-! ## Events -/

/-- An event that is due under a test. -/
def Instr.when (c : Bool) (i : Instr) : Option Instr := if c then some i else none

/-- The steps of the boot ROM, the throttle, the watchdog and the link layers, which bubbles do not hold back (R6, R463, R466, R474). -/
noncomputable def State.wallEvent (s : State) : Option Instr :=
  if s.boot.mode = .cold then some .coldReset
  else if s.windowDue then some .throttleWindowStart
  else if s.throttleDue then some .throttleEvaluation
  else if s.watchdogDue then some .watchdogTimeout
  else Instr.when s.receivable.isSome .linkReceive

/-- What completes in the cores and on the mesh. -/
noncomputable def State.coreEvent (s : State) : Option Instr :=
  if s.writeDue then some .registerWriteComplete
  else if s.icacheDue.isSome then some .icacheLineArrive
  else if s.beatDue then some .storeBeatDrain
  else if s.leaver.isSome || s.departer.isSome || (s.meshIn .travelling).isSome then some .meshRequestArrive
  else if (s.meshIn .replayed).isSome then some .l2cfgReplayReceive
  else if (s.meshIn .dram).isSome then some .dramSupply
  else if s.serveDue.isSome then some .homeServe
  else if (s.meshIn .returning).isSome then some .valueReturn
  else if s.xlatDue.isSome then some .translationComplete
  else if s.wakeDue.isSome then some .sleepUntilWake
  else if s.copyDue.isSome || s.shadowDue.isSome then some .copyComplete
  else if s.cpwaitDue.isSome then some .cpwaitWake
  else if s.yieldDue then some .yieldExpire
  else if s.publishDue.isSome || s.lateDue.isSome then some .publishPerform
  else if s.postDue.isSome then some .hqEntryEnter
  else if s.flushDue.isSome then some .dflushDrain
  else if s.detEndDue.isSome then some .detEndDrain
  else if s.ttabDue.isSome then some .ttabWriteComplete
  else if s.deadlockDue.isSome then some .crosslaneDeadlock
  else Instr.when s.handlerDue.isSome .handlerEntry

/-- What completes in the matrix engines. -/
noncomputable def State.matrixEvent (s : State) : Option Instr :=
  if s.completeDue.isSome then some .engineOpComplete
  else if s.commitDue.isSome then some .mcommitClear
  else if s.scaleDue.isSome || s.fetchDue.isSome || s.stepDue.isSome then some .tileFetchArrive
  else Instr.when s.beginDue.isSome .engineOpBegin

/-- The step that an ownership message between dies starts, by its type (R411). -/
noncomputable def messageInstr (m : OwnMsg) : Instr :=
  match m.type with
  | 1 => .reqx m
  | 2 => .reqs m
  | 3 => .grant m
  | 4 => .deny m
  | 5 => .msgReturn m
  | 6 => .lreturn m
  | 7 => .renew m
  | 8 => .renewed m
  | 9 => .recall m
  | 10 => .wbdone m
  | _ => .unknownOwnershipMessage m

/-- What happens in the ownership tables and between dies. -/
noncomputable def State.ownEvent (s : State) : Option Instr :=
  if s.grantDue.isSome then some .borrowGrant
  else if s.requestDue.isSome then some .borrowRequestArrive
  else if s.answerDue.isSome then some .borrowAnswer
  else if s.writeBackFailed.isSome then some .writebackFail
  else if s.writeBackDue.isSome then some .writebackComplete
  else match s.messageDue with
    | some m => some (messageInstr m)
    | none =>
      if s.expiryDue.isSome then some .leaseExpiry
      else if s.renewDue.isSome then some .renewTimer
      else if s.lostDue.isSome then some .lostHolderTimeout
      else Instr.when (s.walkDue.isSome || s.orphansDue.isSome) .reclaimWalk

/-- What completes of maintenance and translation, and of repair. -/
noncomputable def State.maintEvent (s : State) : Option Instr :=
  if s.sweepDue.isSome then some .sweepComplete
  else if s.l2wbDue.isSome then some .l2wbComplete
  else if s.l2cfgDue.isSome then some .l2cfgSwitch
  else if s.owalkDue.isSome then some .owalkComplete
  else if s.invl1Due.isSome then some .invl1Complete
  else if s.flipDue.isSome then some .biasFlipComplete
  else if s.pullDue.isSome || s.migrated.isSome then some .migrationPullComplete
  else if s.tickDue.isSome then some .migrationSweepTick
  else if s.inboundLate.isSome then some .inboundFaultTimeout
  else if s.resendDue.isSome then some .nakResend
  else if s.linkTimeout.isSome then some .linkRequestTimeout
  else if s.rebuildDue.isSome then some .rebuildWord
  else Instr.when s.rowDue.isSome .rowSpareCopy

/-- The service that an `ecall` asks Reten for (R471). -/
noncomputable def ecallInstr (n : Nat) : Instr :=
  match n with
  | 0 => .ecallNone
  | 1 => .ecallPost
  | 2 => .ecallThrottle
  | 3 => .ecallResets
  | _ => .unlistedEcallService

/-- What the dispatcher, Reten and Calico do. -/
noncomputable def State.retenEvent (s : State) : Option Instr :=
  match s.launch.sealed, s.launch.unsealed with
  | slot :: _, _ => if s.boot.mode = .running then some (.slotTrigger slot) else none
  | [], slot :: _ => some (.mailboxUnbind slot)
  | [], [] =>
    if s.parseDue.isSome then some .launchParse
    else if s.launchDone.isSome then some .launchComplete
    else if s.runDue.isSome then some .mailboxRunStart
    else if s.startDue.isSome then some .startTimeMet
    else if s.flushDeadline.isSome then some .poolFlushDeadline
    else if s.hostDue.isSome then some .poolGangHost
    else if s.readyDue.isSome then some .poolGangReady
    else if s.suspendDue.isSome then some .suspendComplete
    else if s.priorityDue.isSome then some .prioritySuspend
    else if s.lineDue.isSome then some .calicoLineArrive
    else if s.objectDue.isSome then some .calicoObjectPublish
    else if s.swapTimeoutDue.isSome then some .swapinTimeout
    else if s.evictDue.isSome then some .layerEvictComplete
    else if s.calicoDue.isSome then some .calicoSwapinStart
    else match s.ecallDue with
      | some (_, n, _, _) => some (ecallInstr n)
      | none =>
        if s.noticeDue.isSome then some .detStartNotice
        else if s.blockStartDue.isSome then some .blockStart
        else if s.passTimerDue then some .passTimer
        else Instr.when s.retenDue .retenPass

/-- The command of an entry of the ring (R467). -/
noncomputable def commandInstr (b : List Byte) : Instr :=
  match entryOp b with
  | 0x01 => .create
  | 0x02 => .suspend
  | 0x03 => .resume
  | 0x04 => .kill
  | 0x05 => if entryField b 12 1 = 0 then .pagedoneMapped else .pagedoneUnmappable
  | 0x06 => if entryField b 16 1 = 1 then .biasDevice else .biasHost
  | 0x07 => .route
  | 0x08 => .keycreate
  | 0x09 => .keydrop
  | 0x0A => .rkey
  | 0x0B => .range
  | 0x0C => .linkreset
  | 0x0D => .dbgattach
  | 0x0E => .dbgdetach
  | 0x0F => .dbghalt
  | 0x10 => .dbgresume
  | 0x11 => .dbgstops
  | 0x12 => .slotread
  | 0x13 => .trace
  | 0x14 => .recover
  | 0x15 => .crashread
  | 0x16 => .reset
  | _ => .unlistedCommand

/-- The command that Reten takes next, unless it waits for what it has asked for. -/
noncomputable def State.commandEvent (s : State) : Option Instr :=
  if s.createWaits then none else s.commandDue.map commandInstr

/-- The first arrival that can be parsed, with its place in the receive buffers (R6, R406). -/
def State.arrival (s : State) : Option (Nat × Input) :=
  (s.host.inbox.zipIdx.find? fun x => s.inputReady x.1).map fun x => (x.2, x.1)

/-- The next event of a work cycle before its issues are chosen. -/
noncomputable def State.workEvent (s : State) : Option Instr :=
  s.coreEvent <|> s.matrixEvent <|> s.ownEvent <|> s.maintEvent <|> s.commandEvent <|> s.retenEvent

/-! ## Cycles -/

/-- The clocks go on by one wall cycle, and by one work cycle unless it was a bubble (R4, R5).  DESIGN CHOICE (log entry 10): PTIME advances
through bubbles too, by a free amount and at least one unit in two wall cycles. -/
def State.tick (s : State) (work : Bool) : State :=
  let wall := s.clock.wall + 1
  let cyc := if work then s.clock.cyc + 1 else s.clock.cyc
  { s with
    clock := { s.clock with cyc, wall, ptime := s.clock.ptime + (wall + 1) % 2 + Config.ptime wall }
    arbitrated := false }

/-! ## The parts of a step -/

/-- An issue runs: its words are decoded and the instruction executes; words that nothing decodes raise ILLEGAL. -/
noncomputable def runIssue (i : Issue) (s : State) : Host.Outcome State Fault Refusal :=
  match i.instr with
  | some x => exec x s
  | none => s.illegalIssue i

/-- An outcome whose next state a function changes. -/
def thenNext (f : State → State) : Host.Outcome State Fault Refusal → Host.Outcome State Fault Refusal
  | .next t => .next (f t)
  | .fault r => .fault r
  | .refused r => .refused r

/-- The next issue of the cycle, counted by its core (R439).  One that raises a cause after the other instruction of its pair has raised
one has no effect: its lanes stay at it (R319). -/
noncomputable def stepIssue (i : Issue) (rest : List Issue) (s : State) : Host.Outcome State Fault Refusal :=
  let s := { s with agenda := rest, cur := some i }
  thenNext (fun t => if t.cur.isNone then s else s.countIssue t i) (runIssue i s)

/-- The choice of a cycle's issues, with the cycle's charges (R69, R440). -/
noncomputable def stepArbitrate (s : State) : Host.Outcome State Fault Refusal :=
  let s := s.predecode
  thenNext (fun t => s.charge t t.agenda) (exec .issueArbitration s)

/-- What a cycle's issues bring about within the cycle: borrow requests arrive in the cycle of their issue, and what they and the
cycle's returns make grantable is granted (R154, R255, R256, R265); an engine operation begins in its issue cycle (R293); a gang
that is full is hosted in the cycle that filled it (R238); what comes by links is parsed after the device's own parties, and leaves its
buffer (R81, R335, R419); and a slot whose seal was written takes its launch id (R336). -/
noncomputable def State.endEvent (s : State) : Option (Instr × State) :=
  if s.grantDue.isSome then some (.borrowGrant, s)
  else if s.requestDue.isSome then some (.borrowRequestArrive, s)
  else if s.beginDue.isSome then some (.engineOpBegin, s)
  else if s.hostDue.isSome then some (.poolGangHost, s)
  else if s.transit.isSome then some (.linkReceive, s)
  else match s.arrival with
    | some (k, x) => some (x.toInstr, { s with host := { s.host with inbox := s.host.inbox.eraseIdx k } }.freeBuffer x)
    | none => match s.launch.sealed with
      | slot :: _ => if s.boot.mode = .running then some (.slotTrigger slot, s) else none
      | [] => none

/-- A step with nothing left to issue: an event, the choice of issues, or the next cycle. -/
noncomputable def stepCycle (s : State) : Host.Outcome State Fault Refusal :=
  match s.wallEvent with
  | some i => exec i s
  | none =>
    if s.bubble then .next (s.tick false)
    else if s.arbitrated then
      let t := s.settleEnds
      match t.endEvent with
      | some (i, u) => thenNext u.countEvent (exec i u)
      | none => .next (t.tick true)
    else match s.workEvent with
      | some i => thenNext s.countEvent (exec i s)
      | none => stepArbitrate s

/-! ## A word placed for the next step -/

/-- Where the placed engine's code stands in device memory: page frame 1 GiB, which its page table maps at address 0. -/
def placedCode : Nat := 2 ^ 30

/-- The page tables of the placed context: one leaf of 1 GiB with write and execute permission, under the root at 0x1000. -/
def placedTables (m : Memory) : Memory :=
  (((m.writeBytes 0x1000 (leBytes 8 (0x2000 + 1))).writeBytes 0x2000 (leBytes 8 (0x3000 + 1))).writeBytes 0x3000
    (leBytes 8 (placedCode + 0xF)))

/-- The context of the placed engine: privileged, with a save area. -/
def placedContext : Context := { Context.blank with state := .active, ptb := 0x1000, privileged := true }

/-- The placed engine: the sequencer for a word of major 0x3C, otherwise a gang of width 16. -/
def placedEngine (w : Nat) : Engine :=
  let lane : Lane := { Lane.empty with status := .ready }
  if w % 128 = 0x79 then { Engine.blank with kind := .seq, width := 1, lanes := [(0, lane)] }
  else
    { Engine.blank with
      width := 16, nregs := 64, ndist := 8, place := ⟨0, 0, 0, 0, 1, 0⟩
      lanes := (List.range 16).map fun k => (k, { lane with thread := k }) }

end Sys2Proof.Machine
end

