-- ==== Sys2Proof/Machine/Step.lean ====
section
/-! DEFINITION. One step of the device, and where a word stands so that the next step runs it. -/

namespace Sys2Proof.Machine

/-- One step: the next issue of this cycle, or, with none left, what the cycle holds besides (the log entry on serialisation). -/
noncomputable def step (s : State) : Host.Outcome State Fault Refusal :=
  match s.agenda with
  | i :: rest => stepIssue i rest s
  | [] => stepCycle s

/-- The state with an instruction stored where the next step fetches it (the log entry on how a program comes to run):
the device has booted, a privileged context with page tables is active, an engine stands at address 0 of that context, the
words are in memory, and the issue of that engine is next. -/
def State.withFetchWord (s : State) (nbits w : Nat) : State :=
  let bytes := tableBytes nbits w
  let len := wordLength (leValue (bytes.take 2))
  { s with
    boot := { s.boot with mode := .running }
    ctxs := { s.ctxs with table := s.ctxs.table.put 0 placedContext }
    mem := { s.mem with
      cells := (placedTables s.mem.cells).writeBytes placedCode bytes
      icache := s.mem.icache ++ [(0, placedCode / 128), (512, placedCode / 128)] }
    work := { s.work with engines := s.work.engines.put 0 (placedEngine w) }
    arbitrated := true
    agenda :=
      [{ eng := 0, pc := 0, lanes := if w % 128 = 0x79 then 1 else 0xFFFF, away := 0
         insn := BitVec.ofNat 32 (leValue (bytes.take len)), len }] }

end Sys2Proof.Machine
end

