-- ==== Sys2Proof/Safety.lean ====
section
/-! DEFINITION. What a safe step is, and what it is for an instruction to complete, in the terms that statements use. -/

namespace Sys2Proof.Machine

/-- A step that goes on: neither a fault nor a refusal. -/
def goesOn (o : Host.Outcome State Fault Refusal) : Prop := ∃ t, o = .next t

/-- The memory is in its canonical form. -/
def State.memoryOk (s : State) : Prop := s.mem.cells.wf = true

/-- The words of an instruction pass the checks of R59 on an engine: its registers lie below their classes' counts and are aligned,
its codes are listed, the engine is one that accepts it, and a privileged one stands in a privileged context. -/
def State.accepts (s : State) (x : Instr) (e : Engine) : Prop :=
  ∃ f, infoOf x = some f ∧ f.legal e.isSeq e.regCount = true ∧ (f.priv = true → s.privileged e = true)

/-- An engine issues an instruction that it accepts: `i` says where it stands and in which lanes. -/
structure State.Issues (s : State) (x : Instr) (i : Issue) (e : Engine) : Prop where
  cur : s.cur = some i
  eng : s.engine i.eng = some e
  ok : s.accepts x e

/-- `live` is the set of lanes that execute an instruction: those that issue it and whose guard holds (R43). -/
def Engine.Executes (e : Engine) (i : Issue) (g : Guard) (live : Dword) : Prop :=
  ∀ k, live.getLsbD k = (i.lanes.getLsbD k && match e.lanes.find? k with
    | some l => l.guard g
    | none => false)

/-- A lane that has gone on to the next instruction. -/
def Lane.goneOn (i : Issue) (l : Lane) : Lane := { l with pc := i.pc + BitVec.ofNat 32 i.len, issued := true }

/-- Every byte of memory reads as before; the on-chip map's windows, which show registers, lie from 2^63 up. -/
def State.sameMemory (s t : State) : Prop := ∀ loc, loc < 2 ^ 63 → t.readHome loc = s.readHome loc

/-- An engine with its lanes and its scoreboard replaced. -/
def Engine.withLanes (e : Engine) (lanes : Store Lane) (sb : List SbEntry) : Engine := { e with lanes, sb }

/-- The engine after an instruction: only its lanes and its scoreboard differ from `base`, and each lane `k` of `base` has become
`f k` of it. -/
structure Engine.LanesOf (base after : Engine) (f : Nat → Lane → Lane) : Prop where
  rest : after = base.withLanes after.lanes after.sb
  lane : ∀ k, after.lanes.find? k = (base.lanes.find? k).map (f k)

/-- An instruction completes in each lane by itself: a lane that executes it becomes `op` of itself and goes on, a lane whose guard is
false goes on, the other lanes stay as they were, and nothing else of the device changes but the engine's scoreboard. -/
def CompletesInLanes (x : Instr) (g : Guard) (op : State → Engine → Dword → Nat → Lane → Lane) : Prop :=
  ∀ s i e live, s.Issues x i e → e.Executes i g live →
    ∃ e', exec x s = .next (s.setEngine i.eng e') ∧ s.sameMemory (s.setEngine i.eng e') ∧
      e.LanesOf e' (fun k l =>
        if i.lanes.getLsbD k then (if live.getLsbD k then op s e live k l else l).goneOn i else l)

/-- An instruction issued with flags raised by its lanes: `op` gives the lane and the flags, which the lane's fx keeps; `post` changes
the gang where some lane executes it.  Where no raised flag is enabled in TMODE the instruction ends there; where one is, and no trap
waits, FPX is raised after it, at the next instruction (R34, R35). -/
def State.FlagsAt (s : State) (i : Issue) (e : Engine) (live : Dword) (x : Instr) (op : Engine → Dword → Nat → Lane → Lane × Fx)
    (post : Engine → Engine) : Prop :=
  ∃ (e' : Engine) (raised : Fx), s.sameMemory (s.setEngine i.eng e') ∧
    (if live = 0 then e else post e).LanesOf e' (fun k l =>
      if i.lanes.getLsbD k then
        (if live.getLsbD k then { (op e live k l).1 with fx := (op e live k l).1.fx ||| (op e live k l).2 } else l).goneOn i
      else l) ∧
    (∀ n, n < 6 → (raised.getLsbD n = true ↔ ∃ k l, live.getLsbD k = true ∧ e.lanes.find? k = some l ∧
      (op e live k l).2.getLsbD n = true)) ∧
    ((raised.toNat % 32) &&& (e.tmode.toNat % 32) = 0 → exec x s = .next (s.setEngine i.eng e')) ∧
    ((raised.toNat % 32) &&& (e.tmode.toNat % 32) ≠ 0 → s.trapQueued i.eng = false →
      exec x s = .next ((s.setEngine i.eng e').raise
        { eng := i.eng, cause := .fpx, lanes := live, pc := i.pc + BitVec.ofNat 32 i.len, insn := i.insn, faddr := 0,
          detail := raised.toNat % 32 }))

/-- As `CompletesInLanes`, for an instruction whose lanes may raise flags. -/
def CompletesWithFlags (x : Instr) (g : Guard) (op : Engine → Dword → Nat → Lane → Lane × Fx) (post : Engine → Engine) : Prop :=
  ∀ (s : State) (i : Issue) (e : Engine) (live : Dword), s.Issues x i e → e.Executes i g live → s.FlagsAt i e live x op post

/-- Register `d` of each lane that executes the instruction becomes `v` of the lane as it stood. -/
def WritesReg (x : Instr) (g : Guard) (d : Nat) (v : Lane → Word) : Prop :=
  CompletesInLanes x g fun _ _ _ _ l => l.setReg d (v l)

/-- The pair `d` of each lane that executes the instruction becomes `v` of the lane as it stood. -/
def WritesPair (x : Instr) (g : Guard) (d : Nat) (v : Lane → Dword) : Prop :=
  CompletesInLanes x g fun _ _ _ _ l => l.setPair d (v l)

/-- Predicate `d` of each lane that executes the instruction becomes `v` of the lane as it stood. -/
def WritesPred (x : Instr) (g : Guard) (d : Nat) (v : Lane → Bool) : Prop :=
  CompletesInLanes x g fun _ _ _ _ l => l.setPred d (v l)

/-- Register `d` of each lane that executes the instruction becomes the code of `v`, whose flags the lane raises. -/
def WritesFloat (x : Instr) (g : Guard) (d : Nat) (v : Engine → Dword → Nat → Lane → FloatRes) : Prop :=
  CompletesWithFlags x g (fun e live k l =>
    (l.setReg d (BitVec.ofNat 32 (v e live k l).code), (v e live k l).flags)) id

/-- A gang instruction completes once: where some lane executes it the engine becomes `op` of itself, and the lanes that issued it go
on. -/
def CompletesOnce (x : Instr) (g : Guard) (op : State → Engine → Dword → Engine) : Prop :=
  ∀ s i e live, s.Issues x i e → e.Executes i g live →
    ∃ e', exec x s = .next (s.setEngine i.eng e') ∧ s.sameMemory (s.setEngine i.eng e') ∧
      (if live = 0 then e else op s e live).LanesOf e' (fun k l => if i.lanes.getLsbD k then l.goneOn i else l)

/-- Nothing of the device differs but one engine and the number of the next event. -/
def State.onlyEngine (s t : State) (eng : Nat) : Prop :=
  (∀ j, j ≠ eng → t.engine j = s.engine j) ∧
    t = { s with work := { s.work with engines := t.work.engines }, nextId := t.nextId }

/-- The lanes that execute a cross-lane instruction are all that its mask `m` still awaits: they lie in the mask, which is neither
zero nor wider than the gang, the mask's other lanes issue it with a false guard or are not live, and no other instance is open at the
instruction or complete (R106, R108). -/
structure Engine.Meets (e : Engine) (i : Issue) (m live : Dword) : Prop where
  some_ : live ≠ 0
  inMask : ∀ k, live.getLsbD k = true → m.getLsbD k = true
  fits : m.toNat < 2 ^ e.width
  rest : ∀ k, m.getLsbD k = true → live.getLsbD k = false → i.lanes.getLsbD k = true ∨ (e.lane k).live = false
  alone : ∀ y ∈ e.open_, y.pc ≠ i.pc ∧ y.complete e = false

/-- A cross-lane instruction whose lanes meet at one issue completes at it: each of them becomes `op` of itself, given the arrived lanes
in ascending order, with the flags that `op` says, and goes on; `post` is the gang's own change.  FPX as in `CompletesWithFlags`. -/
def CompletesAcross (x : Instr) (g : Guard) (m : Nat) (op : Engine → List (Nat × Lane) → Nat → Lane → Lane × Fx)
    (post : Engine → List (Nat × Lane) → Engine) : Prop :=
  ∀ s i e live, s.Issues x i e → e.Executes i g live → e.Meets i (e.mask m) live →
    ∃ (t : State) (e' : Engine) (raised : Fx), t.engine i.eng = some e' ∧ s.onlyEngine t i.eng ∧ s.sameMemory t ∧
      (post e (e.lanesOf live)).LanesOf e' (fun k l =>
        if live.getLsbD k then
          let r := op e (e.lanesOf live) k l
          { r.1 with fx := r.1.fx ||| r.2, status := .ready, pc := i.pc + BitVec.ofNat 32 i.len, issued := true }
        else if i.lanes.getLsbD k then l.goneOn i else l) ∧
      (∀ n, n < 6 → (raised.getLsbD n = true ↔ ∃ k l, (k, l) ∈ e.lanesOf live ∧ (op e (e.lanesOf live) k l).2.getLsbD n = true)) ∧
      ((raised.toNat % 32) &&& (e.tmode.toNat % 32) = 0 → exec x s = .next t) ∧
      ((raised.toNat % 32) &&& (e.tmode.toNat % 32) ≠ 0 →
        exec x s = .next (t.raise { eng := i.eng, cause := .fpx, lanes := live, pc := i.pc + BitVec.ofNat 32 i.len, insn := i.insn,
                                    faddr := 0, detail := raised.toNat % 32 }))

end Sys2Proof.Machine
end

