-- ==== Sys2Proof/Certificates/Slice0/Obligations.lean ====
section
/-! DEFINITION. The statements about the model, each from the numbered rules of the spec that its docstring names. -/

open Sys2Proof Sys2Proof.Machine

/-! ## Registers and lanes -/

/-- R14 and R48: a register holds what was written to it, a pair holds bits [31:0] in its even register and bits [63:32] in the next,
a write to p0 is discarded and p0 reads true (R43), and no write changes another register. -/
def Obligations.RegistersHoldWhatIsWritten : Prop :=
  ∀ (l : Lane) (r q : Nat),
    (∀ v : Word, (l.setReg r v).reg r = v ∧ (q ≠ r → (l.setReg r v).reg q = l.reg q) ∧
      (l.setReg r v).preds = l.preds ∧ (l.setReg r v).fx = l.fx ∧ (l.setReg r v).dists = l.dists ∧ (l.setReg r v).pc = l.pc) ∧
    (∀ v : Dword, (l.setPair r v).reg r = v.setWidth 32 ∧ (l.setPair r v).reg (r + 1) = (v >>> 32).setWidth 32 ∧
      (l.setPair r v).pair r = v ∧ (q ≠ r → q ≠ r + 1 → (l.setPair r v).reg q = l.reg q)) ∧
    (∀ v : Bool, l.setPred 0 v = l ∧ (0 < r → r < 8 → (l.setPred r v).pred r = v) ∧
      (q ≠ r → q < 8 → (l.setPred r v).pred q = l.pred q) ∧ (l.setPred r v).regs = l.regs) ∧
    l.pred 0 = true

/-- R59 and R60: an encoded instruction whose words do not pass the decode checks (a register field outside its class's count or
misaligned, an unlisted code, the wrong kind of engine) raises ILLEGAL in the live lanes that stand there and has no other
effect; a privileged one outside a privileged context raises PRIV (R219). -/
def Sys2Proof.Spec.RefusedWordsRaiseIllegal : Prop :=
  ∀ (x : Instr) (s : State) (i : Issue) (e : Engine) (f : Info),
    x.encoding.isSome = true → infoOf x = some f → s.cur = some i → s.engine i.eng = some e →
      (f.legal e.isSeq e.regCount = false → exec x s = .next (s.trap i .illegal (e.standing i.lanes) 0 0)) ∧
      (f.legal e.isSeq e.regCount = true → f.priv = true → s.privileged e = false →
        exec x s = .next (s.trap i .priv (e.standing i.lanes) 0 0))

/-- R48 and R87: what the decode checks ask of the registers of some forms: single registers below the declared count, pairs even and
below it, four masks, 32 uniform registers, eight predicates, and only majors that the engine accepts. -/
def Sys2Proof.Spec.DecodeChecksOfOperands : Prop :=
  ∀ (g : Guard) (b a d : Fin 64) (seq : Bool) (n : Nat), n ≤ 64 →
    let legal := fun (x : Instr) => (infoOf x).any fun f => f.legal seq n
    (legal (.add g b a d) = true ↔ b.val < n ∧ a.val < n ∧ d.val < n) ∧
    (legal (.add64 g b a d) = true ↔
      b.val + 2 ≤ n ∧ b.val % 2 = 0 ∧ a.val + 2 ≤ n ∧ a.val % 2 = 0 ∧ d.val + 2 ≤ n ∧ d.val % 2 = 0) ∧
    (legal (.mulwS32 g b a d) = true ↔ b.val < n ∧ a.val < n ∧ d.val + 2 ≤ n ∧ d.val % 2 = 0) ∧
    (legal (.pand g b a d) = true ↔ b.val < 8 ∧ a.val < 8 ∧ d.val < 8) ∧
    (legal (.mand g b a d) = true ↔ seq = false ∧ b.val < 4 ∧ a.val < 4 ∧ d.val < 4) ∧
    (legal (.sadd g b a d) = true ↔ seq = false ∧ b.val < 32 ∧ a.val < 32 ∧ d.val < 32) ∧
    (legal (.fadd g b a d) = true ↔ seq = false ∧ b.val < n ∧ a.val < n ∧ d.val < n) ∧
    (legal (.sv g a d) = true ↔ seq = false ∧ a.val < 18 ∧ d.val < n) ∧
    (legal (.pset g a d) = true ↔ a.val < 2 ∧ d.val < 8)

/-- What the decode checks ask, and what a word that does not pass them raises. -/
def Obligations.DecodeChecks : Prop := Spec.RefusedWordsRaiseIllegal ∧ Spec.DecodeChecksOfOperands

/-- R44: a word whose guard is !p0 has no effect but that its lanes go on; R117: nor has `nop`. -/
def Obligations.NopsOnlyGoOn : Prop :=
  (∀ (z : Fin 2097152) (m : Fin 64), CompletesInLanes (.guardNop z m) .always fun _ _ _ _ l => l) ∧
  (∀ g : Guard, CompletesInLanes (.nop g) g fun _ _ _ _ l => l)

/-! ## Integer instructions -/

/-- R88, R89, R90 and R91. -/
def Sys2Proof.Spec.IntegerArithmetic : Prop :=
  ∀ (g : Guard) (b a d : Fin 64),
    WritesReg (.add g b a d) g d (fun l => l.reg a + l.reg b) ∧
    WritesReg (.sub g b a d) g d (fun l => l.reg a - l.reg b) ∧
    CompletesInLanes (.addc g b a d) g (fun _ _ _ _ l =>
      (l.setReg d (l.reg a + l.reg b + BitVec.ofNat 32 (l.pred 7).toNat)).setPred 7
        (decide (2 ^ 32 ≤ (l.reg a).toNat + (l.reg b).toNat + (l.pred 7).toNat))) ∧
    CompletesInLanes (.subb g b a d) g (fun _ _ _ _ l =>
      (l.setReg d (l.reg a - l.reg b - BitVec.ofNat 32 (l.pred 7).toNat)).setPred 7
        (decide ((l.reg a).toNat < (l.reg b).toNat + (l.pred 7).toNat))) ∧
    WritesReg (.minS32 g b a d) g d (fun l => if (l.reg b).slt (l.reg a) then l.reg b else l.reg a) ∧
    WritesReg (.maxS32 g b a d) g d (fun l => if (l.reg b).slt (l.reg a) then l.reg a else l.reg b) ∧
    WritesReg (.minN32 g b a d) g d (fun l => if l.reg b < l.reg a then l.reg b else l.reg a) ∧
    WritesReg (.maxN32 g b a d) g d (fun l => if l.reg b < l.reg a then l.reg a else l.reg b) ∧
    WritesReg (.mul g b a d) g d (fun l => l.reg a * l.reg b) ∧
    WritesReg (.mulhiS32 g b a d) g d (fun l =>
      (((l.reg a).signExtend 64 * (l.reg b).signExtend 64) >>> 32).setWidth 32) ∧
    WritesReg (.mulhiN32 g b a d) g d (fun l => (((l.reg a).setWidth 64 * (l.reg b).setWidth 64) >>> 32).setWidth 32) ∧
    WritesReg (.mad g b a d) g d (fun l => l.reg d + l.reg a * l.reg b) ∧
    WritesReg (.divS32 g b a d) g d (fun l => if l.reg b = 0 then 0xFFFFFFFF else (l.reg a).sdiv (l.reg b)) ∧
    WritesReg (.divN32 g b a d) g d (fun l => if l.reg b = 0 then 0xFFFFFFFF else l.reg a / l.reg b) ∧
    WritesReg (.remS32 g b a d) g d (fun l => if l.reg b = 0 then l.reg a else (l.reg a).srem (l.reg b)) ∧
    WritesReg (.remN32 g b a d) g d (fun l => if l.reg b = 0 then l.reg a else l.reg a % l.reg b) ∧
    (∀ n : Fin 512, WritesReg (.addi g n a d) g d (fun l => l.reg a + (BitVec.ofNat 9 n).signExtend 32))

/-- A field's position and length in a register (R93). -/
def Sys2Proof.Spec.bitField (y : Word) : Nat × Nat := (y.toNat % 32, min (y.toNat / 256 % 64) 32)

/-- The byte that a selector nibble makes of a register (R95). -/
def Sys2Proof.Spec.permuted (x : Word) (z : BitVec 4) : BitVec 8 :=
  let picked := x.extractLsb' (8 * (z.toNat % 4)) 8
  if z.getLsbD 2 then 0 else if z.getLsbD 3 then (if picked.getLsbD 7 then 0xFF else 0) else picked

/-- R92, R93, R94, R95 and R96. -/
def Obligations.LogicShiftsAndBits : Prop :=
  ∀ (g : Guard) (b a d : Fin 64),
    WritesReg (.and g b a d) g d (fun l => l.reg a &&& l.reg b) ∧
    WritesReg (.or g b a d) g d (fun l => l.reg a ||| l.reg b) ∧
    WritesReg (.xor g b a d) g d (fun l => l.reg a ^^^ l.reg b) ∧
    WritesReg (.andn g b a d) g d (fun l => l.reg a &&& ~~~(l.reg b)) ∧
    WritesReg (.orn g b a d) g d (fun l => l.reg a ||| ~~~(l.reg b)) ∧
    WritesReg (.xnor g b a d) g d (fun l => ~~~(l.reg a ^^^ l.reg b)) ∧
    WritesReg (.not g a d) g d (fun l => ~~~(l.reg a)) ∧
    WritesReg (.mov g a d) g d (fun l => l.reg a) ∧
    WritesReg (.shl g b a d) g d (fun l => l.reg a <<< ((l.reg b).toNat % 32)) ∧
    WritesReg (.shr g b a d) g d (fun l => l.reg a >>> ((l.reg b).toNat % 32)) ∧
    WritesReg (.sar g b a d) g d (fun l => (l.reg a).sshiftRight ((l.reg b).toNat % 32)) ∧
    WritesReg (.rotl g b a d) g d (fun l => (l.reg a).rotateLeft ((l.reg b).toNat % 32)) ∧
    WritesReg (.rotr g b a d) g d (fun l => (l.reg a).rotateRight ((l.reg b).toNat % 32)) ∧
    WritesReg (.bfeN32 g b a d) g d (fun l =>
      (l.reg a >>> (Spec.bitField (l.reg b)).1) &&& BitVec.ofNat 32 (2 ^ (Spec.bitField (l.reg b)).2 - 1)) ∧
    WritesReg (.bfeS32 g b a d) g d (fun l =>
      let n := (Spec.bitField (l.reg b)).2
      if n = 0 then 0 else ((l.reg a >>> (Spec.bitField (l.reg b)).1) <<< (32 - n)).sshiftRight (32 - n)) ∧
    WritesReg (.bfi g b a d) g d (fun l =>
      let f : Word := BitVec.ofNat 32 (2 ^ (Spec.bitField (l.reg b)).2 - 1) <<< (Spec.bitField (l.reg b)).1
      (l.reg d &&& ~~~f) ||| ((l.reg a <<< (Spec.bitField (l.reg b)).1) &&& f)) ∧
    WritesReg (.popc g a d) g d (fun l => (l.reg a).cpop) ∧
    WritesReg (.clz g a d) g d (fun l => (l.reg a).clz) ∧
    WritesReg (.ctz g a d) g d (fun l => (l.reg a).ctz) ∧
    WritesReg (.brev g a d) g d (fun l => (l.reg a).reverse) ∧
    WritesReg (.bperm g b a d) g d (fun l =>
      let byte := fun k => Spec.permuted (l.reg a) ((l.reg b).extractLsb' (4 * k) 4)
      byte 3 ++ byte 2 ++ byte 1 ++ byte 0) ∧
    WritesReg (.abs g a d) g d (fun l => (l.reg a).abs) ∧
    WritesReg (.neg g a d) g d (fun l => 0 - l.reg a) ∧
    WritesReg (.sext g b a d) g d (fun l =>
      let k := (l.reg b).toNat % 32
      (l.reg a <<< (31 - k)).sshiftRight (31 - k)) ∧
    (∀ n : Fin 32,
      WritesReg (.shlImm g n a d) g d (fun l => l.reg a <<< n.val) ∧
      WritesReg (.shrImm g n a d) g d (fun l => l.reg a >>> n.val) ∧
      WritesReg (.sarImm g n a d) g d (fun l => (l.reg a).sshiftRight n.val) ∧
      WritesReg (.rotlImm g n a d) g d (fun l => (l.reg a).rotateLeft n.val)) ∧
    (∀ (n : Fin 65536) (r : Fin 32),
      WritesReg (.movl g n r) g r (fun _ => BitVec.ofNat 32 n.val) ∧
      WritesReg (.movh g n r) g r (fun l => BitVec.ofNat 16 n.val ++ (l.reg r).setWidth 16))

/-- R97. -/
def Sys2Proof.Spec.WideArithmetic : Prop :=
  ∀ (g : Guard) (b a d : Fin 64),
    WritesPair (.add64 g b a d) g d (fun l => l.pair a + l.pair b) ∧
    WritesPair (.sub64 g b a d) g d (fun l => l.pair a - l.pair b) ∧
    WritesPair (.mul64lo g b a d) g d (fun l => l.pair a * l.pair b) ∧
    WritesPair (.mulwS32 g b a d) g d (fun l => (l.reg a).signExtend 64 * (l.reg b).signExtend 64) ∧
    WritesPair (.mulwN32 g b a d) g d (fun l => (l.reg a).setWidth 64 * (l.reg b).setWidth 64) ∧
    WritesPair (.shl64 g b a d) g d (fun l => l.pair a <<< ((l.reg b).toNat % 64)) ∧
    WritesPair (.shr64 g b a d) g d (fun l => l.pair a >>> ((l.reg b).toNat % 64)) ∧
    WritesPair (.sar64 g b a d) g d (fun l => (l.pair a).sshiftRight ((l.reg b).toNat % 64))

/-- R40 and R121: the 16-bit forms have the effects of the 32-bit forms with D, D, S and no guard; movi5 and addi5 take the S field as a
signed immediate. -/
def Sys2Proof.Spec.SixteenBitForms : Prop :=
  ∀ s d : Fin 32,
    WritesReg (.add16 s d) .always d (fun l => l.reg d + l.reg s) ∧
    WritesReg (.sub16 s d) .always d (fun l => l.reg d - l.reg s) ∧
    WritesReg (.and16 s d) .always d (fun l => l.reg d &&& l.reg s) ∧
    WritesReg (.or16 s d) .always d (fun l => l.reg d ||| l.reg s) ∧
    WritesReg (.xor16 s d) .always d (fun l => l.reg d ^^^ l.reg s) ∧
    WritesReg (.shl16 s d) .always d (fun l => l.reg d <<< ((l.reg s).toNat % 32)) ∧
    WritesReg (.shr16 s d) .always d (fun l => l.reg d >>> ((l.reg s).toNat % 32)) ∧
    WritesReg (.sar16 s d) .always d (fun l => (l.reg d).sshiftRight ((l.reg s).toNat % 32)) ∧
    WritesReg (.mov16 s d) .always d (fun l => l.reg s) ∧
    WritesReg (.movi5 s d) .always d (fun _ => (BitVec.ofNat 5 s).signExtend 32) ∧
    WritesReg (.addi5 s d) .always d (fun l => l.reg d + (BitVec.ofNat 5 s).signExtend 32) ∧
    WritesFloat (.fadd16 s d) .always d (fun e _ _ l => fAdd .f32 e.rounding (l.reg d).toNat (l.reg s).toNat) ∧
    WritesFloat (.fsub16 s d) .always d (fun e _ _ l => fSub .f32 e.rounding (l.reg d).toNat (l.reg s).toNat) ∧
    WritesFloat (.fmul16 s d) .always d (fun e _ _ l => fMul .f32 e.rounding (l.reg d).toNat (l.reg s).toNat) ∧
    WritesFloat (.fmin16 s d) .always d (fun _ _ _ l => fMinMax .f32 false (l.reg d).toNat (l.reg s).toNat) ∧
    WritesFloat (.fmax16 s d) .always d (fun _ _ _ l => fMinMax .f32 true (l.reg d).toNat (l.reg s).toNat)

/-- Integer arithmetic on registers and pairs, and the 16-bit forms. -/
def Obligations.IntegerInstructions : Prop := Spec.IntegerArithmetic ∧ Spec.WideArithmetic ∧ Spec.SixteenBitForms

/-- The combine field of a compare (R98). -/
def Sys2Proof.Spec.combined (c : Fin 4) (old new : Bool) : Bool :=
  if c = 0 then new else if c = 1 then old && new else if c = 2 then old || new else old ^^ new

/-- R98 and R100: integer compares and predicate logic. -/
def Obligations.ComparesAndPredicates : Prop :=
  ∀ (g : Guard) (b a d : Fin 64),
    (∀ (c : Fin 4) (p : Fin 8),
      WritesPred (.icmpEq g c b a p) g p (fun l => Spec.combined c (l.pred p) (l.reg a == l.reg b)) ∧
      WritesPred (.icmpNe g c b a p) g p (fun l => Spec.combined c (l.pred p) (l.reg a != l.reg b)) ∧
      WritesPred (.icmpLt g c 1 b a p) g p (fun l => Spec.combined c (l.pred p) ((l.reg a).slt (l.reg b))) ∧
      WritesPred (.icmpLe g c 1 b a p) g p (fun l => Spec.combined c (l.pred p) ((l.reg a).sle (l.reg b))) ∧
      WritesPred (.icmpGt g c 1 b a p) g p (fun l => Spec.combined c (l.pred p) ((l.reg b).slt (l.reg a))) ∧
      WritesPred (.icmpGe g c 1 b a p) g p (fun l => Spec.combined c (l.pred p) ((l.reg b).sle (l.reg a))) ∧
      WritesPred (.icmpLt g c 0 b a p) g p (fun l => Spec.combined c (l.pred p) ((l.reg a).ult (l.reg b))) ∧
      WritesPred (.icmpLe g c 0 b a p) g p (fun l => Spec.combined c (l.pred p) ((l.reg a).ule (l.reg b))) ∧
      WritesPred (.icmpGt g c 0 b a p) g p (fun l => Spec.combined c (l.pred p) ((l.reg b).ult (l.reg a))) ∧
      WritesPred (.icmpGe g c 0 b a p) g p (fun l => Spec.combined c (l.pred p) ((l.reg b).ule (l.reg a)))) ∧
    WritesPred (.pand g b a d) g d (fun l => l.pred a && l.pred b) ∧
    WritesPred (.por g b a d) g d (fun l => l.pred a || l.pred b) ∧
    WritesPred (.pxor g b a d) g d (fun l => l.pred a ^^ l.pred b) ∧
    WritesPred (.pandn g b a d) g d (fun l => l.pred a && !l.pred b) ∧
    WritesPred (.pnot g a d) g d (fun l => !l.pred a) ∧
    WritesPred (.pset g a d) g d (fun _ => decide (a.val = 1)) ∧
    WritesReg (.p2g g d) g d (fun l =>
      (BitVec.ofBoolListLE ((List.range 8).map l.pred)).setWidth 32) ∧
    (∀ p : Nat, 0 < p → p < 8 → CompletesInLanes (.g2p g a) g (fun _ _ _ _ l => { l with preds := ((l.reg a).setWidth 8) ||| 1 }) ∧
      ∀ l : Lane, ({ l with preds := ((l.reg a).setWidth 8) ||| 1 } : Lane).pred p = (l.reg a).getLsbD p)

/-- R101: the flag instructions read and edit the six sticky flags of the live lanes, whose order is NX, UF, OF, DZ, NV and DEP,
and raise no FPX; `fxtest` names a predicate. -/
def Obligations.FlagInstructions : Prop :=
  ∀ (g : Guard) (b a d : Fin 64),
    WritesReg (.fxrd g d) g d (fun l => l.fx.setWidth 32) ∧
    CompletesInLanes (.fxclr g b) g (fun _ _ _ _ l => { l with fx := l.fx &&& ~~~(BitVec.ofNat 6 b.val) }) ∧
    CompletesInLanes (.fxor g a) g (fun _ _ _ _ l => { l with fx := l.fx ||| (l.reg a).setWidth 6 }) ∧
    WritesPred (.fxtest g b d) g d (fun l => decide (l.fx &&& BitVec.ofNat 6 b.val ≠ 0)) ∧
    (8 ≤ d.val → ∀ seq n, ((infoOf (.fxtest g b d)).any fun f => f.legal seq n) = false) ∧
    Fx.nx = 1 ∧ Fx.uf = 2 ∧ Fx.of = 4 ∧ Fx.dz = 8 ∧ Fx.nv = 16 ∧ Fx.dep = 32

/-- R102, R103 and R104: masks and uniform registers are written once, and only if some lane executes the instruction. -/
def Sys2Proof.Spec.MasksAndUniformRegisters : Prop :=
  ∀ (g : Guard) (b a d : Fin 64),
    CompletesOnce (.mset g a d) g (fun _ e _ => e.setMask d (e.sreg (a + 1) ++ e.sreg a)) ∧
    CompletesInLanes (.mget g a d) g (fun _ e _ _ l => l.setPair d (e.mask a)) ∧
    CompletesOnce (.mand g b a d) g (fun _ e _ => e.setMask d (e.mask a &&& e.mask b)) ∧
    CompletesOnce (.mor g b a d) g (fun _ e _ => e.setMask d (e.mask a ||| e.mask b)) ∧
    (∀ s i e live, s.Issues (.mfromp g a d) i e → e.Executes i g live → live ≠ 0 →
      ∃ e', exec (.mfromp g a d) s = .next (s.setEngine i.eng e') ∧
        ∀ k, (e'.mask d).getLsbD k = (live.getLsbD k && (e.lane k).pred a)) ∧
    CompletesOnce (.sadd g b a d) g (fun _ e _ => e.setSreg d (e.sreg a + e.sreg b)) ∧
    CompletesOnce (.ssub g b a d) g (fun _ e _ => e.setSreg d (e.sreg a - e.sreg b)) ∧
    CompletesOnce (.sand g b a d) g (fun _ e _ => e.setSreg d (e.sreg a &&& e.sreg b)) ∧
    CompletesOnce (.sor g b a d) g (fun _ e _ => e.setSreg d (e.sreg a ||| e.sreg b)) ∧
    CompletesOnce (.sshl g b a d) g (fun _ e _ => e.setSreg d (e.sreg a <<< ((e.sreg b).toNat % 32))) ∧
    CompletesOnce (.sshr g b a d) g (fun _ e _ => e.setSreg d (e.sreg a >>> ((e.sreg b).toNat % 32))) ∧
    CompletesInLanes (.s2g g a d) g (fun _ e _ _ l => l.setReg d (e.sreg a)) ∧
    (∀ s i e live k l, s.Issues (.g2s g a d) i e → e.Executes i g live → live.getLsbD k = true → (∀ j, j < k → live.getLsbD j = false) →
      e.lanes.find? k = some l →
      ∃ e', exec (.g2s g a d) s = .next (s.setEngine i.eng e') ∧ s.sameMemory (s.setEngine i.eng e') ∧
        (e.setSreg d (l.reg a)).LanesOf e' (fun k l => if i.lanes.getLsbD k then l.goneOn i else l))

/-- R105 and R83: `sv` writes the value that its code names; a read of a low half latches the high half that the next reads of the
high half give. -/
def Sys2Proof.Spec.SystemValues : Prop :=
  ∀ (g : Guard) (a d : Fin 64) (s : State) (i : Issue) (e : Engine) (live : Dword),
    s.Issues (.sv g a d) i e → e.Executes i g live → live ≠ 0 →
    ∃ e', exec (.sv g a d) s = .next (s.setEngine i.eng e') ∧ s.sameMemory (s.setEngine i.eng e') ∧
      (∀ k l, live.getLsbD k = true → e.lanes.find? k = some l → ∃ v : Nat,
        e'.lanes.find? k = some ((l.setReg d (BitVec.ofNat 32 v)).goneOn i) ∧
        (a = 0 → v = k) ∧ (a = 8 → v = e.width) ∧ (a = 9 → v = e.place.core) ∧ (a = 10 → v = e.place.cluster) ∧
        (a = 11 → v = e.place.die) ∧ (a = 12 → v = s.clock.cyc % 2 ^ 32) ∧
        (a = 13 → ∀ w, e.cycHi = some w → v = w.toNat) ∧ (a = 13 → e.cycHi = none → v = s.clock.cyc / 2 ^ 32 % 2 ^ 32) ∧
        (a = 14 → v = s.clock.ptime % 2 ^ 32) ∧ (a = 15 → ∀ w, e.ptimeHi = some w → v = w.toNat) ∧
        (a = 15 → e.ptimeHi = none → v = s.clock.ptime / 2 ^ 32 % 2 ^ 32) ∧
        (a = 16 → v = l.launch) ∧ (a = 17 → v = if e.haltPend then 1 else 0) ∧
        (∀ la, s.launchOf l.launch = some la →
          (a = 1 → v = l.thread % la.block.1) ∧ (a = 2 → v = l.thread / la.block.1 % la.block.2.1) ∧
          (a = 3 → v = l.thread / (la.block.1 * la.block.2.1)) ∧ (a = 4 → v = l.block % la.grid.1) ∧
          (a = 5 → v = l.block / la.grid.1 % la.grid.2.1) ∧ (a = 6 → v = l.block / (la.grid.1 * la.grid.2.1))) ∧
        (a = 7 → e.block.isSome = true → v = e.gangIndex)) ∧
      (∀ k, live.getLsbD k = false → e'.lanes.find? k =
        (e.lanes.find? k).map fun l => if i.lanes.getLsbD k then l.goneOn i else l) ∧
      e' = { e with
        lanes := e'.lanes, sb := e'.sb
        cycHi := if a = 12 then some (BitVec.ofNat 32 (s.clock.cyc / 2 ^ 32)) else e.cycHi
        ptimeHi := if a = 14 then some (BitVec.ofNat 32 (s.clock.ptime / 2 ^ 32)) else e.ptimeHi }

/-- Masks, uniform registers and system values. -/
def Obligations.GangRegistersAndSystemValues : Prop := Spec.MasksAndUniformRegisters ∧ Spec.SystemValues

/-! ## Floating point -/

/-- The rational number that a finite value denotes; 0 for the others. -/
def Sys2Proof.Spec.rat : FloatVal → ℚ
  | .num neg m e => (if neg then -1 else 1) * m * (2 : ℚ) ^ e
  | _ => 0

/-- The order of values that are not NaN: an infinity lies beyond every finite value of the formats that have one. -/
def Sys2Proof.Spec.rank : FloatVal → ℚ
  | .inf neg => (if neg then -1 else 1) * 2 ^ 200
  | v => Spec.rat v

/-- The multiple of the step that R26 chooses for t ≥ 0. -/
def Sys2Proof.Spec.chosen (r : Rounding) (neg : Bool) (t : ℚ) : ℕ :=
  let n := ⌊t⌋₊
  match r.mode with
  | .rne | .rneSat => if t - n < 1 / 2 then n else if 1 / 2 < t - n then n + 1 else if n % 2 = 0 then n else n + 1
  | .rna => if t - n < 1 / 2 then n else n + 1
  | .rz => n
  | .ru => if neg then n else ⌈t⌉₊
  | .rd => if neg then ⌈t⌉₊ else n
  | .sd | .sdSat => ⌊t + ([0, 4, 2, 6, 1, 5, 3, 7].getD ((r.j + 3 * r.phi) % 8) 0 : ℕ) / 8⌋₊

/-- What rounding makes of a nonzero exact magnitude (R26, R28): the multiple n × q of its step, with NX exactly where it changes and UF
where it is tiny besides; beyond MAXF the result is that of the overflow table, with OF and NX. -/
def Sys2Proof.Spec.Rounded (f : FloatFmt) (r : Rounding) (neg : Bool) (a : ℚ) (res : FloatRes) : Prop :=
  let q : ℚ := (2 : ℚ) ^ (max (Int.log 2 a) f.emin - f.fracBits)
  let y : ℚ := Spec.chosen r neg (a / q) * q
  let maxf : ℚ := Spec.rat (f.decode f.maxCode)
  (y ≤ maxf →
    Spec.rat (f.decode res.code) = (if neg then -1 else 1) * y ∧ (f.decode res.code).isNeg = neg ∧
    (f.decode res.code).isNan = false ∧ res.code < 2 ^ f.width ∧
    res.flags = (if y ≠ a then Fx.nx else Fx.none) ||| (if y ≠ a ∧ a < (2 : ℚ) ^ f.emin then Fx.uf else Fx.none)) ∧
  (maxf < y → res.flags = Fx.of ||| Fx.nx ∧
    res.code = match r.mode with
      | .rne | .rna | .sd => if f.hasInf then f.withSign neg f.infCode else if f = .e4m3 then 0x7F else f.withSign neg f.maxCode
      | .rz | .rneSat | .sdSat => f.withSign neg f.maxCode
      | .ru => if neg ∨ f = .e2m1 then f.withSign neg f.maxCode else if f = .e4m3 then 0x7F else f.infCode
      | .rd => if !neg ∨ f = .e2m1 then f.withSign neg f.maxCode else if f = .e4m3 then 0x7F else f.withSign true f.infCode)

/-- R26 and R28: a nonzero exact value m × 2^e is rounded to the multiple of its step that the rule chooses. -/
def Obligations.RoundGivesTheChosenMultiple : Prop :=
  ∀ (f : FloatFmt) (r : Rounding) (neg : Bool) (m : Nat) (e : Int), 0 < m →
    Spec.Rounded f r neg (m * (2 : ℚ) ^ e) (roundNum f r neg m e)

/-- R36, R123 and R124: a sum of terms and products, none of them infinite or NaN, is formed exactly and rounded once; an exactly zero
sum is −0 if every term is −0, or if the terms differ in sign and the rounding is rd. -/
def Obligations.SumsAreExactAndRoundedOnce : Prop :=
  ∀ (f : FloatFmt) (r : Rounding) (acc : List FloatVal) (pairs : List (FloatVal × FloatVal)),
    let finite := fun (v : FloatVal) => ∃ n m e, v = .num n m e
    let terms := acc ++ pairs.map fun p => (p.1.mul p.2).1
    let total : ℚ := (acc.map Spec.rat).sum + (pairs.map fun p => Spec.rat p.1 * Spec.rat p.2).sum
    (∀ v ∈ acc, finite v) → (∀ p ∈ pairs, finite p.1 ∧ finite p.2) →
      (total ≠ 0 → ∃ (m : ℕ) (e : ℤ), 0 < m ∧ |total| = m * (2 : ℚ) ^ e ∧
        dotRound f r acc pairs = roundNum f r (decide (total < 0)) m e) ∧
      (total = 0 → dotRound f r acc pairs =
        ⟨f.withSign ((terms.all fun t => t.isNeg && t.isZero) ||
          (r.mode == .rd && terms.any FloatVal.isNeg && terms.any fun t => !t.isNeg)) 0, Fx.none⟩)

/-- R123: the special values of sums and products: a NaN operand gives the canonical NaN, with NV where one signals or a product is
0 × ∞; infinities of one sign give that infinity, and infinities of both signs give the canonical NaN and raise NV, beside a NaN too (R33). -/
def Sys2Proof.Spec.SpecialValuesOfSums : Prop :=
  ∀ (f : FloatFmt) (r : Rounding) (acc : List FloatVal) (pairs : List (FloatVal × FloatVal)), f.hasInf = true →
    let ops := acc ++ pairs.map Prod.fst ++ pairs.map Prod.snd
    let zeroInf := fun (p : FloatVal × FloatVal) =>
      (p.1.isZero && (p.2 == .inf true || p.2 == .inf false)) || (p.2.isZero && (p.1 == .inf true || p.1 == .inf false))
    let terms := acc ++ pairs.map fun p => (p.1.mul p.2).1
    (ops.any FloatVal.isNan = true ∨ pairs.any zeroInf = true →
      dotRound f r acc pairs =
        ⟨f.nanCode, if ops.any FloatVal.isSignalling || pairs.any zeroInf ||
          (terms.contains (.inf true) && terms.contains (.inf false)) then Fx.nv else Fx.none⟩) ∧
    (ops.any FloatVal.isNan = false → pairs.any zeroInf = false →
      (terms.contains (.inf true) = true → terms.contains (.inf false) = true → dotRound f r acc pairs = ⟨f.nanCode, Fx.nv⟩) ∧
      (terms.contains (.inf true) = true → terms.contains (.inf false) = false →
        dotRound f r acc pairs = ⟨f.withSign true f.infCode, Fx.none⟩) ∧
      (terms.contains (.inf true) = false → terms.contains (.inf false) = true →
        dotRound f r acc pairs = ⟨f.infCode, Fx.none⟩))

/-- R31 and R32: a conversion to an integer clamps with NV; infinities and NaNs convert by the table of special values, where a
saturating rounding clamps an infinity of a floating destination with NX. -/
def Sys2Proof.Spec.ConversionsOfSpecialValues : Prop :=
  ∀ (r : Rounding) (neg : Bool),
    (∀ f : FloatFmt, (cvtVal (.float f) r (.inf neg)) =
      if r.mode = .rneSat ∨ r.mode = .sdSat then ⟨f.withSign neg f.maxCode, Fx.nx⟩
      else if f = .e4m3 then ⟨0x7F, Fx.nv⟩ else if f = .e2m1 then ⟨f.withSign neg 7, Fx.nv⟩
      else ⟨f.withSign neg f.infCode, Fx.none⟩) ∧
    (∀ (f : FloatFmt) (sig : Bool), (cvtVal (.float f) r (.nan sig)) =
      if f = .e2m1 then ⟨0, Fx.nv⟩ else ⟨f.nanCode, if sig then Fx.nv else Fx.none⟩) ∧
    (∀ sig, cvtVal (.int true) r (.nan sig) = ⟨0, Fx.nv⟩ ∧ cvtVal (.int false) r (.nan sig) = ⟨0, Fx.nv⟩) ∧
    cvtVal (.int true) r (.inf neg) = ⟨if neg then 0x80000000 else 0x7FFFFFFF, Fx.nv⟩ ∧
    cvtVal (.int false) r (.inf neg) = ⟨if neg then 0 else 0xFFFFFFFF, Fx.nv⟩ ∧
    (∀ (m : Nat) (e : Int),
      let x : ℚ := (if neg then -1 else 1) * (m * (2 : ℚ) ^ e)
      let y : ℤ := (if neg then -1 else 1) * (Spec.chosen r neg (m * (2 : ℚ) ^ e) : ℕ)
      let s := cvtVal (.int true) r (.num neg m e)
      let n := cvtVal (.int false) r (.num neg m e)
      (y < -2 ^ 31 → s = ⟨0x80000000, Fx.nv⟩) ∧ (2 ^ 31 ≤ y → s = ⟨0x7FFFFFFF, Fx.nv⟩) ∧
      (y < 0 → n = ⟨0, Fx.nv⟩) ∧ (2 ^ 32 ≤ y → n = ⟨0xFFFFFFFF, Fx.nv⟩) ∧
      (-2 ^ 31 ≤ y → y < 2 ^ 31 → s.code = (BitVec.ofInt 32 y).toNat ∧
        (y = x → s.flags = Fx.none) ∧ (y ≠ x → s.flags = Fx.nx)) ∧
      (0 ≤ y → y < 2 ^ 32 → n.code = y.toNat ∧ (y = x → n.flags = Fx.none) ∧ (y ≠ x → n.flags = Fx.nx)))

/-- R124, R125, R126 and R127: FP32 arithmetic, packed arithmetic and dot products; the exact results are those of
`SumsAreExactAndRoundedOnce` and `SpecialValuesOfSums`, under FPM.RM. -/
def Obligations.FloatArithmetic : Prop :=
  ∀ (g : Guard) (b a d : Fin 64),
    let x := fun (l : Lane) (r : Fin 64) => (l.reg r).toNat
    let elem := fun (w k v : Nat) => v / 2 ^ (w * k) % 2 ^ w
    let pack := fun (lo hi : FloatRes) => (⟨lo.code + hi.code * 2 ^ 16, lo.flags ||| hi.flags⟩ : FloatRes)
    let packed := fun (op : Nat → FloatRes) => pack (op 0) (op 1)
    let dot := fun (f : FloatFmt) (n : Nat) (e : Engine) (l : Lane) =>
      dotRound .f32 e.rounding [FloatFmt.f32.decode (x l d)]
        ((List.range n).map fun k => (f.decode (elem f.width k (x l a)), f.decode (elem f.width k (x l b))))
    WritesFloat (.fadd g b a d) g d (fun e _ _ l => dotRound .f32 e.rounding [FloatFmt.f32.decode (x l a), FloatFmt.f32.decode (x l b)] []) ∧
    WritesFloat (.fsub g b a d) g d (fun e _ _ l =>
      dotRound .f32 e.rounding [FloatFmt.f32.decode (x l a), (FloatFmt.f32.decode (x l b)).negate] []) ∧
    WritesFloat (.fmul g b a d) g d (fun e _ _ l => dotRound .f32 e.rounding [] [(FloatFmt.f32.decode (x l a), FloatFmt.f32.decode (x l b))]) ∧
    WritesFloat (.ffma g b a d) g d (fun e _ _ l =>
      dotRound .f32 e.rounding [FloatFmt.f32.decode (x l d)] [(FloatFmt.f32.decode (x l a), FloatFmt.f32.decode (x l b))]) ∧
    WritesFloat (.fmin g b a d) g d (fun _ _ _ l => fMinMax .f32 false (x l a) (x l b)) ∧
    WritesFloat (.fmax g b a d) g d (fun _ _ _ l => fMinMax .f32 true (x l a) (x l b)) ∧
    WritesReg (.fabs g a d) g d (fun l => l.reg a &&& 0x7FFFFFFF) ∧
    WritesReg (.fneg g a d) g d (fun l => l.reg a ^^^ 0x80000000) ∧
    WritesFloat (.faddBf16x2 g b a d) g d (fun e _ _ l => packed fun k => fAdd .bf16 e.rounding (elem 16 k (x l a)) (elem 16 k (x l b))) ∧
    WritesFloat (.fmulBf16x2 g b a d) g d (fun e _ _ l => packed fun k => fMul .bf16 e.rounding (elem 16 k (x l a)) (elem 16 k (x l b))) ∧
    WritesFloat (.ffmaBf16x2 g b a d) g d (fun e _ _ l =>
      packed fun k => fFma .bf16 e.rounding (elem 16 k (x l d)) (elem 16 k (x l a)) (elem 16 k (x l b))) ∧
    WritesFloat (.faddF16x2 g b a d) g d (fun e _ _ l => packed fun k => fAdd .f16 e.rounding (elem 16 k (x l a)) (elem 16 k (x l b))) ∧
    WritesFloat (.fmulF16x2 g b a d) g d (fun e _ _ l => packed fun k => fMul .f16 e.rounding (elem 16 k (x l a)) (elem 16 k (x l b))) ∧
    WritesFloat (.ffmaF16x2 g b a d) g d (fun e _ _ l =>
      packed fun k => fFma .f16 e.rounding (elem 16 k (x l d)) (elem 16 k (x l a)) (elem 16 k (x l b))) ∧
    WritesFloat (.fmaxBf16x2 g b a d) g d (fun _ _ _ l => packed fun k => fMinMax .bf16 true (elem 16 k (x l a)) (elem 16 k (x l b))) ∧
    WritesFloat (.fminBf16x2 g b a d) g d (fun _ _ _ l => packed fun k => fMinMax .bf16 false (elem 16 k (x l a)) (elem 16 k (x l b))) ∧
    WritesFloat (.dot2Bf16 g b a d) g d (fun e _ _ l => dot .bf16 2 e l) ∧
    WritesFloat (.dot2F16 g b a d) g d (fun e _ _ l => dot .f16 2 e l) ∧
    WritesFloat (.dot4E4m3 g b a d) g d (fun e _ _ l => dot .e4m3 4 e l) ∧
    WritesFloat (.dot4E5m2 g b a d) g d (fun e _ _ l => dot .e5m2 4 e l) ∧
    WritesFloat (.dot8E2m1 g b a d) g d (fun e _ _ l => dot .e2m1 8 e l) ∧
    WritesReg (.idot4S8 g b a d) g d (fun l => l.reg d + ((List.range 4).map fun k =>
      ((l.reg a).extractLsb' (8 * k) 8).signExtend 32 * ((l.reg b).extractLsb' (8 * k) 8).signExtend 32).sum) ∧
    WritesReg (.idot4N8 g b a d) g d (fun l => l.reg d + ((List.range 4).map fun k =>
      ((l.reg a).extractLsb' (8 * k) 8).setWidth 32 * ((l.reg b).extractLsb' (8 * k) 8).setWidth 32).sum)

/-- R125: the minimum and maximum of two codes: −0 lies below +0, a NaN operand gives the other one, two NaNs give the canonical NaN,
a signalling NaN raises NV, and no rounding takes place. -/
def Sys2Proof.Spec.MinimumAndMaximum : Prop :=
  ∀ (f : FloatFmt) (x y : Nat), f.hasInf = true → x < 2 ^ f.width → y < 2 ^ f.width →
    let vx := f.decode x
    let vy := f.decode y
    let nv := if vx.isSignalling || vy.isSignalling then Fx.nv else Fx.none
    (∀ up, (fMinMax f up x y).flags = nv) ∧
    (∀ up, vx.isNan = true → vy.isNan = true → (fMinMax f up x y).code = f.nanCode) ∧
    (∀ up, vx.isNan = true → vy.isNan = false → (fMinMax f up x y).code = y) ∧
    (∀ up, vx.isNan = false → vy.isNan = true → (fMinMax f up x y).code = x) ∧
    (vx.isNan = false → vy.isNan = false →
      (Spec.rank vx < Spec.rank vy → (fMinMax f false x y).code = x ∧ (fMinMax f true x y).code = y) ∧
      (Spec.rank vy < Spec.rank vx → (fMinMax f false x y).code = y ∧ (fMinMax f true x y).code = x) ∧
      (x = y → ∀ up, (fMinMax f up x y).code = x)) ∧
    (fMinMax f false 0 f.signCode).code = f.signCode ∧ (fMinMax f true 0 f.signCode).code = 0 ∧
    (fMinMax f false f.signCode 0).code = f.signCode ∧ (fMinMax f true f.signCode 0).code = 0

/-- The condition codes 0 to 5 on two rational numbers (R49). -/
def Sys2Proof.Spec.holds (cond : Nat) (x y : ℚ) : Prop :=
  match cond with
  | 0 => x = y | 1 => x ≠ y | 2 => x < y | 3 => x ≤ y | 4 => y < x | _ => y ≤ x

/-- R99: FCMP compares by value, with −0 equal to +0; where an operand is a NaN the result is that of the unordered row, NV is raised for
a signalling NaN and, in the ordered conditions with U = 0, for a quiet one; pd is combined as in ICMP. -/
def Sys2Proof.Spec.FloatCompares : Prop :=
  ∀ (g : Guard) (c : Fin 4) (b a : Fin 64) (d : Fin 8),
    let sets := fun (cond : Nat) (u : Bool) (x : Instr) =>
      ∃ v : Word → Word → Bool × Fx,
        CompletesWithFlags x g (fun _ _ _ l =>
          (l.setPred d (Spec.combined c (l.pred d) (v (l.reg a) (l.reg b)).1), (v (l.reg a) (l.reg b)).2)) id ∧
        ∀ p q : Word,
          let vp := FloatFmt.f32.decode p.toNat
          let vq := FloatFmt.f32.decode q.toNat
          ((vp.isNan || vq.isNan) = true →
            (v p q).1 = (if cond = 1 then true else u) ∧
            (v p q).2 = if vp.isSignalling || vq.isSignalling || (decide (2 ≤ cond) && !u) then Fx.nv else Fx.none) ∧
          ((vp.isNan || vq.isNan) = false →
            (v p q).2 = Fx.none ∧ ((v p q).1 = true ↔ Spec.holds cond (Spec.rank vp) (Spec.rank vq)))
    (∀ u : Fin 2, sets 0 (u.val == 1) (.fcmpEq g c u b a d) ∧ sets 2 (u.val == 1) (.fcmpLt g c u b a d) ∧
      sets 3 (u.val == 1) (.fcmpLe g c u b a d) ∧ sets 4 (u.val == 1) (.fcmpGt g c u b a d) ∧
      sets 5 (u.val == 1) (.fcmpGe g c u b a d)) ∧
    sets 1 false (.fcmpNe g c b a d)

/-- Minimum, maximum and compares of floating-point values. -/
def Obligations.FloatOrder : Prop := Spec.MinimumAndMaximum ∧ Spec.FloatCompares

/-- R128, R129 and R136: the special functions and the instructions that classify and scale write what their function gives for S1, under
FPM.RM where the entry says so.  Each of them completes where TMODE enables no flag (R35). -/
def Obligations.SpecialFunctionsAndScaling : Prop :=
  ∀ (g : Guard) (b a d : Fin 64),
    let x := fun (l : Lane) => (l.reg a).toNat
    WritesFloat (.rcp g a d) g d (fun e _ _ l => sfuRcp e.rounding (x l)) ∧
    WritesFloat (.rsq g a d) g d (fun _ _ _ l => sfuRsq (x l)) ∧
    WritesFloat (.sqrt g a d) g d (fun e _ _ l => sfuSqrt e.rounding (x l)) ∧
    WritesFloat (.exp2 g a d) g d (fun _ _ _ l => sfuExp2 (x l)) ∧
    WritesFloat (.log2 g a d) g d (fun _ _ _ l => sfuLog2 (x l)) ∧
    WritesFloat (.sin g a d) g d (fun _ _ _ l => sfuSin (x l)) ∧
    WritesFloat (.cos g a d) g d (fun _ _ _ l => sfuCos (x l)) ∧
    WritesFloat (.tanh g a d) g d (fun _ _ _ l => sfuTanh (x l)) ∧
    WritesReg (.fclass g a d) g d (fun l => match FloatFmt.f32.decode (x l) with
      | .inf true => 1 | .inf false => 0x80 | .nan true => 0x100 | .nan false => 0x200
      | .num neg m _ =>
        if m = 0 then (if neg then 8 else 0x10) else if m < 2 ^ 23 then (if neg then 4 else 0x20) else if neg then 2 else 0x40) ∧
    WritesFloat (.frnd g a d) g d (fun e _ _ l => frnd e.rounding (x l)) ∧
    WritesFloat (.fgetexp g a d) g d (fun _ _ _ l => fgetexp (x l)) ∧
    WritesFloat (.fscale g b a d) g d (fun e _ _ l => fscale e.rounding (x l) (l.reg b).toInt) ∧
    WritesReg (.fcopysign g b a d) g d (fun l => (l.reg a &&& 0x7FFFFFFF) ||| (l.reg b &&& 0x80000000)) ∧
    WritesFloat (.fsat g a d) g d (fun _ _ _ l => fsat (x l)) ∧
    (∀ y ∈ [Instr.rcp g a d, .rsq g a d, .sqrt g a d, .exp2 g a d, .log2 g a d, .sin g a d, .cos g a d, .tanh g a d, .fclass g a d,
        .frnd g a d, .fgetexp g a d, .fscale g b a d, .fcopysign g b a d, .fsat g a d],
      ∀ s i e, s.Issues y i e → e.tmode = 0 → ∃ e', exec y s = .next (s.setEngine i.eng e'))

/-- R129 and R138: the special and boundary values of the special functions, of fgetexp and of fsat. -/
def Sys2Proof.Spec.SpecialValuesOfFunctions : Prop :=
  ∀ (r : Rounding) (x : Nat), x < 2 ^ 32 →
    let nan : Nat := 0x7FC00000
    (∀ sig, FloatFmt.f32.decode x = .nan sig →
      let res : FloatRes := ⟨nan, if sig then Fx.nv else Fx.none⟩
      sfuRcp r x = res ∧ sfuRsq x = res ∧ sfuSqrt r x = res ∧ sfuExp2 x = res ∧ sfuLog2 x = res ∧ sfuSin x = res ∧ sfuCos x = res ∧
      sfuTanh x = res ∧ frnd r x = res ∧ (∀ n, fscale r x n = res) ∧ fgetexp x = ⟨0x7FFFFFFF, Fx.nv⟩ ∧
      fsat x = ⟨0, if sig then Fx.nv else Fx.none⟩) ∧
    (∀ neg, FloatFmt.f32.decode x = .inf neg →
      sfuRcp r x = ⟨if neg then 0x80000000 else 0, Fx.none⟩ ∧ sfuExp2 x = ⟨if neg then 0 else 0x7F800000, Fx.none⟩ ∧
      sfuSin x = ⟨nan, Fx.nv⟩ ∧ sfuCos x = ⟨nan, Fx.nv⟩ ∧ sfuTanh x = ⟨if neg then 0xBF800000 else 0x3F800000, Fx.none⟩ ∧
      sfuRsq x = (if neg then ⟨nan, Fx.nv⟩ else ⟨0, Fx.none⟩) ∧ sfuSqrt r x = (if neg then ⟨nan, Fx.nv⟩ else ⟨x, Fx.none⟩) ∧
      sfuLog2 x = (if neg then ⟨nan, Fx.nv⟩ else ⟨0x7F800000, Fx.none⟩) ∧ fgetexp x = ⟨0x7FFFFFFF, Fx.nv⟩ ∧
      frnd r x = ⟨x, Fx.none⟩ ∧ fsat x = ⟨if neg then 0 else 0x3F800000, Fx.none⟩) ∧
    (∀ neg e, FloatFmt.f32.decode x = .num neg 0 e →
      sfuRcp r x = ⟨if neg then 0xFF800000 else 0x7F800000, Fx.dz⟩ ∧ sfuRsq x = ⟨if neg then 0xFF800000 else 0x7F800000, Fx.dz⟩ ∧
      sfuSqrt r x = ⟨x, Fx.none⟩ ∧ sfuExp2 x = ⟨0x3F800000, Fx.none⟩ ∧ sfuLog2 x = ⟨0xFF800000, Fx.dz⟩ ∧
      sfuSin x = ⟨x, Fx.none⟩ ∧ sfuCos x = ⟨0x3F800000, Fx.none⟩ ∧ sfuTanh x = ⟨x, Fx.none⟩ ∧ frnd r x = ⟨x, Fx.none⟩ ∧
      (∀ n, fscale r x n = ⟨x, Fx.none⟩) ∧ fgetexp x = ⟨0x80000000, Fx.nv⟩ ∧ fsat x = ⟨0, Fx.none⟩) ∧
    (∀ m e, FloatFmt.f32.decode x = .num true m e → m ≠ 0 →
      sfuRsq x = ⟨nan, Fx.nv⟩ ∧ sfuSqrt r x = ⟨nan, Fx.nv⟩ ∧ sfuLog2 x = ⟨nan, Fx.nv⟩ ∧ fsat x = ⟨0, Fx.none⟩)

/-- The special values of sums, of conversions and of the special functions. -/
def Obligations.SpecialValuesOfFloats : Prop := Spec.SpecialValuesOfSums ∧ Spec.ConversionsOfSpecialValues ∧ Spec.SpecialValuesOfFunctions

/-- The DPH field of FPM advanced by one, modulo 8 (R27). -/
def Sys2Proof.Spec.dphNext (fpm : Word) : Word := (fpm &&& 0xFFFFF8FF) ||| (BitVec.ofNat 32 ((fpm.toNat / 256 + 1) % 8) <<< 8)

/-- R130, R131, R134 and R135: FCVT converts between the formats of its codes, dithering by lane and FPM.DPH, which a dithered form
advances once; the unpacking forms and qdec convert exactly; the packing forms give one word to every lane of a group.  Each of them
completes where TMODE enables no flag (R35).  That an infinity between equal formats is returned under .sat too is the model's reading (log
entry 46). -/
def Obligations.ConversionInstructions : Prop :=
  ∀ (g : Guard) (b a d : Fin 64),
    let lane := fun (e : Engine) (live : Dword) (j : Nat) => if live.getLsbD j then ((e.lane j).reg a).toNat else 0
    (∀ rnd dst src : Fin 8, ∃ mode : RoundMode,
      [RoundMode.rne, .rz, .rd, .ru, .sd, .rneSat, .sdSat, .rna].getD rnd .rne = mode ∧
      CompletesWithFlags (.fcvt g rnd dst src a d) g
        (fun e _ k l =>
          let res := fcvt (cvtFmt dst) (cvtFmt src) ⟨mode, k % 8, e.fpm.toNat / 256 % 8⟩ (l.reg a).toNat
          (l.setReg d (BitVec.ofNat 32 res.code), res.flags))
        (fun e => if mode = .sd ∨ mode = .sdSat then { e with fpm := Spec.dphNext e.fpm } else e)) ∧
    WritesFloat (.qdecE2m1 g b a d) g d (fun _ _ k l =>
      ⟨(cvtVal (.float .f32) (.plain .rne) (match FloatFmt.e2m1.decode ((l.reg a).toNat / 16 ^ (k % 8) % 16) with
        | .num n m e => .num n (m * (e3m5 ((l.reg b).toNat % 256)).1) (e + (e3m5 ((l.reg b).toNat % 256)).2)
        | v => v)).code, Fx.none⟩) ∧
    WritesFloat (.unpkE4m3 g a d) g d (fun _ _ k l =>
      cvtVal (.float .f32) (.plain .rne) (FloatFmt.e4m3.decode ((l.reg a).toNat / 256 ^ (k % 4) % 256))) ∧
    WritesFloat (.unpkE5m2 g a d) g d (fun _ _ k l =>
      cvtVal (.float .f32) (.plain .rne) (FloatFmt.e5m2.decode ((l.reg a).toNat / 256 ^ (k % 4) % 256))) ∧
    WritesFloat (.pk2Bf16 g a d) g d (fun e live k l =>
      let one := fun x => fcvt (.float .bf16) (.float .f32) e.rounding x
      ⟨(one (lane e live (k / 2 * 2))).code + (one (lane e live (k / 2 * 2 + 1))).code * 2 ^ 16, (one (l.reg a).toNat).flags⟩) ∧
    WritesFloat (.pk2F16 g a d) g d (fun e live k l =>
      let one := fun x => fcvt (.float .f16) (.float .f32) e.rounding x
      ⟨(one (lane e live (k / 2 * 2))).code + (one (lane e live (k / 2 * 2 + 1))).code * 2 ^ 16, (one (l.reg a).toNat).flags⟩) ∧
    (∀ f, (f = .e4m3 ∨ f = .e5m2) → ∃ one : Engine → Nat → FloatRes,
      WritesFloat (if f = .e4m3 then .pk4E4m3 g a d else .pk4E5m2 g a d) g d (fun e live k l =>
        ⟨((List.range 4).map fun j => (one e (lane e live (k / 4 * 4 + j))).code * 256 ^ j).sum, (one e (l.reg a).toNat).flags⟩) ∧
      ∀ e x, let v := FloatFmt.f32.decode x
        (∀ sig, v = .nan sig → one e x = ⟨f.nanCode, if sig then Fx.nv else Fx.none⟩) ∧
        (∀ n, v = .inf n → one e x = ⟨f.withSign n f.maxCode, Fx.nx⟩) ∧
        (∀ n m p, v = .num n m p → one e x = fcvt (.float f) (.float .f32) e.rounding x ∨
          (one e x = ⟨f.withSign n f.maxCode, Fx.of ||| Fx.nx⟩ ∧ Spec.rat (f.decode f.maxCode) < |Spec.rat v|)) ∧
        (v.isNan = false → (f.decode (one e x).code).isNan = false)) ∧
    (∀ (rnd dst src : Fin 8), ∀ y ∈ [Instr.fcvt g rnd dst src a d, .qdecE2m1 g b a d, .pk2Bf16 g a d, .pk2F16 g a d, .pk4E4m3 g a d,
        .pk4E5m2 g a d, .unpkE4m3 g a d, .unpkE5m2 g a d, .qencE2m1 g a d],
      ∀ s i e, s.Issues y i e → e.tmode = 0 → ∃ e', exec y s = .next (s.setEngine i.eng e'))

/-- R133: `qenc` gives every executing lane of a group of eight the group's word and the least scale code c with 6 × E3M5(c) at or above
the largest finite magnitude; a lane that does not execute it counts as +0. -/
def Obligations.QencEncodesABlock : Prop :=
  ∀ (g : Guard) (a d : Fin 64) (s : State) (i : Issue) (e : Engine) (live : Dword) (k : Nat) (l : Lane),
    s.Issues (.qencE2m1 g a d) i e → e.Executes i g live → e.tmode = 0 → live.getLsbD k = true → e.lanes.find? k = some l →
    let x := fun (j : Nat) => if live.getLsbD (k / 8 * 8 + j) then ((e.lane (k / 8 * 8 + j)).reg a).toNat else 0
    let v := fun (j : Nat) => FloatFmt.f32.decode (x j)
    ∃ e' sc, exec (.qencE2m1 g a d) s = .next (s.setEngine i.eng e') ∧ sc < 256 ∧
      (e'.lane k).reg (d + 1) = BitVec.ofNat 32 sc ∧
      (∀ j, j < 8 → sc ≠ 0xFF → |Spec.rat (v j)| ≤ 6 * ((e3m5 sc).1 * (2 : ℚ) ^ (e3m5 sc).2)) ∧
      (∀ c, c < sc → ∃ j, j < 8 ∧ 6 * ((e3m5 c).1 * (2 : ℚ) ^ (e3m5 c).2) < |Spec.rat (v j)|) ∧
      (∀ j, j < 8 →
        let code := ((e'.lane k).reg d).toNat / 16 ^ j % 16
        let scale : ℚ := (e3m5 sc).1 * (2 : ℚ) ^ (e3m5 sc).2
        let a : ℚ := |Spec.rat (v j)| / scale
        let q : ℚ := (2 : ℚ) ^ (max (Int.log 2 a) 0 - 1)
        ((v j).isNan = true → code = 0) ∧ (∀ n, v j = .inf n → code = if n then 0xF else 7) ∧
        (∀ n p, v j = .num n 0 p → code = if n then 8 else 0) ∧
        (∀ n m p, v j = .num n m p → m ≠ 0 → scale ≠ 0 → (FloatFmt.e2m1.decode code).isNeg = n ∧
          |Spec.rat (FloatFmt.e2m1.decode code)| = min (Spec.chosen (.plain .rne) n (a / q) * q) 6))

/-! ## Cross-lane instructions -/

/-- One step of a reduction (R112): op 0 adds, 1 takes the minimum, 2 the maximum, on a type of R57. -/
def Sys2Proof.Spec.reduceStep (r : Rounding) (op ty : Nat) (x y : Dword) : Dword × Fx :=
  let xw : Word := x.setWidth 32
  let yw : Word := y.setWidth 32
  let float := fun (f : FloatFmt) (p q : Nat) => if op = 0 then fAdd f r p q else fMinMax f (decide (op = 2)) p q
  let pair := fun (f : FloatFmt) =>
    let lo := float f (xw.toNat % 65536) (yw.toNat % 65536)
    let hi := float f (xw.toNat / 65536) (yw.toNat / 65536)
    (BitVec.ofNat 64 (lo.code + 65536 * hi.code), lo.flags ||| hi.flags)
  if ty = 2 then (BitVec.ofNat 64 (float .f32 xw.toNat yw.toNat).code, (float .f32 xw.toNat yw.toNat).flags)
  else if ty = 3 then pair .bf16
  else if ty = 4 then pair .f16
  else if op = 0 then (if ty < 2 then (xw + yw).setWidth 64 else x + y, Fx.none)
  else
    let less := if ty = 0 then yw.slt xw else if ty = 1 then yw.ult xw else if ty = 5 then y.slt x else y.ult x
    (if less == decide (op = 1) then y else x, Fx.none)

/-- The sequential pass over the values of the arrived lanes, from the first on (R112). -/
def Sys2Proof.Spec.pass (step : Dword → Dword → Dword × Fx) : List Dword → Dword × Fx
  | [] => (0, Fx.none)
  | x :: rest => rest.foldl (fun acc y => ((step acc.1 y).1, acc.2 ||| (step acc.1 y).2)) (x, Fx.none)

/-- The value that a lane presents: a register, or the pair of a 64-bit type. -/
def Sys2Proof.Spec.presents (ty a : Nat) (l : Lane) : Dword := if ty = 5 ∨ ty = 6 then l.pair a else (l.reg a).setWidth 64

/-- A result in D, or in the pair of a 64-bit type. -/
def Sys2Proof.Spec.takes (ty d : Nat) (l : Lane) (v : Dword) : Lane :=
  if ty = 5 ∨ ty = 6 then l.setPair d v else l.setReg d (v.setWidth 32)

/-- R110: votes over the arrived lanes, on a predicate or on an fx bit. -/
def Sys2Proof.Spec.Votes : Prop :=
  ∀ (g : Guard) (b a d : Fin 64),
    let same := fun (e : Engine) (_ : List (Nat × Lane)) => e
    let vote := fun (v : Lane → Bool) (any all count ballot : Instr) =>
      CompletesAcross any g b (fun _ arr _ l => (l.setPred d (arr.any fun p => v p.2), Fx.none)) same ∧
      CompletesAcross all g b (fun _ arr _ l => (l.setPred d (arr.all fun p => v p.2), Fx.none)) same ∧
      CompletesAcross count g b (fun _ arr _ l => (l.setReg d (BitVec.ofNat 32 (arr.countP fun p => v p.2)), Fx.none)) same ∧
      CompletesAcross ballot g b (fun _ _ _ l => (l, Fx.none)) (fun e arr =>
        e.setMask d ((BitVec.ofBoolListLE ((List.range 64).map fun k => arr.any fun p => p.1 == k && v p.2)).setWidth 64))
    vote (fun l => l.pred a) (.voteAnyP g b a d) (.voteAllP g b a d) (.voteCountP g b a d) (.voteBallotP g b a d) ∧
    vote (fun l => l.fx.getLsbD a) (.voteAnyFx g b a d) (.voteAllFx g b a d) (.voteCountFx g b a d) (.voteBallotFx g b a d)

/-- R111: a shuffle gives each arrived lane S1 of its source lane if that lane arrived, and otherwise its own. -/
def Sys2Proof.Spec.Shuffles : Prop :=
  ∀ (g : Guard) (m : Fin 4) (b : Fin 32) (a d : Fin 64),
    let shuffle := fun (x : Instr) (source : Nat → Nat → Option Nat) =>
      CompletesAcross x g m
        (fun _ arr k l => (l.setReg d ((((source k (l.reg b).toNat).bind fun j => arr.find? fun p => p.1 == j).map
          fun p => p.2.reg a).getD (l.reg a)), Fx.none))
        fun e _ => e
    shuffle (.shflIdx g m b a d) (fun _ v => some v) ∧
    shuffle (.shflUp g m b a d) (fun k v => if v ≤ k then some (k - v) else none) ∧
    shuffle (.shflDown g m b a d) (fun k v => some (k + v)) ∧
    shuffle (.shflXor g m b a d) (fun k v => some (k ^^^ v))

/-- R109, R112 and R113: reductions and scans combine the arrived lanes in ascending order, rounded under FPM.RM. -/
def Sys2Proof.Spec.ReductionsAndScans : Prop :=
  ∀ (g : Guard) (m : Fin 4) (b : Fin 32) (a d : Fin 64),
    let same := fun (e : Engine) (_ : List (Nat × Lane)) => e
    let values := fun (arr : List (Nat × Lane)) => arr.map fun p => Spec.presents b a p.2
    let reduce := fun (x : Instr) (op : Nat) =>
      CompletesAcross x g m
        (fun e arr _ l =>
          let r := Spec.pass (Spec.reduceStep e.rounding op b) (values arr)
          (Spec.takes b d l r.1, r.2)) same
    let logic := fun (f : Dword → Dword → Dword) (n : Fin 32) =>
      CompletesAcross (.xredLogic g m n a d) g m
        (fun _ arr _ l =>
          (l.setReg d ((Spec.pass (fun x y => (f x y, Fx.none)) (arr.map fun p => (p.2.reg a).setWidth 64)).1.setWidth 32), Fx.none))
        same
    let scan := fun (x : Instr) (op : Nat) (first : Option Dword) =>
      CompletesAcross x g m
        (fun e arr k l =>
          let before := arr.filter fun p => if first.isSome then p.1 < k else p.1 ≤ k
          let r := if before = [] then (first.getD 0, Fx.none) else Spec.pass (Spec.reduceStep e.rounding op b) (values before)
          (Spec.takes b d l r.1, r.2)) same
    let least : Dword := if b = 0 then 0x80000000 else if b = 2 then 0xFF800000 else if b = 5 then 0x8000000000000000 else 0
    reduce (.xredAdd g m b a d) 0 ∧ reduce (.xredMin g m b a d) 1 ∧ reduce (.xredMax g m b a d) 2 ∧
    logic (· &&& ·) 0 ∧ logic (· ||| ·) 1 ∧ logic (· ^^^ ·) 2 ∧
    scan (.xscanAddInc g m b a d) 0 none ∧ scan (.xscanAddExc g m b a d) 0 (some 0) ∧
    scan (.xscanMaxInc g m b a d) 2 none ∧ scan (.xscanMaxExc g m b a d) 2 (some least)

/-- Votes, shuffles, reductions and scans over the lanes that arrive. -/
def Obligations.CrossLaneInstructions : Prop := Spec.Votes ∧ Spec.Shuffles ∧ Spec.ReductionsAndScans

/-- The instructions that meet in an instance, with the number of the mask register that each names. -/
def Sys2Proof.Spec.meeting (g : Guard) (b a d : Fin 64) (m : Fin 4) (n : Fin 32) : List (Instr × Nat) :=
  [(.voteAnyP g b a d, b), (.voteAllP g b a d, b), (.voteCountP g b a d, b), (.voteBallotP g b a d, b),
   (.voteAnyFx g b a d, b), (.voteAllFx g b a d, b), (.voteCountFx g b a d, b), (.voteBallotFx g b a d, b),
   (.shflIdx g m n a d, m), (.shflUp g m n a d, m), (.shflDown g m n a d, m), (.shflXor g m n a d, m),
   (.xredAdd g m n a d, m), (.xredMin g m n a d, m), (.xredMax g m n a d, m), (.xredLogic g m n a d, m),
   (.xscanAddInc g m n a d, m), (.xscanAddExc g m n a d, m), (.xscanMaxInc g m n a d, m), (.xscanMaxExc g m n a d, m), (.rcv g a, a)]

/-- R106, R108 and R232: the first lanes to arrive open an instance with the mask they read and wait; with a false guard in every issuing
lane nothing opens; a mask that is zero or too wide raises MASK in the arriving lanes, and the instance stays open for the lanes that it still
awaits; and `rcv` goes on with no result once its lanes have
met. -/
def Sys2Proof.Spec.ArrivalsOpenAnInstance : Prop :=
  ∀ (g : Guard) (b a d : Fin 64) (m : Fin 4) (n : Fin 32),
    (∀ p ∈ Spec.meeting g b a d m n, ∀ s i e live, s.Issues p.1 i e → e.Executes i g live →
      (∀ y ∈ e.open_, y.pc ≠ i.pc ∧ y.complete e = false) →
      let mask := e.mask p.2
      (live = 0 → ∃ e', exec p.1 s = .next (s.setEngine i.eng e') ∧
        e.LanesOf e' fun k l => if i.lanes.getLsbD k then l.goneOn i else l) ∧
      (live ≠ 0 → (mask = 0 ∨ 2 ^ e.width ≤ mask.toNat) → ∃ u e', s.onlyEngine u i.eng ∧ u.engine i.eng = some e' ∧
        (∀ k, e'.lanes.find? k = (e.lanes.find? k).map fun l => if i.lanes.getLsbD k && !live.getLsbD k then l.goneOn i else l) ∧
        e' = { e with lanes := e'.lanes, sb := e'.sb, open_ := e'.open_ } ∧
        (∀ y ∈ e'.open_, y ∈ e.open_ ∨ (y.pc = i.pc ∧ y.mask = mask ∧ y.arrived = [] ∧ y.absent = i.lanes &&& ~~~live)) ∧
        ((∃ k, mask.getLsbD k = true ∧ i.lanes.getLsbD k = false ∧ (e.lane k).live = true) → ∃ y ∈ e'.open_, y.pc = i.pc) ∧
        exec p.1 s = .next (u.trap { i with away := i.lanes &&& ~~~live } .mask live 0 0)) ∧
      (live ≠ 0 → mask.toNat < 2 ^ e.width → (∀ k, live.getLsbD k = true → mask.getLsbD k = true) →
        (∃ k, mask.getLsbD k = true ∧ i.lanes.getLsbD k = false ∧ (e.lane k).live = true) →
        ∃ t e' y, exec p.1 s = .next t ∧ s.onlyEngine t i.eng ∧ s.sameMemory t ∧ t.engine i.eng = some e' ∧
          e'.open_ = y :: e.open_ ∧ y.pc = i.pc ∧ y.mask = mask ∧ y.absent = i.lanes &&& ~~~live ∧
          (∀ k, (y.arrived.find? k).isSome = live.getLsbD k) ∧
          (∀ k, e'.lanes.find? k = (e.lanes.find? k).map fun l =>
            if live.getLsbD k then { l with status := .waiting, issued := true } else if i.lanes.getLsbD k then l.goneOn i else l) ∧
          e' = { e with lanes := e'.lanes, sb := e'.sb, open_ := e'.open_ })) ∧
    CompletesAcross (.rcv g a) g a (fun _ _ _ l => (l, Fx.none)) fun e _ => e

/-- Whether every gang of a block has arrived or ended (R163). -/
def Sys2Proof.Spec.blockIn (s : State) (arrived : List Nat) (b : Block) : Bool :=
  b.gangs.all fun j => arrived.contains j || ((s.engine j).map fun f => f.ended && !f.broken).getD true

/-- Whether every participant of the block barrier or of a cohort's has arrived (R163, R245). -/
def Sys2Proof.Spec.allIn (s : State) (e : Engine) (arrived : List Nat) : Option Nat → Bool
  | none => ((e.block.bind s.work.blocks.find?).map (Spec.blockIn s arrived)).getD false
  | some c => (((s.launchOf e.launch).bind fun l => (l.cohorts[c]?).map fun x => x.members.all fun m =>
      l.complete.contains m ||
        ((s.work.blocks.vals.find? fun k => k.launch == l.id && k.index == m).map (Spec.blockIn s arrived)).getD false)).getD false

/-- The cycle in which a gang that a barrier releases becomes ready (R163). -/
def Sys2Proof.Spec.released (s : State) (e : Engine) : Option Nat → Nat
  | none => s.clock.cyc + 8
  | some c =>
    let home := (((s.launchOf e.launch).bind fun l => l.cohorts[c]?).bind Cohort.home).getD e.place.clusterId
    s.clock.cyc + 110 + 4 * hops e.place.clusterId home + 36 * crossings e.place.clusterId home

/-- R163: when the gang's lanes have met at a barrier form the gang arrives, once their earlier accesses are performed at the barrier's scope
(R284): until then they wait.  The first gang sets the phase's mask and another mask raises
MASK; the last arrival opens the next phase and releases the gangs; `bar.arrive` goes on at once and records the phase, for which a
later `bar.wait` waits; and a lane that names no barrier of its block raises REFUSE, REASON 7.  That a `bar.wait` uses up its record, and
that the lowest lane's cohort counts, are the model's choice (log entries 40 and 41). -/
def Sys2Proof.Spec.Barriers : Prop :=
  ∀ (g : Guard) (b a : Fin 64) (s : State) (i : Issue) (e : Engine) (live : Dword) (x : Instr),
    x ∈ [Instr.barSync g b a, .barArrive g b a, .barWait g b a] → s.Issues x i e → e.Executes i g live →
    let named := fun (l : Lane) => if b = 0 then none else some (l.reg b).toNat
    let holds := fun (l : Lane) => e.block.isSome && ((named l).map (s.holdsCohort e)).getD true
    (∀ k l, live.getLsbD k = true → e.lanes.find? k = some l → holds l = false →
      (∀ j l', j < k → live.getLsbD j = true → e.lanes.find? j = some l' → holds l' = true) →
      exec x s = .next (s.refuse { i with away := i.lanes &&& ~~~live } live 0 7 0 k)) ∧
    (∀ c bar, e.Meets i (e.mask a) live → e.beats = [] → (∀ k l, live.getLsbD k = true → e.lanes.find? k = some l → holds l = true ∧ named l = c) →
      s.barrierOf e c = some bar →
      let code := (c.map (· + 1)).getD 0
      let arrived := bar.arrived ++ [i.eng]
      let full := Spec.allIn s e arrived c
      let after : Barrier := if full then ⟨bar.phase + 1, none, []⟩ else ⟨bar.phase, some (e.mask a), arrived⟩
      let ready := fun (l : Lane) =>
        { l with status := .ready, pc := i.pc + BitVec.ofNat 32 i.len, restart := i.pc + BitVec.ofNat 32 i.len, issued := false }
      let waits := fun (t : State) (kind : WaitKind) => ∃ w e', w ∈ t.work.waits ∧ w.eng = i.eng ∧ w.lanes = live ∧ w.pc = i.pc ∧
        w.kind = kind ∧ t.engine i.eng = some e' ∧
        ∀ k l, live.getLsbD k = true → e.lanes.find? k = some l → e'.lanes.find? k = some { l with status := .sleeping w.id, issued := true }
      let goes := fun (t : State) (arrivals : List (Nat × Nat)) => ∃ e', t.engine i.eng = some e' ∧ e'.arrivals = arrivals ∧
        ∀ k l, live.getLsbD k = true → e.lanes.find? k = some l → e'.lanes.find? k = some (ready l)
      let recorded := e.arrivals.find? fun p => p.1 == code
      let others := e.arrivals.filter fun p => p.1 != code
      let performed := ∀ n, s.outstanding i.eng live c.isNone n = false
      let arrives := performed ∧ (bar.mask = none ∨ bar.mask = some (e.mask a))
      ((x = .barSync g b a ∨ (x = .barWait g b a ∧ recorded = none)) → arrives →
        ∃ t, exec x s = .next t ∧ s.sameMemory t ∧ t.barrierOf e c = some after ∧
          waits t (if full then .until_ (Spec.released s e c) else .barrier code bar.phase)) ∧
      (x = .barArrive g b a → arrives →
        ∃ t, exec x s = .next t ∧ s.sameMemory t ∧ t.barrierOf e c = some after ∧ goes t ((code, bar.phase) :: others)) ∧
      (∀ ph, x = .barWait g b a → recorded = some (code, ph) →
        ∃ t, exec x s = .next t ∧ s.sameMemory t ∧ t.barrierOf e c = some bar ∧
          if ph < bar.phase then goes t others else waits t (.barrier code ph)) ∧
      (∀ form, (form, x) ∈ [(0, Instr.barSync g b a), (1, .barArrive g b a), (2, .barWait g b a)] → (form = 2 → recorded = none) →
        s.outstanding i.eng live c.isNone s.nextId = true →
        ∃ t, exec x s = .next t ∧ s.sameMemory t ∧ t.barrierOf e c = some bar ∧ waits t (.arrive form c (e.mask a))) ∧
      (∀ m, (x ≠ .barWait g b a ∨ recorded = none) → performed → bar.mask = some m → m ≠ e.mask a →
        ∃ u e', u.engine i.eng = some e' ∧ s.sameMemory u ∧ u.barrierOf e c = some bar ∧
          (∀ k l, live.getLsbD k = true → e.lanes.find? k = some l → e'.lanes.find? k = some { l with status := .ready, issued := true }) ∧
          exec x s = .next (u.raise { eng := i.eng, cause := .mask, lanes := live, pc := i.pc, insn := i.insn, faddr := 0, detail := 0 })))

/-- R162: outside DET launches `dflush` only goes on; in one, the gang's live lanes meet and then wait for the block's drain. -/
def Sys2Proof.Spec.DflushMeets : Prop :=
  ∀ (g : Guard) (s : State) (i : Issue) (e : Engine) (live : Dword), s.Issues (.dflush g) i e → e.Executes i g live →
    ((s.isDet e && e.block.isSome) = false → ∃ e', exec (.dflush g) s = .next (s.setEngine i.eng e') ∧
      e.LanesOf e' fun k l => if i.lanes.getLsbD k then l.goneOn i else l) ∧
    ((s.isDet e && e.block.isSome) = true → live ≠ 0 → (∀ p ∈ e.lanes, p.2.live = true → p.1 < e.width) →
      (∀ k l, live.getLsbD k = true → e.lanes.find? k = some l → l.live = true) →
      (∀ k, (e.lane k).live = true → i.lanes.getLsbD k = true) → (∀ y ∈ e.open_, y.pc ≠ i.pc ∧ y.complete e = false) →
      ∃ t w e', exec (.dflush g) s = .next t ∧ s.sameMemory t ∧ w ∈ t.work.waits ∧ w.eng = i.eng ∧ w.lanes = live ∧ w.kind = .dflush ∧
        t.engine i.eng = some e' ∧
        ∀ k l, live.getLsbD k = true → e.lanes.find? k = some l → e'.lanes.find? k = some { l with status := .sleeping w.id, issued := true })

/-- The instructions whose lanes meet: instances, barriers and `dflush`. -/
def Obligations.MeetingsAndBarriers : Prop := Spec.ArrivalsOpenAnInstance ∧ Spec.Barriers ∧ Spec.DflushMeets

/-! ## Memory -/

/-- The checks of R143 pass for an access of `size` bytes by the lanes of a mask at the addresses that `addr` forms. -/
structure Sys2Proof.Spec.Allowed (s : State) (e : Engine) (r : Region) (c : AccessClass) (size : Nat) (live : Dword) (addr : Lane → Nat) :
    Prop where
  space : ¬ (7 ≤ spaceOf r.base ∧ spaceOf r.base ≤ 14)
  priv : spaceOf r.base = 15 → s.privileged e = true
  kind : r.permits c = true
  thawed : r.frozenChild = false ∧ r.frozenSelf = false
  inside : ∀ k l, live.getLsbD k = true → e.lanes.find? k = some l →
    r.base ≤ addr l ∧ addr l - r.base + size ≤ r.extent ∧ s.placeOk e r.base (addr l - r.base) size = true ∧ addr l % size = 0

/-- The byte offset that an index field gives (R142). -/
def Sys2Proof.Spec.index (x : Nat) (l : Lane) : Nat := if x = 0 then 0 else (l.reg x).toNat

/-- The value of a load in its registers (R145). -/
def Sys2Proof.Spec.Loaded (d z : Nat) (signed : Bool) (bs : List Byte) (before after : Lane) : Prop :=
  (∀ r, (r < d ∨ d + (if z = 3 then 2 else if z = 4 then 4 else if z = 5 then 8 else 1) ≤ r) → after.reg r = before.reg r) ∧
  (z = 0 → after.reg d = if signed then (bs.getD 0 0).signExtend 32 else (bs.getD 0 0).setWidth 32) ∧
  (z = 1 → after.reg d = if signed then (bs.getD 1 0 ++ bs.getD 0 0).signExtend 32 else (bs.getD 1 0 ++ bs.getD 0 0).setWidth 32) ∧
  (2 ≤ z → ∀ k, 4 * k + 4 ≤ 2 ^ z →
    after.reg (d + k) = bs.getD (4 * k + 3) 0 ++ bs.getD (4 * k + 2) 0 ++ bs.getD (4 * k + 1) 0 ++ bs.getD (4 * k) 0)

/-- R145, R147 and R476: a load whose checks pass and whose addresses are translated without a walk to sound bytes goes on and changes no
memory.  A lane whose bytes its core serves takes them, little-endian, zero- or sign-extended to the register or in consecutive registers;
for another lane a request goes to the home of its line, and the registers that it names are pending until the answer. -/
def Sys2Proof.Spec.LoadsTakeTheirBytes : Prop :=
  ∀ (g : Guard) (x d : Fin 64) (h : Fin 16) (z : Fin 8) (q : Fin 2) (imm : Fin 256),
    let loads := fun (instr : Instr) (size : Nat) (signed : Bool) (addr : Region → Lane → Nat) =>
      ∀ s i e live, s.Issues instr i e → e.Executes i g live → live ≠ 0 →
        let r := e.region h
        Spec.Allowed s e r .load (2 ^ size) live (addr r) → spaceOf r.base ≠ 4 → spaceOf r.base ≠ 6 → s.repair.reads = [] →
        (∀ k l, live.getLsbD k = true → e.lanes.find? k = some l → ∃ loc p, resolve s (e.asker k) (s.scratchOf e) .load (addr r l) =
          .at_ loc 0 p ∧ loc < 2 ^ 63 ∧ s.unreachable loc = false ∧ s.poisonAt loc (2 ^ size) = none) →
        ∃ t e', exec instr s = .next t ∧ t.engine i.eng = some e' ∧ (∀ j, j ≠ i.eng → t.engine j = s.engine j) ∧ s.sameMemory t ∧
          (∀ k l, live.getLsbD k = true → e.lanes.find? k = some l → ∃ loc p l',
            resolve s (e.asker k) (s.scratchOf e) .load (addr r l) = .at_ loc 0 p ∧ e'.lanes.find? k = some l' ∧
            (s.loadsHere i.eng e r.obj r.version ⟨k, addr r l, loc⟩ = true →
              Spec.Loaded d size signed (s.loadBytes e r.obj r.version (spaceOf r.base) loc (2 ^ size)) l l') ∧
            (s.loadsHere i.eng e r.obj r.version ⟨k, addr r l, loc⟩ = false →
              (∀ n, l'.reg n = l.reg n) ∧ ∃ id q src, t.mem.mesh.find? id = some q ∧ q.eng = i.eng ∧ q.dest = d ∧ q.obj = r.obj ∧
                q.home = homeOf s e.place.die loc ∧ (q.stage = .travelling ∨ q.stage = .after) ∧
                q.due = s.clock.cyc + 40 + 2 * hops e.place.clusterId q.home + 18 * crossings e.place.clusterId q.home ∧
                { lane := k, addr := addr r l, loc, op := .load size signed src, value := none, done := false } ∈ q.parts ∧
                src.obj = r.obj ∧ src.version = r.version ∧
                src.given = s.supplied e r.obj r.version (spaceOf r.base) loc (2 ^ size) ∧
                ∀ n, n < (2 ^ size + 3) / 4 → ∃ y ∈ e'.sb, y.key = .reg .g (d + n) ∧ y.tag = q.wait ∧ y.due = none) ∧
            l'.pc = i.pc + BitVec.ofNat 32 i.len ∧ l'.preds = l.preds ∧ l'.fx = l.fx ∧ l'.dists = l.dists ∧ l'.status = l.status) ∧
          (∀ k, live.getLsbD k = false →
            e'.lanes.find? k = (e.lanes.find? k).map fun l => if i.lanes.getLsbD k then l.goneOn i else l)
    (∀ sg : Fin 2, loads (.ld g z sg q x h d) z (sg.val == 1) fun r l => r.base + Spec.index x l) ∧
    loads (.ldv g z q x h d) z false (fun r l => r.base + Spec.index x l) ∧
    (let size := if z < 6 then z.val else z.val - 6
     loads (.ldi g z imm h d) size (decide (6 ≤ z.val)) fun r _ => r.base + imm.val * 2 ^ size)

/-- R145, R269 and R308: a loaded byte is that of the newest uncommitted store of the gang which names it, or else the copy in the core's
L1, or else the retired frame's where the region holds a retired version, or the byte at its home. -/
def Sys2Proof.Spec.LoadedBytesAreTheNewest : Prop :=
  ∀ (s : State) (e : Engine) (obj ver sp loc : Nat),
    (∀ older b newer v, e.beats = older ++ b :: newer → Store.find? b.cells loc = some v →
      (∀ c ∈ newer, Store.find? c.cells loc = none) → s.loadByte e obj ver sp loc = v) ∧
    ((∀ b ∈ e.beats, Store.find? b.cells loc = none) →
      (∀ v, cachedSpace sp = true → s.mem.l1Byte e.l1 obj ver loc = some v → s.loadByte e obj ver sp loc = v) ∧
      ((cachedSpace sp = false ∨ s.mem.l1Byte e.l1 obj ver loc = none) →
        (∀ v, (s.entry obj).retired ≠ 0 → (s.entry obj).retired = ver → (s.entry obj).retiredFrames.find? loc = some v →
          s.loadByte e obj ver sp loc = v) ∧
        ((s.entry obj).retired = 0 ∨ (s.entry obj).retired ≠ ver ∨ (s.entry obj).retiredFrames.find? loc = none →
          s.loadByte e obj ver sp loc = s.readHome loc)))

/-- R145 and R307 to R309: a store whose checks pass enters its bytes into the gang's store buffer, the highest lane's where lanes meet,
and writes no memory before it commits; where the buffer has no room for it STOREBUF is raised. -/
def Sys2Proof.Spec.StoresEnterTheBuffer : Prop :=
  ∀ (g : Guard) (x d : Fin 64) (h : Fin 16) (z : Fin 8) (q : Fin 2) (imm : Fin 256),
    let stores := fun (instr : Instr) (rel : Bool) (addr : Region → Lane → Nat) =>
      ∀ s i e live, s.Issues instr i e → e.Executes i g live → live ≠ 0 →
        let r := e.region h
        let at_ := fun (k : Nat) (l : Lane) (loc : Nat) => ∃ n p, resolve s (e.asker k) (s.scratchOf e) .store (addr r l) = .at_ loc n p
        Spec.Allowed s e r .store (2 ^ z.val) live (addr r) → spaceOf r.base ≠ 4 →
        (rel = true → s.outstanding i.eng live false s.nextId = false) →
        (∀ k l, live.getLsbD k = true → e.lanes.find? k = some l → ∃ loc, at_ k l loc) →
        (∀ k l loc k' l' loc' n, live.getLsbD k = true → e.lanes.find? k = some l → at_ k l loc → live.getLsbD k' = true →
          e.lanes.find? k' = some l' → at_ k' l' loc' → addr r l / 128 ≠ addr r l' / 128 →
          ¬ (loc ≤ n ∧ n < loc + 2 ^ z.val ∧ loc' ≤ n ∧ n < loc' + 2 ^ z.val)) →
        (e.beats.length + e.draining.length ≤ 192 →
          ∃ t e', exec instr s = .next t ∧ t.engine i.eng = some e' ∧ (∀ j, j ≠ i.eng → t.engine j = s.engine j) ∧ s.sameMemory t ∧
            e'.draining = e.draining ∧ (∃ new, e'.beats = e.beats ++ new ∧ (new.map Beat.addr).Nodup ∧
              (∀ b ∈ new, b.space = spaceOf r.base ∧ b.obj = r.obj ∧ b.version = r.version) ∧
              ∀ a, a ∈ new.map Beat.addr ↔ ∃ k l, live.getLsbD k = true ∧ e.lanes.find? k = some l ∧ a = addr r l / 128 * 128) ∧
            (∀ k l loc j, live.getLsbD k = true → e.lanes.find? k = some l → at_ k l loc → j < 2 ^ z.val →
              (∀ k' l' loc', k < k' → live.getLsbD k' = true → e.lanes.find? k' = some l' → at_ k' l' loc' →
                ¬ (loc' ≤ loc + j ∧ loc + j < loc' + 2 ^ z.val)) →
              e'.forwarded (loc + j) = some (((l.reg (d + j / 4)) >>> (8 * (j % 4))).setWidth 8)) ∧
            (∀ n, (∀ k l loc, live.getLsbD k = true → e.lanes.find? k = some l → at_ k l loc → ¬ (loc ≤ n ∧ n < loc + 2 ^ z.val)) →
              e'.forwarded n = e.forwarded n) ∧
            (∀ k, ∃ p, e'.lanes.find? k = (e.lanes.find? k).map fun l =>
              if i.lanes.getLsbD k then { l.goneOn i with lastPage := p } else l)) ∧
        (256 ≤ e.beats.length → ∃ n addr, 0 < n ∧ exec instr s =
          .next (s.trap { i with away := i.lanes &&& ~~~live } .storebuf live addr (n * 2 ^ 16 + e.beats.length)))
    stores (.st g z q x h d) (q.val == 1) (fun r l => r.base + Spec.index x l) ∧
    stores (.sti g z imm h d) false (fun r _ => r.base + imm.val * 2 ^ z.val)

/-- R141 and R143: the first check that fails decides what a load or store raises, in all its live lanes, and it has no other
effect. -/
def Obligations.AccessChecksInOrder : Prop :=
  ∀ (g : Guard) (x d : Fin 64) (h : Fin 16) (z : Fin 8) (q sg : Fin 2) (imm : Fin 256),
    let size := 2 ^ z.val
    let checked := fun (instr : Instr) (c : AccessClass) (size : Nat) (offset : Lane → Nat) =>
      ∀ s i e live k l, s.Issues instr i e → e.Executes i g live → live.getLsbD k = true → (∀ j, j < k → live.getLsbD j = false) →
        e.lanes.find? k = some l →
        let r := e.region h
        let j := { i with away := i.lanes &&& ~~~live }
        let sp := spaceOf r.base
        let usable := sp < 7 ∨ (sp = 15 ∧ s.privileged e = true)
        let fits := fun (l : Lane) => offset l + size ≤ r.extent ∧ s.placeOk e r.base (offset l) size = true
        (7 ≤ sp → sp ≤ 14 → exec instr s = .next (s.trap j .illegal live 0 0)) ∧
        (sp = 15 → s.privileged e = false → exec instr s = .next (s.trap j .priv live r.base 0)) ∧
        (usable → r.kind ≠ .none → (r.frozenChild || r.frozenSelf) = true →
          exec instr s = .next (s.refuse j live (r.base + offset l) 3 0 k)) ∧
        (usable → (r.kind = .none ∨ (r.frozenChild || r.frozenSelf) = false) → r.permits c = false →
          exec instr s = .next (s.refuse j live (r.base + offset l) 1 0 k)) ∧
        (usable → r.permits c = true → (r.frozenChild || r.frozenSelf) = false →
          ∀ n m, live.getLsbD n = true → e.lanes.find? n = some m →
            (¬ fits m → (∀ n' m', n' < n → live.getLsbD n' = true → e.lanes.find? n' = some m' → fits m') →
              exec instr s = .next (s.refuse j live (r.base + offset m) 2 0 n)) ∧
            ((r.base + offset m) % size ≠ 0 → (∀ n' m', live.getLsbD n' = true → e.lanes.find? n' = some m' → fits m') →
              (∀ n' m', n' < n → live.getLsbD n' = true → e.lanes.find? n' = some m' → (r.base + offset m') % size = 0) →
              exec instr s = .next (s.trap j .align live (r.base + offset m) 0)))
    checked (.ld g z sg q x h d) .load size (Spec.index x) ∧ checked (.ldv g z q x h d) .load size (Spec.index x) ∧
    checked (.st g z q x h d) .store size (Spec.index x) ∧ checked (.sti g z imm h d) .store size (fun _ => imm.val * size)

/-- R148: `pref` and `touch` raise nothing and change no register; `probe` writes its status word in each live lane without any trap. -/
def Sys2Proof.Spec.PrefetchAndProbe : Prop :=
  ∀ (g : Guard) (x d : Fin 64) (h : Fin 16),
    (∀ instr ∈ [Instr.pref g x h, .touch g x h], ∀ s i e live, s.Issues instr i e → e.Executes i g live →
      ∃ t e', exec instr s = .next t ∧ s.sameMemory t ∧ t.work.traps = s.work.traps ∧ t.engine i.eng = some e' ∧
        (∀ k, ∃ p, e'.lanes.find? k = (e.lanes.find? k).map fun l => if i.lanes.getLsbD k then { l.goneOn i with lastPage := p } else l) ∧
        ((s.denied e (e.region h) .load 1 (e.offsets live x)).isSome = true → ∃ u, t = s.setEngine i.eng u)) ∧
    CompletesInLanes (.probe g x h d) g fun s e _ k l =>
      let r := e.region h
      let a := r.base + Spec.index x l
      let inside := decide (Spec.index x l + 4 ≤ r.extent) && s.placeOk e r.base (Spec.index x l) 4 && !(r.frozenChild || r.frozenSelf)
      let place := resolve s (e.asker k) (s.scratchOf e) .load a
      let loc := match place with
        | .at_ n _ _ => some n
        | _ => none
      l.setReg d (BitVec.ofNat 32 (
        (if r.permits .load && inside && a % 4 != 0 then 16 else 0) +
        (if (loc.map fun n => s.mem.poison.contains (lineOf (s.cellOf n))).getD false then 8 else 0) +
        (if loc.isSome then 4 else 0) +
        (if r.permits .store && inside then 2 else 0) +
        (if r.permits .load && inside then 1 else 0)))

/-- Loads, the bytes that they take, prefetches and probes. -/
def Obligations.LoadsAndProbes : Prop := Spec.LoadsTakeTheirBytes ∧ Spec.LoadedBytesAreTheNewest ∧ Spec.PrefetchAndProbe

/-- R308 and R309: a commit performs the buffered stores in order of entry; each location then reads as the newest of them that names
it, the other locations are unchanged, and the beats drain two a cycle. -/
def Sys2Proof.Spec.CommitPerformsTheBuffer : Prop :=
  ∀ (s : State) (eng : Nat) (e : Engine), s.engine eng = some e → s.xlat.migrations = [] → s.xlat.hostBias = [] → s.xlat.flips = [] →
    (∀ b ∈ e.beats, (b.space = 1 ∨ b.space = 3) ∧ ∀ c ∈ b.cells, 2 ^ 21 ≤ c.1 ∧ c.1 < 2 ^ 63) →
    let t := s.commit eng
    (∀ n v, n < 2 ^ 63 → Store.find? ((e.beats.flatMap Beat.cells).reverse) n = some v → t.readHome n = v) ∧
    (∀ n, n < 2 ^ 63 → Store.find? ((e.beats.flatMap Beat.cells).reverse) n = none → t.readHome n = s.readHome n) ∧
    ∃ e', t.engine eng = some e' ∧ e'.beats = [] ∧ e'.lanes = e.lanes ∧ e'.draining = e.draining ++ (e.beats.zipIdx.map fun p =>
      { p.1 with due := s.clock.cyc + 1 + (e.draining.length + p.2) / 2 })

/-- Stores enter the buffer, and a commit performs it. -/
def Obligations.StoresAndCommits : Prop := Spec.StoresEnterTheBuffer ∧ Spec.CommitPerformsTheBuffer

/-! ## Control transfer, exit, park and stops -/

/-- The live lanes go to program counters of their own, changed by `f`; the others that issued continue at the next instruction. -/
def Sys2Proof.Spec.Jumps (x : Instr) (g : Guard) (s : State) (i : Issue) (e : Engine) (live : Dword) (f : Lane → Lane) : Prop :=
  s.Issues x i e → e.Executes i g live →
    ∃ e', exec x s = .next (s.setEngine i.eng e') ∧
      e.LanesOf e' fun k l => if live.getLsbD k then { f l with issued := true } else if i.lanes.getLsbD k then l.goneOn i else l

/--  R46, R115, R116, R117 and R39: branches, calls and jumps; a target with bit 0 set raises ALIGN.  That every live lane stops where only
some targets are odd, and that FADDR is the lowest such target, are the model's choice (log entry 45). -/
def Obligations.ControlTransfers : Prop :=
  ∀ (g : Guard) (o : Fin 2097152) (a : Fin 64) (s : State) (i : Issue) (e : Engine) (live : Dword),
    let target : Word := i.pc + 2 * (BitVec.ofNat 21 o.val).signExtend 32
    Spec.Jumps (.bra g o) g s i e live (fun l => { l with pc := target }) ∧
    Spec.Jumps (.call g o) g s i e live (fun l => { l.setReg 63 (i.pc + 4) with pc := target }) ∧
    ∀ x ∈ [Instr.jmp g a, .ret g a],
      ((∀ k l, live.getLsbD k = true → e.lanes.find? k = some l → (l.reg a).getLsbD 0 = false) →
        Spec.Jumps x g s i e live fun l => { l with pc := l.reg a }) ∧
      (∀ k l, s.Issues x i e → e.Executes i g live → live.getLsbD k = true → e.lanes.find? k = some l → (l.reg a).getLsbD 0 = true →
        (∀ j l', j < k → live.getLsbD j = true → e.lanes.find? j = some l' → (l'.reg a).getLsbD 0 = false) →
        exec x s = .next (s.trap { i with away := i.lanes &&& ~~~live } .align live (l.reg a).toNat 0))

/-- R117 to R119, R311 and R433: `trap` and `brk` raise TRAPI and BKPT with their code; under a debugger `brk` stops its lanes; `halt`
stops the gang after it, or pends in a handler; `rgn` makes itself the restart point; and with no lane taking part each only goes on.  An
abort discards the uncommitted beats and takes lanes back to where their regions began; a re-executed stretch reads the registers as they
then stand (R312). -/
def Obligations.TrapsStopsAndRegions : Prop :=
  (∀ (s : State) (n : Nat) (e : Engine), s.engine n = some e → ∃ e', (s.rewind n).engine n = some e' ∧ e'.beats = [] ∧
    e'.sregs = e.sregs ∧ e'.masks = e.masks ∧ e'.regions = e.regions ∧
    ∀ k l, e.lanes.find? k = some l → ∃ l', e'.lanes.find? k = some l' ∧ l'.regs = l.regs ∧ l'.preds = l.preds ∧ l'.fx = l.fx ∧
      l'.dists = l.dists ∧ ((s.movedLanes e).getLsbD k = false → l' = l) ∧
      ((s.movedLanes e).getLsbD k = true → s.farUnderWay n k l.restart.toNat = false → l'.pc = l.restart ∧ l'.issued = false)) ∧
  ∀ (g : Guard) (b : Fin 64) (s : State) (i : Issue) (e : Engine) (live : Dword), e.Executes i g live →
    let j := { i with away := i.lanes &&& ~~~live }
    let on := fun (k : Nat) (l : Lane) => if i.lanes.getLsbD k then l.goneOn i else l
    (∀ x ∈ [Instr.trap g b, .brk g b, .halt g, .rgn g, .exit g], s.Issues x i e → live = 0 →
      ∃ e', exec x s = .next (s.setEngine i.eng e') ∧ e.LanesOf e' on) ∧
    (s.Issues (.trap g b) i e → live ≠ 0 → exec (.trap g b) s = .next (s.trap j .trapi live 0 b)) ∧
    (s.Issues (.brk g b) i e → live ≠ 0 → (s.context e.ctx).attached = false → exec (.brk g b) s = .next (s.trap j .bkpt live 0 b)) ∧
    (s.Issues (.brk g b) i e → live ≠ 0 → (s.context e.ctx).attached = true → (s.context e.ctx).traceLen = 0 →
      ∃ t e', exec (.brk g b) s = .next t ∧ t.engine i.eng = some e' ∧ s.sameMemory t ∧
        ∀ k l, e.lanes.find? k = some l → e'.lanes.find? k = some (
          if live.getLsbD k then (if l.live then { l with stopped := true } else l) else on k l)) ∧
    (s.Issues (.halt g) i e → live ≠ 0 → (s.context e.ctx).traceLen = 0 →
      ∃ t e', exec (.halt g) s = .next t ∧ t.engine i.eng = some e' ∧ s.sameMemory t ∧
        (e.inHandler = true → e'.haltPend = true ∧ ∀ k, e'.lanes.find? k = (e.lanes.find? k).map (on k)) ∧
        (e.inHandler = false → ∀ k l, k < 64 → e.lanes.find? k = some l →
          e'.lanes.find? k = some (if l.live then { on k l with stopped := true } else on k l))) ∧
    (s.Issues (.rgn g) i e → live ≠ 0 → e.beats = [] →
      ∃ t e', exec (.rgn g) s = .next t ∧ t.engine i.eng = some e' ∧ s.onlyEngine t i.eng ∧ s.sameMemory t ∧
        e'.entries = (e.entries + 1) % 2 ^ 32 ∧
        ∀ k, e'.lanes.find? k = (e.lanes.find? k).map fun l =>
          if live.getLsbD k then { l with pc := i.pc + BitVec.ofNat 32 i.len, restart := i.pc, issued := false } else on k l)

/-- R118, R120, R234, R235 and R242: an exiting lane takes no further part and its thread is counted in its block, which is
complete with its last thread; a parking lane leaves a
record of its thread in the cluster's pool, which resumes at the label; a kernel without a park set raises ILLEGAL. -/
def Obligations.LanesLeave : Prop :=
  ∀ (g : Guard) (o : Fin 2097152) (s : State) (i : Issue) (e : Engine) (live : Dword), e.Executes i g live → live ≠ 0 →
    e.isSeq = false → e.beats = [] → e.open_ = [] →
    (∃ k l, live.getLsbD k = false ∧ e.lanes.find? k = some l ∧ l.live = true) →
    let after := fun (status : LaneStatus) (k : Nat) (l : Lane) =>
      if live.getLsbD k then { l with status } else if i.lanes.getLsbD k then l.goneOn i else l
    (s.Issues (.exit g) i e → ∀ key b, (∀ k l, live.getLsbD k = true → e.lanes.find? k = some l → l.launch = b.launch ∧ l.block = b.index) →
      s.work.blocks.find? key = some b → b.resident = true →
      (∀ p ∈ s.work.blocks, p.2.launch = b.launch → p.2.index = b.index → p.1 = key) →
      let all := !b.ended && decide (b.exited < b.threads) && decide (b.threads ≤ b.exited + (e.lanesOf live).length)
      ∃ t e', exec (.exit g) s = .next t ∧ t.engine i.eng = some e' ∧ (all = false → s.sameMemory t) ∧
        (∀ k, e'.lanes.find? k = (e.lanes.find? k).map (after .exited k)) ∧
        t.work.blocks.find? key = some { b with exited := b.exited + (e.lanesOf live).length, ended := b.ended || all }) ∧
    (s.Issues (.park g o) i e → ∀ la, s.launchOf e.launch = some la →
      (la.kernel.park = [] → exec (.park g o) s = .next (s.trap i .illegal (e.standing i.lanes) 0 0)) ∧
      (la.kernel.park ≠ [] → la.det = true →
        exec (.park g o) s = .next (s.trap { i with away := i.lanes &&& ~~~live } .detorder live 0 3)) ∧
      (la.kernel.park ≠ [] → la.det = false → e.sb = [] →
        let pool := s.pool e.place.clusterId
        let pc : Word := i.pc + 2 * (BitVec.ofNat 21 o.val).signExtend 32
        pool.records.length + (e.lanesOf live).length ≤ 16384 → (pool.binFor e.launch pc).isSome = true →
        ∃ t e', exec (.park g o) s = .next t ∧ t.engine i.eng = some e' ∧ s.sameMemory t ∧
          (∀ k, e'.lanes.find? k = (e.lanes.find? k).map (after .parked k)) ∧
          ∀ k l, live.getLsbD k = true → e.lanes.find? k = some l → ∃ r ∈ (t.pool e.place.clusterId).records,
            r.launch = l.launch ∧ r.block = l.block ∧ r.thread = l.thread ∧ r.pc = pc ∧ r.preds = l.preds ∧ r.fx = l.fx ∧
            r.regs = (la.kernel.park.filter (· < 128)).map l.reg))

/-! ## Traps -/

/-- R194, R316, R317 and R320: a trap taken writes its frame to the save slot, puts the frame's address in s31 (c62 on the sequencer),
sends the trapping lanes to the handler and holds the others at their program counters. -/
def Sys2Proof.Spec.TrapEntry : Prop :=
  ∀ (s : State) (t : TrapReq) (e : Engine) (loc : Nat),
    s.engine t.eng = some e → e.inHandler = false → e.tvec ≠ 0 → e.beats = [] → (s.context e.ctx).traceLen = 0 → s.xlat.migrations = [] →
    s.trapQueued t.eng = false → s.xlat.pending.all (·.eng != t.eng) = true → s.agenda.all (·.eng != t.eng) = true →
    s.quietLoc e.ctx .store e.savep.toNat = some loc → e.savep.toNat % 4096 + 64 ≤ 4096 → 2 ^ 21 ≤ loc → loc + 64 ≤ 2 ^ 63 →
    let u := s.raise t
    let lanes : Dword := if e.isSeq then 1 else t.lanes
    let field := fun off n => leValue (u.readHomeBytes (loc + off) n)
    (∀ n, n < 2 ^ 63 → (n < loc ∨ loc + 64 ≤ n) → u.readHome n = s.readHome n) ∧
    (∃ e', u.engine t.eng = some e' ∧ e'.inHandler = true ∧ e'.entries = (e.entries + 1) % 2 ^ 32 ∧
      (e.isSeq = false → e'.sreg 31 = e.savep.setWidth 32 ∧ ∀ r, r ≠ 31 → e'.sreg r = e.sreg r) ∧
      e'.masks = e.masks ∧ e'.regions = e.regions ∧ e'.fpm = e.fpm ∧ e'.tmode = e.tmode ∧
      ∀ k, e'.lanes.find? k = (e.lanes.find? k).map fun l =>
        if lanes.getLsbD k then
          let l' := { l with pc := e.tvec, restart := e.tvec, issued := false, handler := true, status := .ready }
          if e.isSeq then l'.setReg 62 (e.savep.setWidth 32) else l'
        else if l.live then { l with held := true, restart := l.pc, issued := false } else l) ∧
    field 0 2 = t.cause.code ∧
    field 2 2 = (if e.isSeq then 8 else if e.block = none then 4 else 0) ∧
    field 4 4 = (if e.isSeq then 0xFFFFFFFF
      else e.place.slot % 128 + 256 * (e.place.core % 8) + 4096 * (e.place.cluster % 16) + 65536 * (e.place.die % 4)) ∧
    field 8 8 = lanes.toNat ∧ field 16 8 = t.pc.toNat ∧ field 24 4 = t.insn.toNat ∧
    field 28 4 = (if e.isSeq then 0 else e.entries % 2 ^ 32) ∧ field 40 8 = t.faddr % 2 ^ 64 ∧ field 60 4 = t.detail % 2 ^ 32 ∧
    (e.isSeq = true → field 32 8 = 0 ∧ field 48 4 = e.launch % 2 ^ 32 ∧ field 52 4 = 0 ∧ field 56 4 = 0) ∧
    (∀ k l, e.isSeq = false → lanes.getLsbD k = true → (∀ j, j < k → lanes.getLsbD j = true → e.lanes.find? j = none) →
      e.lanes.find? k = some l →
      field 32 8 = l.restart.toNat ∧ field 48 4 = l.launch % 2 ^ 32 ∧ field 52 4 = l.block % 2 ^ 32 ∧ field 56 4 = l.thread % 2 ^ 32)

/-- R321 and R351: a trap inside a handler, or with no handler, stops the gang for good and marks its launch. -/
def Sys2Proof.Spec.NestedTrapStops : Prop :=
  ∀ (s : State) (t : TrapReq) (e : Engine) (la : Launch),
    s.engine t.eng = some e → (e.inHandler = true ∨ e.tvec = 0) → s.deferred t = false → s.trapQueued t.eng = false →
    s.xlat.pending.all (·.eng != t.eng) = true → s.agenda.all (·.eng != t.eng) = true → s.launchOf e.launch = some la →
    ∃ e' la', (s.raise t).engine t.eng = some e' ∧ e'.ended = true ∧ e'.broken = true ∧ e'.beats = [] ∧
      (∀ k l, e'.lanes.find? k = some l → l.live = false) ∧
      (s.raise t).launchOf e.launch = some la' ∧ la'.err = true

/-- R221: `tret` and `tret.skip` resume the lanes of the frame's mask at its program counter, or after its instruction; handler lanes that
the mask does not name continue after the return, and held lanes become ready where they stand.  Outside a handler both raise
ILLEGAL, whatever their guards (R59, R60). -/
def Sys2Proof.Spec.TrapReturns : Prop :=
  ∀ (g : Guard) (skip : Bool) (s : State) (i : Issue) (e : Engine) (live : Dword) (f : List Byte),
    let x : Instr := if skip then .tretSkip g else .tret g
    s.Issues x i e → e.Executes i g live → live ≠ 0 →
    (e.inHandler = false → exec x s = .next (s.trap i .illegal (e.standing i.lanes) 0 0)) ∧
    (e.inHandler = true → e.beats = [] → e.haltPend = false → s.readVa e.ctx e.savep.toNat 64 = some f →
      let mask : Dword := BitVec.ofNat 64 (leValue ((f.drop 8).take 8))
      let pc : Word := BitVec.ofNat 32 (leValue ((f.drop 16).take 8))
      let target : Word := if skip then pc + (if leValue ((f.drop 24).take 4) % 2 = 1 then 4 else 2) else pc
      let next : Word := i.pc + BitVec.ofNat 32 i.len
      target.getLsbD 0 = false →
      ∃ t e', exec x s = .next t ∧ t.engine i.eng = some e' ∧ s.onlyEngine t i.eng ∧ s.sameMemory t ∧ e'.inHandler = false ∧
        e'.sregs = e.sregs ∧ e'.masks = e.masks ∧ e'.regions = e.regions ∧ e'.entries = (e.entries + 1) % 2 ^ 32 ∧
        ∀ k, e'.lanes.find? k = (e.lanes.find? k).map fun l =>
          if mask.getLsbD k && l.live then
            { l with pc := target, restart := target, issued := false, handler := false, held := false, status := .ready }
          else if (l.handler || i.lanes.getLsbD k) && l.live then
            { l with pc := next, restart := next, issued := false, handler := false, held := false }
          else { l with held := false, handler := false })

/-- Taking a trap, the traps that stop a gang, and the returns from a handler. -/
def Obligations.TrapsAndReturns : Prop := Spec.TrapEntry ∧ Spec.NestedTrapStops ∧ Spec.TrapReturns

/-! ## System registers and SYS -/

/-- R217 to R220: `mfsr` gives each live lane the gang's register, a 64-bit one in a pair. -/
def Sys2Proof.Spec.SystemRegisterReads : Prop :=
  ∀ (g : Guard) (d : Fin 64),
    let reads := fun (r : Fin 4096) (v : State → Engine → Word) =>
      CompletesInLanes (.mfsr g r d) g fun s e _ _ l => l.setReg d (v s e)
    let pairs := fun (r : Fin 4096) (v : State → Engine → Nat) =>
      CompletesInLanes (.mfsr g r d) g fun s e _ _ l => l.setPair d (BitVec.ofNat 64 (v s e))
    reads 0x000 (fun _ e => e.fpm) ∧ reads 0x001 (fun _ e => e.tmode) ∧ reads 0x002 (fun _ e => e.tvec) ∧
    pairs 0x003 (fun _ e => e.savep.toNat) ∧ reads 0x004 (fun s e => if s.isDet e then 1 else 0) ∧
    reads 0x005 (fun s e => BitVec.ofNat 32 (e.ctx % 1024 + (if (s.context e.ctx).model then 1024 else 0)
      + (if (s.context e.ctx).privileged then 2 ^ 31 else 0))) ∧
    pairs 0x010 (fun s _ => s.clock.cyc) ∧ pairs 0x011 (fun s _ => s.clock.wall) ∧ pairs 0x012 (fun s _ => s.clock.ptime) ∧
    pairs 0x020 (fun s e => (s.context e.ctx).ptb) ∧ reads 0x030 (fun _ e => e.tvec) ∧ reads 0x031 (fun _ _ => 0) ∧
    pairs 0x032 (fun _ e => e.savep.toNat) ∧ reads 0x040 (fun _ e => Store.get 0 e.tcb 0) ∧ reads 0x041 (fun _ e => Store.get 0 e.tcb 1)

/-- R11, R25, R194 and R217 to R220: `mtsr` writes the gang's register from the lowest live lane by the register's access code. -/
def Sys2Proof.Spec.SystemRegisterWrites : Prop :=
  ∀ (g : Guard) (r : Fin 4096) (d : Fin 64) (s : State) (i : Issue) (e : Engine) (live : Dword) (k : Nat) (l : Lane),
    let x : Instr := .mtsr g r d
    s.Issues x i e → e.Executes i g live → live.getLsbD k = true → (∀ j, j < k → live.getLsbD j = false) → e.lanes.find? k = some l →
    let on := fun (k : Nat) (l : Lane) => if i.lanes.getLsbD k then l.goneOn i else l
    let v := l.reg d
    let becomes := fun (base : Engine) =>
      ∃ t e', exec x s = .next t ∧ s.onlyEngine t i.eng ∧ s.sameMemory t ∧ t.engine i.eng = some e' ∧ base.LanesOf e' on
    (r = 0x000 → becomes { e with
      fpm := BitVec.ofNat 32 ((if v.toNat % 8 < 5 then v.toNat % 8 else e.fpm.toNat % 8) + 256 * (v.toNat / 256 % 8)) }) ∧
    (r = 0x001 → becomes { e with tmode := v &&& 0x3F }) ∧
    (r = 0x002 → becomes { e with tvec := v &&& 0xFFFFFFFE }) ∧
    (r = 0x030 → becomes { e with tvec := v }) ∧
    (r.val ∈ [0x003, 0x004, 0x005, 0x010, 0x011, 0x012, 0x032, 0x040, 0x041] → becomes e) ∧
    (r = 0x020 → ∃ t e', exec x s = .next t ∧ s.sameMemory t ∧ t.engine i.eng = some e' ∧ e.LanesOf e' on ∧
      t.context e.ctx = { s.context e.ctx with ptb := (l.pair d).toNat }) ∧
    (r = 0x031 → e.inHandler = false → becomes e) ∧
    (r = 0x031 → e.inHandler = true → e.haltPend = false → v.getLsbD 0 = false →
      ∃ t e', exec x s = .next t ∧ s.onlyEngine t i.eng ∧ s.sameMemory t ∧ t.engine i.eng = some e' ∧ e'.inHandler = false ∧
        ∀ k, e'.lanes.find? k = (e.lanes.find? k).map fun l =>
          { on k l with pc := v, restart := v, issued := false, handler := false, held := false })

/-- R222 and R437: `halt.ctx` reaches every gang and sequencer of the context; `ecall` posts its service and the value of the lowest live
lane to Reten and sleeps; `dbgmark` writes a MARK record where tracing is enabled and otherwise only goes on. -/
def Sys2Proof.Spec.SystemServices : Prop :=
  ∀ (g : Guard) (n : Fin 4096) (d : Fin 64) (s : State) (i : Issue) (e : Engine) (live : Dword), e.Executes i g live → live ≠ 0 →
    let on := fun (k : Nat) (l : Lane) => if i.lanes.getLsbD k then l.goneOn i else l
    (s.Issues (.haltCtx g) i e → (s.context e.ctx).traceLen = 0 →
      ∃ t, exec (.haltCtx g) s = .next t ∧ s.sameMemory t ∧
        ∀ j f, s.engine j = some f → f.ctx = e.ctx → f.ended = false →
          ∃ f', t.engine j = some f' ∧ (f.inHandler = true → f'.haltPend = true) ∧
            (f.inHandler = false → ∀ k l, k < 64 → f.lanes.find? k = some l → l.live = true →
              f'.lanes.find? k = some { (if j = i.eng then on k l else l) with stopped := true })) ∧
    (∀ k l, s.Issues (.ecall g n d) i e → live.getLsbD k = true → (∀ j, j < k → live.getLsbD j = false) → e.lanes.find? k = some l →
      e.beats = [] →
      ∃ t w e', exec (.ecall g n d) s = .next t ∧ s.sameMemory t ∧ w ∈ t.work.waits ∧ w.eng = i.eng ∧ w.lanes = live ∧
        w.kind = .reten n (l.reg d) d ∧ t.host.ecalls = s.host.ecalls ++ [w.id] ∧ t.engine i.eng = some e' ∧
        ∀ k, e'.lanes.find? k = (e.lanes.find? k).map fun l =>
          if live.getLsbD k then { l with status := .sleeping w.id } else on k l) ∧
    (∀ k l, s.Issues (.dbgmark g n d) i e → live.getLsbD k = true → (∀ j, j < k → live.getLsbD j = false) → e.lanes.find? k = some l →
      ∃ e', e.LanesOf e' on ∧
        exec (.dbgmark g n d) s = .next ((s.setEngine i.eng e').trace e.ctx 1 (leBytes 2 n ++ leBytes 6 0 ++ leBytes 8 live.toNat ++
          leBytes 4 (l.reg d).toNat ++ leBytes 4 (if e.isSeq then e.launch else l.launch) ++ leBytes 4 (if e.isSeq then 0 else l.block)
          ++ leBytes 4 (if e.isSeq then 0 else l.thread) ++ leBytes 8 i.pc.toNat ++ leBytes 24 0)) ∧
        ((s.context e.ctx).traceLen = 0 → exec (.dbgmark g n d) s = .next (s.setEngine i.eng e')))

/-- The system instructions: reads and writes of system registers, and services. -/
def Obligations.SystemInstructions : Prop := Spec.SystemRegisterReads ∧ Spec.SystemRegisterWrites ∧ Spec.SystemServices

/-! ## Far operations, signals and fences -/

/-- What a far operation with operands `v` and `w` makes of a memory word `m` (R149), by its code of R51. -/
def Sys2Proof.Spec.far (op : Nat) (m v w : Word) : Word :=
  let word := fun (r : FloatRes) => BitVec.ofNat 32 r.code
  let half := fun (f : Nat → Nat → FloatRes) =>
    BitVec.ofNat 32 ((f (m.toNat % 65536) (v.toNat % 65536)).code + 65536 * (f (m.toNat / 65536) (v.toNat / 65536)).code)
  match op with
  | 0 => m + v
  | 1 => word (fAdd .f32 (.plain .rne) m.toNat v.toNat)
  | 2 => half (fAdd .bf16 (.plain .rne))
  | 3 => if m.slt v then m else v
  | 4 => if m.slt v then v else m
  | 5 => if m.ult v then m else v
  | 6 => if m.ult v then v else m
  | 7 => word (fMinMax .f32 false m.toNat v.toNat)
  | 8 => word (fMinMax .f32 true m.toNat v.toNat)
  | 9 => m &&& v
  | 10 => m ||| v
  | 11 => m ^^^ v
  | 12 => v
  | 13 => if m = v then w else m
  | 14 => if v.ule m then 0 else m + 1
  | _ => if m = 0 ∨ v.ult m then v else m - 1

/-- R149 to R151, R153: what each operation does at its home: the location takes its new value, the old one is returned by the forms that
return, no other byte changes, and a wait is answered only by a value that meets its condition; a load takes the bytes that its
core supplied and otherwise the home's, and a store writes its bytes (R145, R476). -/
def Obligations.FarOperationsAtTheirHome : Prop :=
  ∀ (s : State) (q : MeshReq) (p : MeshPart) (v w : Dword), s.xlat.migrations = [] → 2 ^ 21 ≤ p.loc → p.loc + 8 ≤ 2 ^ 63 →
    let word := fun (t : State) => BitVec.ofNat 32 (leValue (t.readHomeBytes p.loc 4))
    let dword := fun (t : State) => BitVec.ofNat 64 (leValue (t.readHomeBytes p.loc 8))
    let others := fun (t : State) (n : Nat) => ∀ a, a < 2 ^ 63 → (a < p.loc ∨ p.loc + n ≤ a) → t.readHome a = s.readHome a
    let runs := fun (op : MeshOp) => s.performPart q { p with op }
    (∀ op ret, let r := runs (.far op ret v w 4)
      word r.1 = Spec.far op (word s) (v.setWidth 32) (w.setWidth 32) ∧ others r.1 4 ∧
      r.2.done = true ∧ r.2.value = if ret then some (s.readHomeBytes p.loc 4) else none) ∧
    (∀ op order, let r := runs (.faro op order v w 4)
      word r.1 = Spec.far op (word s) (v.setWidth 32) (w.setWidth 32) ∧ others r.1 4 ∧ r.2.value = some (s.readHomeBytes p.loc 4)) ∧
    (∀ order, let r := fun op => runs (.faro op order v w 8)
      dword (r 3).1 = dword s + v ∧ dword (r 4).1 = v ∧ dword (r 5).1 = (if dword s = v then w else dword s) ∧
      dword (r 6).1 = (if (dword s).ult v then dword s else v) ∧ dword (r 7).1 = (if (dword s).ult v then v else dword s) ∧
      ∀ op, 3 ≤ op → op ≤ 7 → others (r op).1 8 ∧ (r op).2.value = some (s.readHomeBytes p.loc 8)) ∧
    dword (runs (.sigAdd v)).1 = dword s + v ∧ others (runs (.sigAdd v)).1 8 ∧ (runs (.sigAdd v)).2.value = p.value ∧
    dword (runs (.sigMax v)).1 = (if (dword s).ult v then v else dword s) ∧ others (runs (.sigMax v)).1 8 ∧
    s.sameMemory (runs .sigTest).1 ∧ (runs .sigTest).2.value = some (s.readHomeBytes p.loc 8) ∧
    (∀ ge : Bool,
      let r := runs (if ge then .sigWaitGe v else .sigWaitEq v)
      let met := (dword s).getLsbD 63 || (if ge then ((v.setWidth 63).ule ((dword s).setWidth 63)) else dword s == v)
      s.sameMemory r.1 ∧ (met = true → r.2.value = some (s.readHomeBytes p.loc 8)) ∧
      (met = false → r.2.value = p.value ∧ ∃ x, r.1.mem.waiters = s.mem.waiters ++ [x] ∧ x.loc = p.loc ∧ x.eng = q.eng ∧
        x.lane = p.lane ∧ x.ge = ge ∧ x.value = v)) ∧
    (∀ (z : Nat) signed src, z < 6 → let r := runs (.load z signed src)
      s.sameMemory r.1 ∧ r.2.done = true ∧ ∃ bs, r.2.value = some bs ∧ bs.length = 2 ^ z ∧ ∀ j, j < 2 ^ z →
        (∀ b, src.given.find? (·.1 == j) = some (j, b) → bs[j]? = some b) ∧
        (src.given.find? (·.1 == j) = none → (s.entry src.obj).retired = 0 → bs[j]? = some (s.readHome (p.loc + j)))) ∧
    (∀ bs : List Byte, p.loc + bs.length ≤ 2 ^ 63 → let r := runs (.store bs)
      others r.1 bs.length ∧ r.2.done = true ∧ ∀ j b, bs[j]? = some b → r.1.readHome (p.loc + j) = b)

/-- The far operations, FAROs and signals, each with its access class, its width, whether it waits and the operation of a lane. -/
def Sys2Proof.Spec.fars (g : Guard) (x d : Fin 64) (h : Fin 16) (t : Fin 2) (o : Fin 4) :
    List (Instr × AccessClass × Nat × Bool × (Lane → MeshOp)) :=
  let far := fun (op : Nat) (i : Instr) =>
    (i, AccessClass.far, 4, false, fun (l : Lane) => MeshOp.far op (t.val == 1) ((l.reg d).setWidth 64) ((l.reg (d + 1)).setWidth 64) 4)
  let faro32 := fun (op : Nat) (i : Instr) =>
    (i, AccessClass.far, 4, false, fun (l : Lane) => MeshOp.faro op o ((l.reg d).setWidth 64) ((l.reg (d + 1)).setWidth 64) 4)
  let faro64 := fun (op : Nat) (i : Instr) =>
    (i, AccessClass.far, 8, false, fun (l : Lane) => MeshOp.faro op o (l.pair d) (l.pair (d + 2)) 8)
  let sig := fun (i : Instr) (sleeps : Bool) (op : Dword → MeshOp) => (i, AccessClass.signal, 8, sleeps, fun (l : Lane) => op (l.pair d))
  [far 0 (.farAddS32 g t x h d), far 1 (.farAddF32 g t x h d), far 2 (.farAddBf16x2 g t x h d), far 3 (.farMinS32 g t x h d),
   far 4 (.farMaxS32 g t x h d), far 5 (.farMinN32 g t x h d), far 6 (.farMaxN32 g t x h d), far 7 (.farMinF32 g t x h d),
   far 8 (.farMaxF32 g t x h d), far 9 (.farAnd g t x h d), far 10 (.farOr g t x h d), far 11 (.farXor g t x h d),
   far 12 (.farExch g t x h d), far 13 (.farCas g t x h d), far 14 (.farIncWrap g t x h d), far 15 (.farDecWrap g t x h d),
   faro32 0 (.faroAddS32 g o x h d), faro32 12 (.faroExchB32 g o x h d), faro32 13 (.faroCasB32 g o x h d),
   faro64 3 (.faroAddN64 g o x h d), faro64 4 (.faroExchB64 g o x h d), faro64 5 (.faroCasB64 g o x h d),
   faro64 6 (.faroMinN64 g o x h d), faro64 7 (.faroMaxN64 g o x h d),
   sig (.sigAdd g x h d) false .sigAdd, sig (.sigMax g x h d) false .sigMax, sig (.sigWaitGe g x h d) true .sigWaitGe,
   sig (.sigWaitEq g x h d) true .sigWaitEq, sig (.sigTest g x h d) false fun _ => .sigTest]

/-- R149 to R153, R311 and R476: a far operation, FARO or signal outside DET launches whose checks pass and whose addresses are translated
sends each lane's operation to its home and goes on, restarting at itself until it is performed there; a wait puts its lanes to sleep; in
the scratchpad the operation is performed at once. -/
def Sys2Proof.Spec.FarOperationsIssue : Prop :=
  ∀ (g : Guard) (x d : Fin 64) (h : Fin 16) (t : Fin 2) (o : Fin 4),
    ∀ f ∈ Spec.fars g x d h t o, ∀ s i e live, s.Issues f.1 i e → e.Executes i g live → live ≠ 0 →
      let r := e.region h
      let addr := fun (l : Lane) => r.base + Spec.index x l
      let at_ := fun (k : Nat) (l : Lane) (loc : Nat) => ∃ n p, resolve s (e.asker k) (s.scratchOf e) .far (addr l) = .at_ loc n p
      Spec.Allowed s e r f.2.1 f.2.2.1 live addr → s.isDet e = false → e.beats = [] →
      s.outstanding i.eng live false s.nextId = false → spaceOf r.base ≠ 4 →
      (∀ k l, live.getLsbD k = true → e.lanes.find? k = some l → ∃ loc, at_ k l loc) →
      ∃ u e', exec f.1 s = .next u ∧ u.engine i.eng = some e' ∧ e'.entries = (e.entries + 1) % 2 ^ 32 ∧
        (spaceOf r.base ≠ 0 → spaceOf r.base ≠ 5 → spaceOf r.base ≠ 3 → s.sameMemory u) ∧
        (spaceOf r.base ≠ 3 → ∀ k l, live.getLsbD k = true → e.lanes.find? k = some l → ∃ loc id q p l',
          at_ k l loc ∧ u.mem.mesh.find? id = some q ∧ q.eng = i.eng ∧ q.dest = d ∧ (q.stage = .travelling ∨ q.stage = .after) ∧
          q.home = homeOf s e.place.die loc ∧
          q.due = s.clock.cyc + 40 + 2 * hops e.place.clusterId q.home + 18 * crossings e.place.clusterId q.home ∧
          p ∈ q.parts ∧ p.lane = k ∧ p.loc = loc ∧ p.op = f.2.2.2.2 l ∧ p.done = false ∧
          e'.lanes.find? k = some l' ∧ l'.pc = i.pc + BitVec.ofNat 32 i.len ∧ l'.restart = i.pc ∧ l'.regs = l.regs ∧ l'.preds = l.preds ∧
          (f.2.2.2.1 = true → ∃ w ∈ u.work.waits, l'.status = .sleeping w.id ∧ w.kind = .signal ∧ w.eng = i.eng) ∧
          (f.2.2.2.1 = false → l'.status = l.status)) ∧
        (∀ k l loc op ret v w, spaceOf r.base = 3 → s.xlat.migrations = [] → live = (1 : Dword) <<< k → e.lanes.find? k = some l →
          at_ k l loc → f.2.2.2.2 l = .far op ret v w 4 → 2 ^ 21 ≤ loc → loc + 8 ≤ 2 ^ 63 →
          let old : Word := BitVec.ofNat 32 (leValue (s.readHomeBytes loc 4))
          u.readHomeBytes loc 4 = leBytes 4 (Spec.far op old (v.setWidth 32) (w.setWidth 32)).toNat ∧
          (∀ a, a < 2 ^ 63 → (a < loc ∨ loc + 4 ≤ a) → u.readHome a = s.readHome a) ∧
          ∃ l', e'.lanes.find? k = some l' ∧ l'.pc = i.pc + BitVec.ofNat 32 i.len ∧ l'.reg d = if ret then old else l.reg d) ∧
        ∀ k, live.getLsbD k = false → e'.lanes.find? k = (e.lanes.find? k).map fun l => if i.lanes.getLsbD k then l.goneOn i else l

/-- R152 and R271: in a DET launch a far operation that returns raises DETORDER with detail 2. -/
def Sys2Proof.Spec.DetOrderForbidsReturns : Prop :=
  ∀ (g : Guard) (x d : Fin 64) (h : Fin 16) (o : Fin 4),
    ∀ f ∈ Spec.fars g x d h 1 o, f.2.1 = .far → ∀ s i e live, s.Issues f.1 i e → e.Executes i g live → live ≠ 0 →
      Spec.Allowed s e (e.region h) .far f.2.2.1 live (fun l => (e.region h).base + Spec.index x l) → s.isDet e = true →
      exec f.1 s = .next (s.trap { i with away := i.lanes &&& ~~~live } .detorder live (e.region h).base 2)

/-- R161 and R285: a fence only goes on and holds its lanes' later accesses behind the earlier ones: those that have yet to return, and for a
release those that have yet to be performed at its scope, among them buffered stores that their commit will send away; a cohort that the block does not hold raises REFUSE, REASON 7. -/
def Sys2Proof.Spec.Fences : Prop :=
  ∀ (g : Guard) (b a : Fin 64) (s : State) (i : Issue) (e : Engine) (live : Dword),
    ∀ f ∈ [(Instr.fenceAcq g b a, false), (.fenceRel g b a, true), (.fenceAcqrel g b a, true)],
      s.Issues f.1 i e → e.Executes i g live →
      let near : Bool := decide (a = 0 ∨ a = 1 ∨ a = 3)
      let held := fun (l : Lane) => a ≠ 2 ∨ s.holdsCohort e (l.reg b).toNat = true
      ((∀ k l, live.getLsbD k = true → e.lanes.find? k = some l → held l) →
        ∃ e', exec f.1 s = .next (s.setEngine i.eng e') ∧ s.sameMemory (s.setEngine i.eng e') ∧
          e.LanesOf e' (fun k l => if i.lanes.getLsbD k then l.goneOn i else l) ∧
          (∀ n q p, (n, q) ∈ s.mem.mesh → q.eng = i.eng → p ∈ q.parts → live.getLsbD p.lane = true →
            (p.op.returns = true ∨ (f.2 = true ∧ q.unperformed live near = true)) →
            ∃ y ∈ e'.sb, y.key = .mem live ∧ y.due = none ∧ y.tag = q.wait) ∧
          (∀ y m, y ∈ e.sb → y.key = .load m → live ≠ 0 → m &&& live ≠ 0 → ∃ z ∈ e'.sb, z.key = .mem live ∧ z.due = y.due) ∧
          (∀ c ∈ e.beats, f.2 = true → live ≠ 0 → (c.space = 6 ∨ (c.space = 4 ∧ near = false)) → ∃ y ∈ e'.sb, y.key = .fence live)) ∧
      (∀ k l, live.getLsbD k = true → e.lanes.find? k = some l → ¬ held l →
        (∀ j l', j < k → live.getLsbD j = true → e.lanes.find? j = some l' → held l') →
        exec f.1 s = .next (s.refuse { i with away := i.lanes &&& ~~~live } live 0 7 0 k))

/-- The issue of far operations, FAROs and signals, in and outside DET launches, and fences. -/
def Obligations.FarOperationsAndFences : Prop := Spec.FarOperationsIssue ∧ Spec.DetOrderForbidsReturns ∧ Spec.Fences

/-! ## Mailboxes, spawn, hand-off queues, sleep and yield -/

/-- R168: each live lane posts its message to its mailbox in ascending lane order; a mailbox that is not bound raises REFUSE, REASON 10; one
without room holds the instruction back. -/
def Sys2Proof.Spec.MailboxPosts : Prop :=
  ∀ (g : Guard) (b a : Fin 64) (s : State) (i : Issue) (e : Engine) (live : Dword),
    s.Issues (.mbpost g b a) i e → e.Executes i g live →
    let box := fun (l : Lane) => (l.reg a).toNat % 4096
    let message := fun (l : Lane) => leBytes 4 (l.reg b).toNat ++ leBytes 4 (l.reg (b + 1)).toNat ++ leBytes 4 (l.reg (b + 2)).toNat
      ++ leBytes 4 (l.reg (b + 3)).toNat
    let posts := fun (n : Nat) => (e.lanesOf live).filter fun p => box p.2 == n
    let bound := fun (l : Lane) => (s.launch.mailboxes.find? (box l)).isSome = true
    ((∀ k l, live.getLsbD k = true → e.lanes.find? k = some l →
        ∃ m, s.launch.mailboxes.find? (box l) = some m ∧ m.waiting.length + (posts (box l)).length ≤ 256) →
      ∃ t e', exec (.mbpost g b a) s = .next t ∧ s.sameMemory t ∧ t.engine i.eng = some e' ∧
        e.LanesOf e' (fun k l => if i.lanes.getLsbD k then l.goneOn i else l) ∧
        ∀ n, t.launch.mailboxes.find? n = (s.launch.mailboxes.find? n).map fun m =>
          { m with waiting := m.waiting ++ (posts n).map fun p => message p.2 }) ∧
    (∀ k l, live.getLsbD k = true → e.lanes.find? k = some l → ¬ bound l →
      (∀ j l', j < k → live.getLsbD j = true → e.lanes.find? j = some l' → bound l') →
      exec (.mbpost g b a) s = .next (s.refuse { i with away := i.lanes &&& ~~~live } live 0 10 0 k)) ∧
    (∀ k l m, (∀ j l', live.getLsbD j = true → e.lanes.find? j = some l' → bound l') → live.getLsbD k = true →
      e.lanes.find? k = some l → s.launch.mailboxes.find? (box l) = some m → 256 < m.waiting.length + (posts (box l)).length →
      exec (.mbpost g b a) s = .next s)

/-- R168 and R339: `spawn` seals a slot of its context, and its register takes the launch id later; hand-off queues hold their entries in
order; a taker sleeps while its queue is empty.  Lanes go on
after a `spawn` at once; where an earlier access or a borrow of the slot is pending, the seal waits for it. -/
def Sys2Proof.Spec.SpawnAndHandOff : Prop :=
  ∀ (g : Guard) (b a d : Fin 64) (s : State) (i : Issue) (e : Engine) (live : Dword) (k : Nat) (l : Lane),
    e.Executes i g live → live.getLsbD k = true → (∀ j, j < k → live.getLsbD j = false) → e.lanes.find? k = some l → e.beats = [] →
    let on := fun (k : Nat) (l : Lane) => if i.lanes.getLsbD k then l.goneOn i else l
    let committed := fun (k : Nat) (l : Lane) => if live.getLsbD k then
      { l with pc := i.pc + BitVec.ofNat 32 i.len, restart := i.pc + BitVec.ofNat 32 i.len, issued := false } else on k l
    let key := 16 * e.place.clusterId + (l.reg a).toNat % 16
    let queue := fun (t : State) => Store.get [] t.work.handoff key
    (s.Issues (.spawn g a d) i e →
      let slot := (l.reg a).toNat % 4096
      let c := s.context e.ctx
      ((slot < c.slotFirst ∨ c.slotFirst + c.slotCount ≤ slot) →
        exec (.spawn g a d) s = .next (s.refuse { i with away := i.lanes &&& ~~~live } live 0 6 6 0)) ∧
      (c.slotFirst ≤ slot → slot < c.slotFirst + c.slotCount → s.holdsSlot e slot = false → (∀ n, s.spawnWaits i.eng e slot n = false) →
        s.xlat.migrations = [] →
        ∃ t w e', exec (.spawn g a d) s = .next t ∧ t.readHome (512 * slot + 511) = 1 ∧
          (∀ n, n < 2 ^ 63 → n ≠ 512 * slot + 511 → t.readHome n = s.readHome n) ∧
          w ∈ t.work.waits ∧ w.eng = i.eng ∧ w.lanes = live ∧
          w.kind = .spawned (s.clock.cyc + 132) slot (if (Store.get .idle s.launch.slots slot).busy then none else some 0) d ∧
          t.engine i.eng = some e' ∧ ∀ k, e'.lanes.find? k = (e.lanes.find? k).map (committed k)) ∧
      (c.slotFirst ≤ slot → slot < c.slotFirst + c.slotCount → s.holdsSlot e slot = false →
        (s.narrowObjects e.ctx slot = [] ∧ ∀ n, s.nextId ≤ n → s.spawnWaits i.eng e slot n = true) →
        ∃ t w e', exec (.spawn g a d) s = .next t ∧ s.sameMemory t ∧ w ∈ t.work.waits ∧ w.eng = i.eng ∧ w.kind = .spawn slot d ∧
          t.engine i.eng = some e' ∧ ∀ k, e'.lanes.find? k = (e.lanes.find? k).map (committed k))) ∧
    (s.Issues (.hqpost g b a) i e → (∀ n, s.outstanding i.eng live false n = false) → (queue s).length < 32 → s.taker key = none →
      ∃ t e', exec (.hqpost g b a) s = .next t ∧ s.sameMemory t ∧ queue t = queue s ++ [l.pair b] ∧ t.engine i.eng = some e' ∧
        ∀ k, e'.lanes.find? k = (e.lanes.find? k).map (committed k)) ∧
    (s.Issues (.hqtake g a d) i e →
      (∀ v rest, queue s = v :: rest → s.taker key = none →
        ∃ t e', exec (.hqtake g a d) s = .next t ∧ s.sameMemory t ∧ queue t = rest ∧ t.engine i.eng = some e' ∧
          e.LanesOf e' fun k l => on k (if live.getLsbD k then l.setPair d v else l)) ∧
      (queue s = [] → ∃ t w e', exec (.hqtake g a d) s = .next t ∧ s.sameMemory t ∧ w ∈ t.work.waits ∧ w.eng = i.eng ∧ w.lanes = live ∧
        w.kind = .hqTake key d ∧ t.engine i.eng = some e' ∧
        ∀ k, e'.lanes.find? k = (e.lanes.find? k).map fun l =>
          if live.getLsbD k then { l with status := .sleeping w.id, issued := true } else on k l)) ∧
    (s.Issues (.hqpeek g a d) i e → ∃ e', exec (.hqpeek g a d) s = .next (s.setEngine i.eng e') ∧
      e.LanesOf e' fun k l => on k (if live.getLsbD k then l.setReg d (BitVec.ofNat 32 (queue s).length) else l)) ∧
    (s.Issues (.yield g) i e → ∃ e', exec (.yield g) s = .next (s.setEngine i.eng e') ∧
      ({ e with yieldFrom := some s.clock.cyc } : Engine).LanesOf e' on) ∧
    (s.Issues (.sleepUntil g a) i e → ∃ t e', exec (.sleepUntil g a) s = .next t ∧ s.sameMemory t ∧ t.engine i.eng = some e' ∧
      (∀ k l, live.getLsbD k = true → e.lanes.find? k = some l → s.clock.cyc < (l.pair a).toNat →
        ∃ w ∈ t.work.waits, w.eng = i.eng ∧ w.kind = .until_ (l.pair a).toNat ∧
          e'.lanes.find? k = some { l with status := .sleeping w.id, issued := true }) ∧
      (∀ k l, e.lanes.find? k = some l → (live.getLsbD k = false ∨ (l.pair a).toNat ≤ s.clock.cyc) →
        e'.lanes.find? k = some (on k l)))

/-- Mailbox posts, spawns and hand-off queues. -/
def Obligations.MailboxesSpawnAndHandOff : Prop := Spec.MailboxPosts ∧ Spec.SpawnAndHandOff

/-! ## Borrows -/

/-- The lanes of a commit point that completes at its issue: they restart at the next instruction (R311). -/
def Sys2Proof.Spec.committed (i : Issue) (live : Dword) (k : Nat) (l : Lane) : Lane :=
  if live.getLsbD k then
    { l with pc := i.pc + BitVec.ofNat 32 i.len, restart := i.pc + BitVec.ofNat 32 i.len, issued := false }
  else if i.lanes.getLsbD k then l.goneOn i else l

/-- A gang instruction issues with lane `k` as its lowest live lane and no stores buffered. -/
structure Sys2Proof.Spec.Lowest (s : State) (x : Instr) (g : Guard) (i : Issue) (e : Engine) (live : Dword) (k : Nat) (l : Lane) : Prop where
  issues : s.Issues x i e
  executes : e.Executes i g live
  here : live.getLsbD k = true
  least : ∀ j, j < k → live.getLsbD j = false
  lane : e.lanes.find? k = some l
  empty : e.beats = []

/-- R154 to R156: a borrow reads the shape record that gT names in the lowest live lane and sends its request, and its lanes wait for the
answer; a destination in use raises REFUSE, REASON 4, and a parent that does not hold the bytes, or has 255 children with those to come, is
answered RANGE without a request, before the record is judged. -/
def Sys2Proof.Spec.BorrowRequests : Prop :=
  ∀ (g : Guard) (n : Fin 8) (x : Fin 64) (hs hd : Fin 16) (s : State) (i : Issue) (e : Engine) (live : Dword) (k : Nat) (l : Lane),
    ∀ f ∈ [(Instr.borrowX g x hs hd, true, false, 0), (.borrowS g x hs hd, false, false, 0),
      (.borrowXTry g n x hs hd, true, true, n.val), (.borrowSTry g n x hs hd, false, true, n.val)],
      Spec.Lowest s f.1 g i e live k l →
      let j := { i with away := i.lanes &&& ~~~live }
      let t := (l.reg x).toNat % 4096
      let rec_ := s.tensor e.ctx t
      let p := e.region hs
      let sound := rec_.valid = true ∧ rec_.object = true ∧ rec_.malformed = none
      let usable := (spaceOf rec_.base = 15 → s.privileged e = true) ∧ rec_.obj / 2 ^ 18 = 0 ∧ footprintOk rec_.base rec_.span = true
      let held := p.kind ≠ .none ∧ p.base ≤ rec_.base ∧ rec_.base + rec_.span ≤ p.base + p.extent ∧ (f.2.1 = true → p.kind ≠ .shared) ∧
        p.children + (s.own.requests.filter fun q => q.who == .eng i.eng && q.parent == some hs.val).length < 255
      let waits := fun (stage : BorrowStage) => ∃ u w r e', exec f.1 s = .next u ∧ s.sameMemory u ∧ w ∈ u.work.waits ∧ w.eng = i.eng ∧
        w.lanes = live ∧ w.kind = .borrow r.id ∧ r ∈ u.own.requests ∧ r.who = .eng i.eng ∧ r.obj = rec_.obj % 2 ^ 18 ∧
        r.exclusive = f.2.1 ∧ r.try_ = f.2.2.1 ∧ r.pred = f.2.2.2 ∧ r.tensor = t ∧ r.base = rec_.base ∧ r.extent = rec_.span ∧ r.dest = hd ∧
        r.parent = (if hs = hd then none else some hs.val) ∧ r.stage = stage ∧ u.engine i.eng = some e' ∧ e'.regions = e.regions ∧
        ∀ k, e'.lanes.find? k = (e.lanes.find? k).map fun l =>
          if live.getLsbD k then { l with status := .sleeping w.id } else if i.lanes.getLsbD k then l.goneOn i else l
      ((e.region hd).kind ≠ .none → exec f.1 s = .next (s.refuse j live (e.region hd).base 4 0 0)) ∧
      ((e.region hd).kind = .none → hs ≠ hd → ¬ held → waits (.answered (s.clock.cyc + 60) 7)) ∧
      ((e.region hd).kind = .none → (hs = hd ∨ held) →
        (¬ (rec_.valid = true ∧ rec_.object = true) → waits (.answered (s.clock.cyc + 60) 5)) ∧
        (∀ m, rec_.valid = true → rec_.object = true → rec_.malformed = some m →
          exec f.1 s = .next (s.trap j .format live rec_.base m)) ∧
        (sound → spaceOf rec_.base = 15 → s.privileged e = false → exec f.1 s = .next (s.trap j .priv live rec_.base 0)) ∧
        (sound → (spaceOf rec_.base = 15 → s.privileged e = true) → ¬ usable → waits (.answered (s.clock.cyc + 60) 7)) ∧
        (sound → usable → waits .issued))

/-- R155, R156, R255 and R258: a request that may be granted makes its entry exclusive with the next version, or shared with one holder
more; the answer comes 60 cycles later on the entry's die; a grant fills the region register, a refusal leaves it, a try form tells
which in its predicate, and the other refusals raise DETORDER or REFUSE, REASON 6. -/
def Obligations.BorrowGrantsAndAnswers : Prop :=
  ∀ (s : State) (r : BorrowReq) (id : Nat) (e : Engine), r.who = .eng id → s.engine id = some e →
    (s.grantDue = some r → e.place.die = objDie r.obj → (s.entry r.obj).kind ≠ .offered → s.isDet e = false →
      (s.entry r.obj).detRed = false →
      ∃ t q n, exec .borrowGrant s = .next t ∧ s.sameMemory t ∧ q ∈ t.own.requests ∧ q.id = r.id ∧
        q.stage = .answered (s.clock.cyc + 60) n ∧ (n = 0 ∨ n = 3 ∨ n = 4) ∧ q.version = (t.entry r.obj).version ∧
        (r.exclusive = true → (t.entry r.obj).kind = .excl ∧ (t.entry r.obj).version = nextVersion (s.entry r.obj).version ∧
          (t.entry r.obj).abandoned = false) ∧
        (r.exclusive = false → (t.entry r.obj).kind = .shared ∧ (t.entry r.obj).holders = (s.entry r.obj).holders + 1 ∧
          (t.entry r.obj).version = (s.entry r.obj).version)) ∧
    (∀ n w, s.answerDue = some (r, n) → e.ended = false → r.withdrawn = false → r.layer = none → s.waitOf r.wait = some w →
      w.eng = id → w.commit = true → (∀ k l, w.lanes.getLsbD k = true → e.lanes.find? k = some l → l.status = .sleeping w.id) →
      let granted := n = 0 ∨ n = 3 ∨ n = 4
      let region : Region := { Region.empty with
        kind := if r.exclusive then .exclusive else .shared
        base := r.base, extent := r.extent, obj := r.obj, version := r.version, tensor := r.tensor
        parent := r.parent.map fun h => (id, h), status := n, writingBack := (e.region r.dest).writingBack }
      let next : Word := w.pc + BitVec.ofNat 32 w.len
      let goes := fun (t : State) (f : Lane → Lane) => ∃ e', t.engine id = some e' ∧
        ∀ k l, w.lanes.getLsbD k = true → e.lanes.find? k = some l →
          e'.lanes.find? k = some { f l with pc := next, restart := next, issued := false, status := .ready }
      let trap := fun (c : Cause) (detail : Nat) => ∃ u e', u.engine id = some e' ∧ s.sameMemory u ∧
        (e'.region r.dest).kind = (e.region r.dest).kind ∧ (e'.region r.dest).status = n ∧
        exec .borrowAnswer s = .next (u.raise { eng := id, cause := c, lanes := w.lanes, pc := w.pc, insn := w.insn, faddr := r.base, detail })
      (granted → ∃ t e', exec .borrowAnswer s = .next t ∧ s.sameMemory t ∧ t.engine id = some e' ∧
        (r.parent = none → e'.region r.dest = region) ∧
        (∀ h, r.parent = some h → h ≠ r.dest → e'.region r.dest = region ∧ e'.region h = { e.region h with
          children := (e.region h).children + 1
          frozenChild := (e.region h).frozenChild || r.exclusive
          readOnly := (e.region h).readOnly || !r.exclusive }) ∧
        goes t fun l => if r.try_ then l.setPred r.pred (n == 0) else l) ∧
      (r.try_ = true → ¬ granted → ∃ t e', exec .borrowAnswer s = .next t ∧ s.sameMemory t ∧ t.engine id = some e' ∧
        (e'.region r.dest).kind = (e.region r.dest).kind ∧ (n = 1 → e'.regions = e.regions) ∧ goes t fun l => l.setPred r.pred false) ∧
      (r.try_ = false → n = 2 → trap .detorder 0) ∧
      (r.try_ = false → 5 ≤ n → n ≤ 7 → trap .refuse (6 * 2 ^ 24 + n * 2 ^ 16)))

/-- R157 and R260: a reborrow narrows a held region and freezes its parent, or makes it read-only, until it is returned; the conditions are
judged in order. -/
def Sys2Proof.Spec.Reborrows : Prop :=
  ∀ (g : Guard) (x : Fin 64) (hs hd : Fin 16) (s : State) (i : Issue) (e : Engine) (live : Dword) (k : Nat) (l : Lane),
    ∀ f ∈ [(Instr.reborrowX g x hs hd, true), (.reborrowS g x hs hd, false)], Spec.Lowest s f.1 g i e live k l →
      let p := e.region hs
      let o := (l.reg x).toNat
      let n := (l.reg (x + 1)).toNat
      let refused := fun (reason status : Nat) (r : Region) =>
        exec f.1 s = .next (s.refuse { i with away := i.lanes &&& ~~~live } live r.base reason status 0)
      let misfit := p.kind = .none ∨ (f.2 = true ∧ p.kind = .shared) ∨ p.extent < o + n ∨ 255 ≤ p.children
      let shut := p.frozenChild = true ∨ p.frozenSelf = true ∨ (f.2 = true ∧ p.readOnly = true)
      ((e.region hd).kind ≠ .none → refused 4 0 (e.region hd)) ∧
      ((e.region hd).kind = .none → misfit → refused 6 7 p) ∧
      ((e.region hd).kind = .none → ¬ misfit → shut → refused 3 0 p) ∧
      ((e.region hd).kind = .none → ¬ misfit → ¬ shut →
        ∃ e', exec f.1 s = .next (s.setEngine i.eng e') ∧ s.sameMemory (s.setEngine i.eng e') ∧
          e'.region hd = { Region.empty with
            kind := if f.2 then .exclusive else .shared
            base := p.base + o, extent := n, obj := p.obj, version := p.version, tensor := p.tensor, parent := some (i.eng, hs.val), child := true
            writingBack := (e.region hd).writingBack } ∧
          e'.region hs = { p with children := p.children + 1, frozenChild := f.2, readOnly := p.readOnly || !f.2 } ∧
          (∀ h : Nat, h ≠ hs → h ≠ hd → e'.region h = e.region h) ∧ e'.sregs = e.sregs ∧ e'.masks = e.masks ∧
          ∀ k, e'.lanes.find? k = (e.lanes.find? k).map fun l => if i.lanes.getLsbD k then l.goneOn i else l)

/-- The issue of borrows and reborrows. -/
def Obligations.BorrowsAndReborrows : Prop := Spec.BorrowRequests ∧ Spec.Reborrows

/-- R158, R159 and R277: a split gives each named gang its slice and freezes the region; another gang has it from the next cycle on; `join` waits for the children; `give` moves a borrow to a
gang of the block or offers it; `freeze` and `thaw` set and clear a freeze; each refusal has its reason. -/
def Sys2Proof.Spec.SplitsAndGifts : Prop :=
  ∀ (g : Guard) (x : Fin 64) (hs hd : Fin 16) (s : State) (i : Issue) (e : Engine) (live : Dword) (k : Nat) (l : Lane),
    let r := e.region hs
    let refused := fun (instr : Instr) (reason status : Nat) =>
      exec instr s = .next (s.refuse { i with away := i.lanes &&& ~~~live } live r.base reason status 0)
    let frozen := (r.frozenChild || r.frozenSelf) = true
    let free := fun (n h : Nat) => ∀ m ∈ s.own.moving, ¬ (m.2.1 = n ∧ m.2.2.1 = h)
    let cleared : Region := { Region.empty with status := r.status, writingBack := r.writingBack }
    let done := fun (instr : Instr) (base : Engine) => ∃ t e', exec instr s = .next t ∧ s.sameMemory t ∧ t.engine i.eng = some e' ∧
      e'.regions = base.regions ∧ ∀ k, e'.lanes.find? k = (e.lanes.find? k).map (Spec.committed i live k)
    (∀ f ∈ [(Instr.split2 g x hs hd, 2), (.split4 g x hs hd, 4), (.split8 g x hs hd, 8)], Spec.Lowest s f.1 g i e live k l →
      let named := fun (k : Nat) => s.gangOfBlock e ((l.reg (x + k / 4)).toNat / 2 ^ (8 * (k % 4)) % 256)
      let sliced := ¬ (r.extent % (128 * f.2) ≠ 0 ∨ 255 < r.children + f.2)
      (e.isSeq = true → refused f.1 5 0) ∧
      (e.isSeq = false → r.kind ≠ .exclusive → refused f.1 1 0) ∧
      (e.isSeq = false → r.kind = .exclusive → (frozen ∨ r.readOnly = true) → refused f.1 3 0) ∧
      (e.isSeq = false → r.kind = .exclusive → ¬ frozen → r.readOnly = false → ¬ sliced → refused f.1 6 7) ∧
      (e.isSeq = false → r.kind = .exclusive → ¬ frozen → r.readOnly = false → sliced → (∃ k, k < f.2 ∧ named k = none) → refused f.1 5 0) ∧
      (e.isSeq = false → r.kind = .exclusive → ¬ frozen → r.readOnly = false → sliced →
        (∀ k, k < f.2 → ∃ t u, named k = some t ∧ s.engine t = some u ∧ (u.region (hd + k)).kind = .none ∧ free t (hd + k)) →
        ∃ t, exec f.1 s = .next t ∧ s.sameMemory t ∧
          (∃ e', t.engine i.eng = some e' ∧
            e'.region hs = { r with children := r.children + f.2, frozenChild := true, split := true }) ∧
          ∀ k, k < f.2 → ∃ n, named k = some n ∧
            let child : Region := { Region.empty with
              kind := .exclusive, base := r.base + k * (r.extent / f.2), extent := r.extent / f.2, obj := r.obj, version := r.version
              tensor := r.tensor, parent := some (i.eng, hs.val), child := true }
            (n = i.eng → ∃ u, t.engine n = some u ∧
              u.region (hd + k) = { child with writingBack := (e.region (hd + k)).writingBack }) ∧
            (n ≠ i.eng → (s.clock.cyc + 1, n, hd + k, child) ∈ t.own.moving))) ∧
    (Spec.Lowest s (.join g hs) g i e live k l →
      (r.children = 0 → done (.join g hs) (e.setRegion hs { r with frozenChild := false, split := false, readOnly := false })) ∧
      (r.children ≠ 0 → ∃ t w, exec (.join g hs) s = .next t ∧ s.sameMemory t ∧ w ∈ t.work.waits ∧ w.eng = i.eng ∧ w.lanes = live ∧
        w.kind = .join hs)) ∧
    (Spec.Lowest s (.give g x hs) g i e live k l →
      (e.isSeq = true → refused (.give g x hs) 5 0) ∧
      (e.isSeq = false → r.kind = .none → refused (.give g x hs) 1 0) ∧
      (e.isSeq = false → r.kind ≠ .none → r.children ≠ 0 → refused (.give g x hs) 9 0) ∧
      (e.isSeq = false → r.kind ≠ .none → r.children = 0 → (l.reg x).getLsbD 31 = true → r.child = true → refused (.give g x hs) 1 0) ∧
      (e.isSeq = false → r.kind = .exclusive → r.children = 0 → (l.reg x).getLsbD 31 = true → r.child = false → r.version ≠ 0 →
        objPkg r.base = none → r.parent = none → s.mem.l1Dirty e.l1 r.obj r.version = [] →
        ∃ t, exec (.give g x hs) s = .next t ∧ s.sameMemory t ∧ (t.entry r.obj).kind = .offered ∧
          (t.entry r.obj).version = (s.entry r.obj).version ∧
          ∃ e', t.engine i.eng = some e' ∧ e'.region hs = cleared ∧
            ∀ k, e'.lanes.find? k = (e.lanes.find? k).map (Spec.committed i live k)) ∧
      (∀ n u, e.isSeq = false → r.kind ≠ .none → r.children = 0 → (l.reg x).getLsbD 31 = false →
        s.gangOfBlock e ((l.reg x).toNat % 256) = some n → s.engine n = some u → (u.region hs).kind ≠ .none → refused (.give g x hs) 4 0) ∧
      (∀ n u, e.isSeq = false → r.kind ≠ .none → r.children = 0 → (l.reg x).getLsbD 31 = false →
        s.gangOfBlock e ((l.reg x).toNat % 256) = some n → s.engine n = some u → (u.region hs).kind = .none → free n hs →
        done (.give g x hs) (e.setRegion hs cleared) ∧
        ∃ t, exec (.give g x hs) s = .next t ∧ (s.clock.cyc + 1, n, hs.val, r) ∈ t.own.moving)) ∧
    (Spec.Lowest s (.freeze g hs) g i e live k l →
      (r.kind = .none → refused (.freeze g hs) 9 0) ∧
      (r.kind ≠ .none → done (.freeze g hs) (e.setRegion hs { r with frozenSelf := true }))) ∧
    (Spec.Lowest s (.thaw g hs) g i e live k l →
      (r.children ≠ 0 → refused (.thaw g hs) 9 0) ∧
      (r.children = 0 → done (.thaw g hs) (e.setRegion hs { r with frozenSelf := false })))

/-- R160: a return empties its register at issue and releases the entry, a shared one by one holder, an exclusive one with its scope
recorded; `bdrop` discards an exclusive borrow's dirty lines and advances the version; `bstat` writes the status word. -/
def Sys2Proof.Spec.Returns : Prop :=
  ∀ (g : Guard) (x : Fin 64) (h : Fin 16) (s : State) (i : Issue) (e : Engine) (live : Dword) (k : Nat) (l : Lane),
    let r := e.region h
    let refused := fun (instr : Instr) (reason : Nat) =>
      exec instr s = .next (s.refuse { i with away := i.lanes &&& ~~~live } live r.base reason 0 0)
    let here := objPkg r.base = none ∧ objDie r.obj = e.place.die
    let held := s.entry r.obj
    let returned := fun (instr : Instr) (after : State → Prop) => ∃ t e', exec instr s = .next t ∧ t.engine i.eng = some e' ∧
      (e'.region h).kind = .none ∧ (e'.region h).status = r.status ∧ (∀ j : Nat, j ≠ h → e'.region j = e.region j) ∧
      (∀ k, e'.lanes.find? k = (e.lanes.find? k).map (Spec.committed i live k)) ∧ after t
    (∀ f ∈ [(Instr.returnBlk g h, 1), (.returnCore g h, 3), (.returnDie g h, 5), (.returnDev g h, 6), (.returnSys g h, 7)],
      Spec.Lowest s f.1 g i e live k l →
      (r.kind = .none → refused f.1 1) ∧ (r.kind ≠ .none → r.children ≠ 0 → refused f.1 9) ∧
      (r.kind = .shared → r.children = 0 → r.parent = none → r.child = false → r.version ≠ 0 → r.layer = false → here →
        (held.retired = 0 ∨ r.version ≠ held.retired) →
        returned f.1 fun t => s.sameMemory t ∧ t.entry r.obj =
          if held.holders ≤ 1 then { held with holders := 0, kind := if held.kind = .shared then .idle else held.kind }
          else { held with holders := held.holders - 1 }) ∧
      (r.kind = .exclusive → r.children = 0 → r.parent = none → r.child = false → r.version ≠ 0 → here → spaceOf r.base ≠ 6 →
        (∀ c ∈ s.mem.l1Dirty e.l1 r.obj held.version, c.1 < 2 ^ 63) →
        returned f.1 fun t => (t.entry r.obj).kind = .idle ∧ (t.entry r.obj).version = held.version ∧
          (f.2 < 5 → s.waitingAt r.obj = [] → s.sameMemory t ∧ (t.entry r.obj).scope = f.2 ∧ (t.entry r.obj).reachCore = e.l1)) ∧
      (r.kind = .exclusive → r.children = 0 → r.parent = none → r.child = false → r.version ≠ 0 → here → spaceOf r.base = 6 →
        s.waitingAt r.obj = [] → returned f.1 fun t => s.sameMemory t ∧ (t.entry r.obj).kind = .idle ∧ (t.entry r.obj).scope = 6)) ∧
    (Spec.Lowest s (.bdrop g h) g i e live k l →
      (r.kind = .none → refused (.bdrop g h) 1) ∧ (r.kind ≠ .none → r.children ≠ 0 → refused (.bdrop g h) 9) ∧
      (r.kind = .exclusive → r.children = 0 → r.parent = none → r.child = false → r.version ≠ 0 → here → held.version ≠ 2 ^ 32 - 1 →
        returned (.bdrop g h) fun t => s.sameMemory t ∧ (t.entry r.obj).kind = .idle ∧ (t.entry r.obj).version = held.version + 1 ∧
          (t.entry r.obj).abandoned = held.abandoned ∧ t.mem.l1Dirty e.l1 r.obj r.version = [])) ∧
    (Spec.Lowest s (.bstat g x h) g i e live k l →
      ∃ e', exec (.bstat g x h) s = .next (s.setEngine i.eng e') ∧ e.LanesOf e' fun k l =>
        let l := if live.getLsbD k then l.setReg x (BitVec.ofNat 32 (r.status % 16 + 16 * (match r.kind with
          | .none => 0
          | .exclusive => 1
          | .shared => 2) + (if r.frozenChild || r.frozenSelf then 64 else 0) + (if r.children ≠ 0 then 128 else 0)
          + (if r.writingBack then 256 else 0))) else l
        if i.lanes.getLsbD k then l.goneOn i else l)

/-- Splits, gifts, freezes and returns of regions. -/
def Obligations.SplitsGiftsAndReturns : Prop := Spec.SplitsAndGifts ∧ Spec.Returns

/-! ## Distribution registers -/

/-- Arithmetic on the codes of f32 under rne, and the sum of weights from left to right (R173, R178). -/
def Sys2Proof.Spec.add (x y : Nat) : Nat := (fAdd .f32 (.plain .rne) x y).code
def Sys2Proof.Spec.sub (x y : Nat) : Nat := (fSub .f32 (.plain .rne) x y).code
def Sys2Proof.Spec.mul (x y : Nat) : Nat := (fMul .f32 (.plain .rne) x y).code
def Sys2Proof.Spec.div (x y : Nat) : Nat := (dDiv x y).code
def Sys2Proof.Spec.total (l : List Point) : Nat := l.foldl (fun t p => Spec.add t p.2) 0

/-- Distribution register `d` of each lane that executes the instruction becomes `v` of the lane, whose flags the lane raises. -/
def Sys2Proof.Spec.WritesDist (x : Instr) (g : Guard) (d : Nat) (v : Lane → Dist × Fx) : Prop :=
  CompletesWithFlags x g (fun _ _ _ l => (l.setDist d (v l).1, (v l).2)) id

/-- The same, where the rules give the flags only in part: `fl` never holds UF or NX (R173), and `given` says what else it holds. -/
def Sys2Proof.Spec.WritesSomeDist (x : Instr) (g : Guard) (d : Nat) (v : Lane → Dist) (given : (Lane → Fx) → Prop) : Prop :=
  ∃ fl : Lane → Fx, (∀ l, fl l &&& (Fx.uf ||| Fx.nx) = 0) ∧ given fl ∧ Spec.WritesDist x g d fun l => (v l, fl l)

/-- A register written so. -/
def Sys2Proof.Spec.WritesSome (x : Instr) (g : Guard) (d : Nat) (v : Lane → Nat) (given : (Lane → Fx) → Prop) : Prop :=
  ∃ fl : Lane → Fx, (∀ l, fl l &&& (Fx.uf ||| Fx.nx) = 0) ∧ given fl ∧ WritesFloat x g d fun _ _ _ l => ⟨v l, fl l⟩

/-- The values of a register by a function; only points whose weight is live raise flags (R173). -/
def Sys2Proof.Spec.valuesBy (f : Nat → FloatRes) (d : Dist) : Dist × Fx :=
  ({ d with pts := d.pts.map fun p => ((f p.1).code, p.2) },
    fxOr ((d.pts.filter fun p => liveWeight p.2).map fun p => (f p.1).flags &&& ~~~(Fx.uf ||| Fx.nx)))

/-- Whether the relation of `dcond` holds of a value and a bound (R182). -/
def Sys2Proof.Spec.related (rel v x : Nat) : Bool :=
  let a := FloatFmt.f32.decode v
  let b := FloatFmt.f32.decode x
  if a.isNan || b.isNan then rel == 5
  else match rel with
    | 0 => decide (Spec.rank a < Spec.rank b)
    | 1 => decide (Spec.rank a ≤ Spec.rank b)
    | 2 => decide (Spec.rank b < Spec.rank a)
    | 3 => decide (Spec.rank b ≤ Spec.rank a)
    | 4 => decide (Spec.rank a = Spec.rank b)
    | _ => decide (Spec.rank a ≠ Spec.rank b)

/-- R178: condensation keeps at most eight live points as they are, in ascending order, equal values in the order of their source; with
a NaN value it gives eight NaN points of W / 8, with an infinite mass eight NaN points of mass +∞; NV marks a bad weight. -/
def Sys2Proof.Spec.CondensationOfPoints : Prop :=
  ∀ p : List Point,
    let live := p.filter fun x => liveWeight x.2
    let c := condense p
    let key := fun (x : Point) => (FloatFmt.f32.decode x.1)
    let before := fun (x y : Point) => Spec.rank (key x) < Spec.rank (key y) ∨
      (Spec.rank (key x) = Spec.rank (key y) ∧ ((key x).isNeg = true ∨ (key y).isNeg = false))
    (∀ x ∈ p, x.1 < 2 ^ 32 ∧ x.2 < 2 ^ 32) →
      c.1.length = 8 ∧
      ((∃ x ∈ p, badWeight x.2 = true) → c.2 &&& Fx.nv = Fx.nv) ∧
      ((∃ x ∈ live, (key x).isNan = true) →
        c.1 = List.replicate 8 (0x7FC00000, Spec.div (Spec.total live) 0x41000000) ∧ c.2 &&& Fx.nv = Fx.nv) ∧
      ((∀ x ∈ live, (key x).isNan = false) → ∃ s : List Point, s.Perm live ∧ s.Pairwise before ∧
        (∀ v w1 w2, [(v, w1), (v, w2)].Sublist live → [(v, w1), (v, w2)].Sublist s) ∧
        (Spec.total s = 0x7F800000 →
          c.1 = List.replicate 8 (0x7FC00000, 0x7F800000) ∧ c.2 &&& (Fx.of ||| Fx.nv) = Fx.of ||| Fx.nv) ∧
        (Spec.total s ≠ 0x7F800000 → s.length ≤ 8 → c.1 = s ++ List.replicate (8 - s.length) (0, 0)))

/-- R35, R176, R177, R179 and R180: the binary instructions pair their points index by index where the lineages are equal and not 0, and
otherwise all with all, condensed; where the tags conflict DEP is raised, as a flag or as a trap by its enable; a quotient is rounded
once.  Each of them completes where TMODE enables no flag.  That a pairing without a live product weight raises no flag is the model's
reading (log entry 49). -/
def Sys2Proof.Spec.DistributionPairing : Prop :=
  (∀ (g : Guard) (b a d : Fin 8),
    ∀ f ∈ [(Instr.dadd g b a d, Spec.add), (.dsub g b a d, Spec.sub), (.dmul g b a d, Spec.mul), (.ddiv g b a d, Spec.div),
      (.dmin g b a d, fun x y => (fMinMax .f32 false x y).code), (.dmax g b a d, fun x y => (fMinMax .f32 true x y).code)],
      let indexWise := fun (l : Lane) => (l.dist a).lineage = (l.dist b).lineage ∧ (l.dist a).lineage ≠ 0
      let conflict := fun (l : Lane) => ¬ indexWise l ∧ Nat.land (l.dist a).tags (l.dist b).tags ≠ 0
      let pts := fun (l : Lane) (lin : Nat) =>
        if lin ≠ 0 then ((l.dist a).pts.zip (l.dist b).pts).map fun p => (f.2 p.1.1 p.2.1, p.1.2)
        else (condense ((l.dist a).pts.flatMap fun x => (l.dist b).pts.map fun y => (f.2 x.1 y.1, Spec.mul x.2 y.2))).1
      (∃ (lin : Lane → Nat) (fl : Lane → Fx),
        (∀ l, (indexWise l → lin l = (l.dist a).lineage) ∧ (¬ indexWise l → lin l = 0) ∧ fl l &&& (Fx.uf ||| Fx.nx) = 0 ∧
          (fl l &&& Fx.dep = Fx.dep ↔ conflict l)) ∧
        ∀ (s : State) i e live, s.Issues f.1 i e → e.Executes i g live →
          (e.tmode.getLsbD 5 = true → ∀ k l, live.getLsbD k = true → e.lanes.find? k = some l → ¬ conflict l) →
          s.FlagsAt i e live f.1 (fun _ _ _ l => (l.setDist d
            { pts := pts l (lin l), tags := Nat.lor (l.dist a).tags (l.dist b).tags, lineage := lin l }, fl l)) id) ∧
      ∀ (s : State) i e live k l, s.Issues f.1 i e → e.Executes i g live → e.tmode.getLsbD 5 = true → live.getLsbD k = true →
        e.lanes.find? k = some l → conflict l →
        (∀ j m, j < k → live.getLsbD j = true → e.lanes.find? j = some m → ¬ conflict m) →
        exec f.1 s = .next (s.trap { i with away := i.lanes &&& ~~~live } .dep live 0
          ((l.dist a).tags + (l.dist b).tags * 2 ^ 16))) ∧
  (∀ (g : Guard) (x : Fin 64) (b a d : Fin 8),
    Spec.WritesSomeDist (.dmix g x b a d) g d (fun l =>
      let alpha := (l.reg x).toNat
      let by_ := fun (f : Nat) (p : Point) => (p.1, Spec.mul p.2 f)
      { pts := (condense (if x = 0 then (l.dist a).pts ++ (l.dist b).pts
          else (l.dist a).pts.map (by_ alpha) ++ (l.dist b).pts.map (by_ (Spec.sub 0x3F800000 alpha)))).1
        tags := Nat.lor (l.dist a).tags (l.dist b).tags, lineage := 0 }) fun fl => ∀ l, fl l &&& Fx.dep = 0) ∧
  (∀ x y nx mx ex ny my ey, FloatFmt.f32.decode x = .num nx mx ex → FloatFmt.f32.decode y = .num ny my ey → mx ≠ 0 → my ≠ 0 →
    Spec.Rounded .f32 (.plain .rne) (nx != ny) |Spec.rat (.num nx mx ex) / Spec.rat (.num ny my ey)| (dDiv x y)) ∧
  (∀ (g : Guard) (x : Fin 64) (b a d : Fin 8), ∀ y ∈ [Instr.dadd g b a d, .dsub g b a d, .dmul g b a d, .ddiv g b a d, .dmin g b a d,
      .dmax g b a d, .dmix g x b a d],
    ∀ s i e, s.Issues y i e → e.tmode = 0 → ∃ e', exec y s = .next (s.setEngine i.eng e'))

/-- Binary instructions on distributions, and condensation. -/
def Obligations.DistributionArithmetic : Prop := Spec.CondensationOfPoints ∧ Spec.DistributionPairing

/-- R35, R181 to R185: the unary instructions and those that form distributions; each of them completes where TMODE enables no flag. -/
def Obligations.DistributionValues : Prop :=
  ∀ (g : Guard) (x : Fin 64) (a d : Fin 8),
    let c := fun (l : Lane) => (l.reg x).toNat
    Spec.WritesDist (.dscale g x a d) g d (fun l => Spec.valuesBy (fun v => fMul .f32 (.plain .rne) v (c l)) (l.dist a)) ∧
    Spec.WritesDist (.dshift g x a d) g d (fun l => Spec.valuesBy (fun v => fAdd .f32 (.plain .rne) v (c l)) (l.dist a)) ∧
    (∀ f ∈ [((0 : Fin 8), sfuExp2), (1, sfuLog2), (2, sfuSqrt (.plain .rne)), (3, sfuRcp (.plain .rne)), (4, sfuTanh),
        (5, fun v => ⟨v % 2 ^ 31, Fx.none⟩), (6, fun v => fMul .f32 (.plain .rne) v v), (7, fun v => fMinMax .f32 true v 0)],
      Spec.WritesDist (.dmap g f.1 a d) g d fun l => Spec.valuesBy f.2 (l.dist a)) ∧
    Spec.WritesDist (.dneg g a d) g d (fun l => ({ l.dist a with pts := (l.dist a).pts.map fun p => (Nat.xor p.1 (2 ^ 31), p.2) }, 0)) ∧
    Spec.WritesDist (.dmov g a d) g d (fun l => (l.dist a, 0)) ∧
    (∀ rel : Fin 8, Spec.WritesDist (.dcond g rel x a d) g d fun l =>
      ({ l.dist a with pts := (l.dist a).pts.map fun p => (p.1, if Spec.related rel p.1 (c l) then p.2 else 0) }, 0)) ∧
    Spec.WritesDist (.dtag g 0 x a d) g d (fun l =>
      ({ l.dist a with tags := c l % 2 ^ 16, lineage := c l / 2 ^ 16 % 2 ^ 8 }, 0)) ∧
    Spec.WritesDist (.dtag g 1 x a d) g d (fun l => ({ l.dist a with tags := Nat.lor (l.dist a).tags (c l % 2 ^ 16) }, 0)) ∧
    Spec.WritesSomeDist (.dnorm g a d) g d (fun l =>
      let w := Spec.total ((l.dist a).pts.filter fun p => liveWeight p.2)
      if w = 0 then l.dist a
      else { l.dist a with pts := (l.dist a).pts.map fun p => (p.1, if liveWeight p.2 then Spec.div p.2 w else 0) })
      (fun fl => ∀ l, ((∃ p ∈ (l.dist a).pts, badWeight p.2 = true) ∨ (∀ p ∈ (l.dist a).pts, liveWeight p.2 = false) →
        fl l &&& Fx.nv = Fx.nv)) ∧
    Spec.WritesDist (.dsrc g x d) g d (fun l =>
      ({ pts := (c l, 0x3F800000) :: List.replicate 7 (0, 0), tags := 0, lineage := 0 }, 0)) ∧
    (∀ f ∈ [(Instr.dpush g x d, fun (_ : Lane) => (0x3F800000 : Nat)), (.dpushw g x d, fun l => (l.reg (x + 1)).toNat)],
      Spec.WritesSomeDist f.1 g d (fun l =>
        { pts := (condense ((l.dist d).pts ++ [(c l, f.2 l)])).1, tags := (l.dist d).tags, lineage := 0 })
        fun fl => ∀ l, fl l = (condense ((l.dist d).pts ++ [(c l, f.2 l)])).2 &&& ~~~(Fx.uf ||| Fx.nx)) ∧
    (∀ (op rel : Fin 8) (m : Fin 2), ∀ y ∈ [Instr.dscale g x a d, .dshift g x a d, .dmap g op a d, .dneg g a d, .dmov g a d, .dcond g rel x a d,
        .dtag g m x a d, .dnorm g a d, .dsrc g x d, .dpush g x d, .dpushw g x d],
      ∀ s i e, s.Issues y i e → e.tmode = 0 → ∃ e', exec y s = .next (s.setEngine i.eng e'))

/-- R35, R187 to R189: selection, mass, moments, quantiles and the other extractions write one register; each of them completes where TMODE
enables no flag.  That the moments form W with its flags is the model's reading (log entry 50). -/
def Obligations.DistributionExtraction : Prop :=
  ∀ (g : Guard) (x : Fin 64) (a : Fin 8),
    let pts := fun (l : Lane) => (l.dist a).pts
    let live := fun (l : Lane) => (pts l).filter fun p => liveWeight p.2
    let w := fun (l : Lane) => Spec.total (live l)
    let c := fun (l : Lane) => (l.reg x).toNat
    let nan : Nat := 0x7FC00000
    let mean := fun (f : Point → Nat) (l : Lane) =>
      Spec.div ((live l).foldl (fun t p => Spec.add t (Spec.mul p.2 (f p))) 0) (w l)
    let mu := mean Prod.fst
    let dev := fun (l : Lane) (p : Point) => Spec.sub p.1 (mu l)
    let sorted := fun (l : Lane) => sortPoints (live l)
    let none_ := fun (l : Lane) => (live l).isEmpty || (live l).any fun p => (FloatFmt.f32.decode p.1).isNan
    let le := fun (p q : Nat) => !(FloatFmt.f32.decode p).isNan && !(FloatFmt.f32.decode q).isNan &&
      decide (Spec.rank (FloatFmt.f32.decode p) ≤ Spec.rank (FloatFmt.f32.decode q))
    let moment := fun (i : Instr) (v : Lane → Nat) =>
      Spec.WritesSome i g x (fun l => if w l = 0 then nan else v l) fun fl => ∀ l, w l = 0 → fl l &&& Fx.nv = Fx.nv
    let extract := fun (i : Instr) (bad : Lane → Bool) (v : Lane → Nat) =>
      Spec.WritesSome i g x (fun l => if none_ l || bad l then nan else v l) fun fl => ∀ l, none_ l || bad l → fl l &&& Fx.nv = Fx.nv
    (∀ k : Fin 8, WritesReg (.dselV g k x a) g x (fun l => BitVec.ofNat 32 ((pts l).getD k (0, 0)).1) ∧
      WritesReg (.dselW g k x a) g x (fun l => BitVec.ofNat 32 ((pts l).getD k (0, 0)).2)) ∧
    Spec.WritesSome (.dmass g x a) g x w (fun fl => ∀ l, (∃ p ∈ pts l, badWeight p.2 = true) → fl l &&& Fx.nv = Fx.nv) ∧
    moment (.dmom1 g x a) mu ∧
    moment (.dmom2c g x a) (fun l => mean (fun p => Spec.mul (dev l p) (dev l p)) l) ∧
    moment (.dmom3c g x a) (fun l => mean (fun p => Spec.mul (Spec.mul (dev l p) (dev l p)) (dev l p)) l) ∧
    moment (.dmom4c g x a) (fun l => mean (fun p => Spec.mul (Spec.mul (Spec.mul (dev l p) (dev l p)) (dev l p)) (dev l p)) l) ∧
    extract (.dqnt g x a) (fun l => (FloatFmt.f32.decode (c l)).isNan) (fun l =>
      let reached := fun n => le (Spec.mul (c l) (w l)) (Spec.total ((sorted l).take (n + 1)))
      (((List.range (sorted l).length).find? reached).bind fun n => (sorted l)[n]?.map Prod.fst).getD ((sorted l).getLastD (0, 0)).1) ∧
    extract (.dcdf g x a) (fun l => (FloatFmt.f32.decode (c l)).isNan) (fun l =>
      Spec.total ((sorted l).filter fun p => le p.1 (c l))) ∧
    extract (.dlo g x a) (fun _ => false) (fun l => ((sorted l).headD (0, 0)).1) ∧
    extract (.dhi g x a) (fun _ => false) (fun l => ((sorted l).getLastD (0, 0)).1) ∧
    (∀ k : Fin 8, ∀ y ∈ [Instr.dselV g k x a, .dselW g k x a, .dmass g x a, .dmom1 g x a, .dmom2c g x a, .dmom3c g x a, .dmom4c g x a,
        .dqnt g x a, .dcdf g x a, .dlo g x a, .dhi g x a],
      ∀ s i e, s.Issues y i e → e.tmode = 0 → ∃ e', exec y s = .next (s.setEngine i.eng e'))

/-- The image of a distribution register (R172). -/
def Sys2Proof.Spec.imageByte (d : Dist) (j : Nat) : Byte :=
  let p := d.pts.getD (j / 8) (0, 0)
  if j < 0x40 then BitVec.ofNat 8 ((if j % 8 < 4 then p.1 else p.2) / 256 ^ (j % 4))
  else if j < 0x42 then BitVec.ofNat 8 (d.tags / 256 ^ (j % 2)) else if j = 0x42 then BitVec.ofNat 8 d.lineage else 0

/-- R172 and R186: `dld` takes the image at each lane's address where its core serves it, and otherwise asks for it at its home; `dst` enters each lane's image into the store
buffer as one beat, with zeros in its reserved bytes; a region in space 0x6 raises REFUSE, REASON 1. -/
def Obligations.DistributionMemory : Prop :=
  ∀ (g : Guard) (n : Fin 2) (x : Fin 64) (h d : Fin 8),
    let hk := 8 * n.val + h.val
    let addr := fun (r : Region) (l : Lane) => r.base + Spec.index x l
    (∀ s i e live, s.Issues (.dld g n x h d) i e → e.Executes i g live → live ≠ 0 →
      let r := e.region hk
      Spec.Allowed s e r .load 128 live (addr r) → spaceOf r.base ≠ 4 → spaceOf r.base ≠ 6 → s.repair.reads = [] →
      (∀ k l, live.getLsbD k = true → e.lanes.find? k = some l → ∃ loc p, resolve s (e.asker k) (s.scratchOf e) .load (addr r l) =
        .at_ loc 0 p ∧ loc < 2 ^ 63 ∧ s.unreachable loc = false ∧ s.poisonAt loc 128 = none) →
      ∃ t e', exec (.dld g n x h d) s = .next t ∧ t.engine i.eng = some e' ∧ (∀ j, j ≠ i.eng → t.engine j = s.engine j) ∧
        s.sameMemory t ∧
        (∀ k l, live.getLsbD k = true → e.lanes.find? k = some l → ∃ loc p l',
          resolve s (e.asker k) (s.scratchOf e) .load (addr r l) = .at_ loc 0 p ∧ e'.lanes.find? k = some l' ∧
          (s.loadsHere i.eng e r.obj r.version ⟨k, addr r l, loc⟩ = true → ∀ j, j < 0x43 → Spec.imageByte (l'.dist d) j =
            (s.loadBytes e r.obj r.version (spaceOf r.base) loc 128).getD j 0) ∧
          (s.loadsHere i.eng e r.obj r.version ⟨k, addr r l, loc⟩ = false → l'.dist d = l.dist d ∧
            ∃ id q src, t.mem.mesh.find? id = some q ∧ q.eng = i.eng ∧ q.dest = d ∧ q.home = homeOf s e.place.die loc ∧
              { lane := k, addr := addr r l, loc, op := .load 7 false src, value := none, done := false } ∈ q.parts ∧
              src.obj = r.obj ∧ src.version = r.version ∧ src.given = s.supplied e r.obj r.version (spaceOf r.base) loc 128 ∧
              ∃ y ∈ e'.sb, y.key = .reg .d d ∧ y.tag = q.wait ∧ y.due = none) ∧
          (∀ m, m ≠ d.val → l'.dist m = l.dist m) ∧ l'.pc = i.pc + BitVec.ofNat 32 i.len ∧ l'.regs = l.regs ∧ l'.preds = l.preds ∧
          l'.fx = l.fx ∧ l'.status = l.status) ∧
        (∀ k, live.getLsbD k = false →
          e'.lanes.find? k = (e.lanes.find? k).map fun l => if i.lanes.getLsbD k then l.goneOn i else l)) ∧
    (∀ s i e live, s.Issues (.dst g n x h d) i e → e.Executes i g live → live ≠ 0 →
      let r := e.region hk
      let at_ := fun (k : Nat) (l : Lane) (loc : Nat) => ∃ m p, resolve s (e.asker k) (s.scratchOf e) .store (addr r l) = .at_ loc m p
      Spec.Allowed s e r .store 128 live (addr r) → spaceOf r.base ≠ 4 → spaceOf r.base ≠ 6 →
      (∀ k l, live.getLsbD k = true → e.lanes.find? k = some l → ∃ loc, at_ k l loc) →
      (∀ k l loc k' l' loc' m, live.getLsbD k = true → e.lanes.find? k = some l → at_ k l loc → live.getLsbD k' = true →
        e.lanes.find? k' = some l' → at_ k' l' loc' → addr r l ≠ addr r l' →
        ¬ (loc ≤ m ∧ m < loc + 128 ∧ loc' ≤ m ∧ m < loc' + 128)) →
      e.beats.length + e.draining.length ≤ 192 →
        ∃ t e', exec (.dst g n x h d) s = .next t ∧ t.engine i.eng = some e' ∧ (∀ j, j ≠ i.eng → t.engine j = s.engine j) ∧
          s.sameMemory t ∧ e'.draining = e.draining ∧
          (∃ new, e'.beats = e.beats ++ new ∧ new.map Beat.addr = (e.lanesOf live).map fun p => addr r p.2) ∧
          (∀ k l loc j, live.getLsbD k = true → e.lanes.find? k = some l → at_ k l loc → j < 128 →
            (∀ k' l', k < k' → live.getLsbD k' = true → e.lanes.find? k' = some l' → addr r l' ≠ addr r l) →
            e'.forwarded (loc + j) = some (Spec.imageByte (l.dist d) j)) ∧
          (∀ m, (∀ k l loc, live.getLsbD k = true → e.lanes.find? k = some l → at_ k l loc → ¬ (loc ≤ m ∧ m < loc + 128)) →
            e'.forwarded m = e.forwarded m) ∧
          (∀ k, ∃ p, e'.lanes.find? k = (e.lanes.find? k).map fun l =>
            if i.lanes.getLsbD k then { l.goneOn i with lastPage := p } else l)) ∧
    (∀ instr ∈ [Instr.dld g n x h d, .dst g n x h d], ∀ s i e live k l, s.Issues instr i e → e.Executes i g live →
      live.getLsbD k = true → (∀ j, j < k → live.getLsbD j = false) → e.lanes.find? k = some l → spaceOf (e.region hk).base = 6 →
      exec instr s = .next (s.refuse { i with away := i.lanes &&& ~~~live } live (addr (e.region hk) l) 1 0 k))

/-! ## Copies, the tensor table and layers -/

/-- The lanes of an instruction sleep at it until a wait of a kind ends; the lanes whose guard is false go on. -/
def Sys2Proof.Spec.Sleeps (s u : State) (i : Issue) (e : Engine) (live : Dword) (commit : Bool) (kind : WaitKind) : Prop :=
  s.sameMemory u ∧ ∃ w e', w ∈ u.work.waits ∧ w.eng = i.eng ∧ w.lanes = live ∧ w.pc = i.pc ∧ w.insn = i.insn ∧ w.len = i.len ∧
    w.commit = commit ∧ w.kind = kind ∧ u.engine i.eng = some e' ∧ e'.regions = e.regions ∧
    ∀ k, e'.lanes.find? k = (e.lanes.find? k).map fun l =>
      if live.getLsbD k then { l with status := .sleeping w.id, issued := l.issued || !commit }
      else if i.lanes.getLsbD k then l.goneOn i else l

/-- The lanes of a wait go on behind its instruction with `f` of themselves, and the wait is gone. -/
def Sys2Proof.Spec.Woken (s t : State) (w : Wait) (f : Lane → Lane) : Prop :=
  (∀ x ∈ t.work.waits, x.id ≠ w.id) ∧ ∀ e, s.engine w.eng = some e → ∃ e', t.engine w.eng = some e' ∧
    ∀ k l, w.lanes.getLsbD k = true → e.lanes.find? k = some l → l.status = .sleeping w.id →
      e'.lanes.find? k = some (
        let l := { f l with pc := w.pc + BitVec.ofNat 32 w.len }
        let l := if w.commit then { l with restart := l.pc, issued := false } else { l with issued := true }
        if l.status = .sleeping w.id then { l with status := .ready } else l)

/-- A copy enters its engine's queue: it takes the earliest unreserved cycles from 16 after its issue on, one for each 4,096 bytes, as far apart
as the rate of its path asks, and is promised for the cycle after the last (R302, R303).  The rates are the model's reading of R417 and R303
(log entry 43). -/
def Sys2Proof.Spec.CopyAccepted (s u : State) (q : Copy) (cluster eng dest : Nat) : Prop :=
  let reserved := Store.get [] s.work.slots cluster
  q ∈ u.work.copies ∧ q.eng = eng ∧ q.cluster = cluster ∧ q.destReg = dest ∧ q.moved = 0 ∧
  q.slots.length = (q.bytes + 4095) / 4096 ∧ q.slots.Pairwise (fun a b => a + pathPace q.moves ≤ b) ∧
  (∀ t ∈ q.slots, s.clock.cyc + 16 ≤ t ∧ t ∉ reserved) ∧
  (pathPace q.moves = 1 → ∀ t, s.clock.cyc + 16 ≤ t → (∃ t' ∈ q.slots, t < t') → t ∈ reserved ∨ t ∈ q.slots) ∧
  q.promise = (match q.slots.getLast? with
    | some t => t + 1
    | none => s.clock.cyc + 16) ∧
  u.work.lastCopy.find? (16 * eng + dest) = some q.id ∧
  (q.shadow = false → q.status = .inFlight) ∧
  (q.shadow = true →
    let x := s.entry q.dest.obj
    let c := s.context x.ctx
    let poor := x.shadow = false ∧ c.voilelen / 65536 < c.frames + x.voileFrames
    (poor → q.status = .failed) ∧ (¬ poor → q.status = .inFlight ∧ (u.entry q.dest.obj).shadow = true))

/-- R164, R165, R260, R268 and R302: the checks of a copy, in order; a copy that passes them is queued and its promise goes to the pair of gN; a
`copy.shadow` that would begin a new shadow waits while a retired version stands. -/
def Sys2Proof.Spec.Copies : Prop :=
  ∀ (g : Guard) (k : Fin 8) (x : Fin 64) (hs hd : Fin 16) (s : State) (i : Issue) (e : Engine) (live : Dword) (n : Nat) (l : Lane),
    ∀ f ∈ [(Instr.copy g k x hs hd, false), (.copyShadow g k x hs hd, true)], Spec.Lowest s f.1 g i e live n l →
      let j := { i with away := i.lanes &&& ~~~live }
      let src := e.region hs
      let dst := e.region hd
      let c := (l.reg x).toNat
      let a := s.tensor e.ctx (c % 65536)
      let b := s.tensor e.ctx (c / 65536)
      let refused := fun (reason : Nat) => exec f.1 s = .next (s.trap j .refuse live dst.base (reason * 2 ^ 24))
      let apt := src.kind ≠ .none ∧ (f.2 = false → dst.kind = .exclusive) ∧ (f.2 = true → s.wholeObject dst = true)
      let stopped := src.kind ≠ .none ∧ dst.kind ≠ .none ∧
        (src.frozenChild = true ∨ src.frozenSelf = true ∨ dst.frozenChild = true ∨ dst.frozenSelf = true)
      let frozen := stopped ∨ (f.2 = false ∧ dst.readOnly = true)
      let sound := k = 0 ∨ (a.useDetail = none ∧ b.useDetail = none)
      let inside := fun (r : TRec) (h : Region) => h.base ≤ r.base ∧ r.base + r.span ≤ h.base + h.extent
      let fits := (k = 0 → c ≤ src.extent ∧ c ≤ dst.extent) ∧ (k ≠ 0 → inside a src ∧ inside b dst)
      let same := src.obj = dst.obj ∧ objPkg src.base = objPkg dst.base ∧ spaceOf src.base = spaceOf dst.base
      let meets := fun (p m q n : Nat) => p < q + n ∧ q < p + m
      let clash := (k = 0 ∧ same ∧ meets src.base c dst.base c) ∨
        (k ≠ 0 ∧ ((same ∧ meets a.base a.span b.base b.span) ∨ a.fmt ≠ b.fmt ∨ a.rank ≠ b.rank ∨ a.ext ≠ b.ext))
      let moves := if k = 0 then (if c = 0 then [] else [(src.base, dst.base, c)]) else tensorMoves a b
      (stopped → refused 3) ∧
      (¬ stopped → ¬ apt → refused 1) ∧
      (apt → frozen → refused 3) ∧
      (apt → ¬ frozen → k ≠ 0 → ∀ m, a.useDetail = some m → exec f.1 s = .next (s.trap j .format live a.base m)) ∧
      (apt → ¬ frozen → k ≠ 0 → a.useDetail = none → ∀ m, b.useDetail = some m →
        exec f.1 s = .next (s.trap j .format live b.base m)) ∧
      (apt → ¬ frozen → sound → ¬ fits → refused 2) ∧
      (apt → ¬ frozen → sound → fits → clash → refused 8) ∧
      (apt → ¬ frozen → sound → fits → ¬ clash → s.tilesBusy dst.base dst.extent = false →
        (f.2 = true → (s.entry dst.obj).shadow = true ∨ (s.entry dst.obj).retired = 0) →
        ∃ u q e', exec f.1 s = .next u ∧ s.sameMemory u ∧ Spec.CopyAccepted s u q e.place.clusterId i.eng hd ∧ q.src = src ∧ q.dest = dst ∧
          q.shadow = f.2 ∧ q.moves = moves ∧ q.bytes = (moves.map fun m => m.2.2).sum ∧ u.engine i.eng = some e' ∧
          e'.regions = e.regions ∧ ∀ k, e'.lanes.find? k = (e.lanes.find? k).map fun l =>
            if live.getLsbD k then (Spec.committed i live k l).setPair x (BitVec.ofNat 64 q.promise) else Spec.committed i live k l) ∧
      (apt → ¬ frozen → sound → fits → ¬ clash → f.2 = true → (s.entry dst.obj).shadow = false → (s.entry dst.obj).retired ≠ 0 →
        ∃ u q, exec f.1 s = .next u ∧ Spec.Sleeps s u i e live true (.shadow q x) ∧ q.moves = moves ∧ q.dest = dst)

/-- An object's shadow becomes its current version, and the publishing region's version follows; the bytes of pages that are absent stand
ready for them (R166, R269). -/
def Sys2Proof.Spec.Published (s u : State) (eng h obj : Nat) : Prop :=
  let x := s.entry obj
  let y := u.entry obj
  y.version = nextVersion x.version ∧ y.holders = 1 ∧ y.shadow = false ∧ y.rholders = x.holders - 1 ∧
  y.retired = (if x.holders ≤ 1 then 0 else x.version) ∧ y.kind = .shared ∧
  (∀ e, s.engine eng = some e → ∃ e', u.engine eng = some e' ∧ e'.region h = { e.region h with version := y.version }) ∧
  (s.xlat.migrations = [] → ((s.objectLocs x).map Prod.snd).Nodup → (∀ p ∈ s.objectLocs x, 2 ^ 21 ≤ p.2 ∧ p.2 < 2 ^ 63) →
    (∀ o n, (o, n) ∈ s.objectLocs x → u.readHome n = match x.shadowFrames.find? o with
      | some (some b) => b
      | _ => 0) ∧
    ∀ n, n < 2 ^ 63 → n ∉ (s.objectLocs x).map Prod.snd → u.readHome n = s.readHome n) ∧
  ∀ o, o < x.span → o ∉ (s.objectLocs x).map Prod.fst → y.late.find? o = some ((x.shadowFrames.find? o).getD (some 0))

/-- R166, R167, R269 and R304: `publish` waits for exclusive holders and for the copies into its shadow, and then makes it the current
version; `cpwait` waits for its cycle and raises PROMISE where a copy promised by then is not complete; `cpstat` and `cpcancel` concern
the gang's latest copy into a region. -/
def Sys2Proof.Spec.PublishesAndPromises : Prop :=
  ∀ (g : Guard) (x : Fin 64) (h : Fin 16) (s : State) (i : Issue) (e : Engine) (live : Dword) (n : Nat) (l : Lane),
    let j := { i with away := i.lanes &&& ~~~live }
    let r := e.region h
    let ready := (s.entry r.obj).kind ≠ .excl ∧ ∀ c ∈ s.work.copies, c.shadow = true → c.dest.obj = r.obj → c.status.code ≠ 1
    let pending := r.kind = .shared ∧ objPkg r.base = none ∧ r.version ≠ 0 ∧ (s.entry r.obj).shadow = true
    let due := fun (eng t : Nat) (c : Copy) => c ∈ s.work.copies ∧ c.eng = eng ∧ c.promise ≤ t ∧ (c.status.code = 1 ∨ c.status.code = 2)
    let first := fun (eng t : Nat) (c : Copy) => due eng t c ∧ ∀ c', due eng t c' → c' = c ∨ c.promise < c'.promise
    let left := fun (c : Copy) => c.status.code * 2 ^ 28 + min (c.bytes - c.moved) 0x0FFFFFFF
    let last := (s.work.lastCopy.find? (16 * i.eng + h)).bind fun id => s.work.copies.find? fun c => c.id == id
    (Spec.Lowest s (.publish g h) g i e live n l →
      (¬ pending → exec (.publish g h) s = .next (s.refuse j live r.base 1 0 0)) ∧
      (pending → ready → ∃ u e', exec (.publish g h) s = .next u ∧ Spec.Published s u i.eng h r.obj ∧ u.engine i.eng = some e' ∧
        (∀ m : Nat, m ≠ h → e'.region m = e.region m) ∧ ∀ k, e'.lanes.find? k = (e.lanes.find? k).map (Spec.committed i live k)) ∧
      (pending → ¬ ready → ∃ u, exec (.publish g h) s = .next u ∧ Spec.Sleeps s u i e live true (.publish h))) ∧
    (∀ w m obj, s.publishDue = some (w, m, obj) → (s.entry obj).shadow = true → ∃ t u, exec .publishPerform s = .next t ∧
      Spec.Published s u w.eng m obj ∧ Spec.Woken u t w id ∧ t.entry obj = u.entry obj ∧ t.mem = u.mem) ∧
    (Spec.Lowest s (.cpwait g x) g i e live n l →
      let t := (l.pair x).toNat
      (s.clock.cyc < t → ∃ u, exec (.cpwait g x) s = .next u ∧ Spec.Sleeps s u i e live false (.copies t)) ∧
      (t ≤ s.clock.cyc → (∀ c, ¬ due i.eng t c) → ∃ e', exec (.cpwait g x) s = .next (s.setEngine i.eng e') ∧
        e.LanesOf e' fun k l => if i.lanes.getLsbD k then l.goneOn i else l) ∧
      (t ≤ s.clock.cyc → ∀ c, first i.eng t c → ∃ at_,
        exec (.cpwait g x) s = .next (s.trap j .promise live at_ (left c)) ∧
        (∀ a b m, c.moves = [(a, b, m)] → c.moved < c.bytes → c.bytes = m → at_ = b + c.moved))) ∧
    (∀ w t, s.cpwaitDue = some (w, t) →
      ((∀ c, ¬ due w.eng t c) → ∃ u, exec .cpwaitWake s = .next u ∧ s.sameMemory u ∧ Spec.Woken s u w id) ∧
      (∀ c, first w.eng t c → ∃ at_, exec .cpwaitWake s = .next (s.raiseWait w .promise at_ (left c)))) ∧
    (s.Issues (.cpstat g x h) i e → e.Executes i g live → ∃ e', exec (.cpstat g x h) s = .next (s.setEngine i.eng e') ∧
      e.LanesOf e' fun k l => let l := if live.getLsbD k then l.setReg x (match last.map Copy.status with
          | some .complete => 0
          | some .inFlight => 1
          | some .stalled => 1
          | some .failed => 2
          | some .cancelled => 3
          | none => 4) else l
        if i.lanes.getLsbD k then l.goneOn i else l) ∧
    (Spec.Lowest s (.cpcancel g h) g i e live n l → ∃ t e', exec (.cpcancel g h) s = .next t ∧ s.sameMemory t ∧ t.engine i.eng = some e' ∧
      e.LanesOf e' (fun k l => if i.lanes.getLsbD k then l.goneOn i else l) ∧
      (∀ c, last = some c → c.status.code = 1 → (∀ q ∈ t.work.copies, q.id = c.id → q.status = .cancelled) ∧
        (c.shadow = true → (s.entry c.dest.obj).shadow = true → (t.entry c.dest.obj).shadow = false)) ∧
      ((∀ c, last = some c → c.status.code ≠ 1) → t = s.setEngine i.eng e'))

/-- R165, R269, R288, R302 and R303: a copy moves 4,096 bytes in each of its slots, without cutting an aligned word of its destination, takes
other slots for the rest after a poisoned line, releases its slots where something is not at hand,
resumes in unreserved ones, and is complete after its last, or failed where a line was poisoned. -/
def Sys2Proof.Spec.CopiesMove : Prop :=
  ∀ s : State,
    (∀ c, s.copyDue = some c →
      let e := s.copyEngine c
      let becomes := fun (q : Copy) => ∃ t, exec .copyComplete s = .next t ∧ q ∈ t.work.copies ∧
        ∀ x ∈ s.work.copies, x.id ≠ c.id → x ∈ t.work.copies
      (∀ a r, c.status = .inFlight → c.slots = a :: r → s.copyBlocked e c = false → ∃ bad finish slots,
        becomes { c with moved := c.reach, slots, finish, bad } ∧ slots.length = r.length ∧ (c.bad = true → bad = true) ∧
        (bad = false → slots = r)) ∧
      (∀ a b, c.moves = [(a, b, c.bytes)] → b % 4 = 0 → c.moved % 4096 = 0 → c.reach = min (c.moved + 4096) c.bytes) ∧
      (∀ a r, c.status = .inFlight → c.slots = a :: r → s.copyBlocked e c = true → becomes { c with status := .stalled, slots := [] }) ∧
      (c.status = .inFlight → c.slots = [] → becomes { c with status := if c.bad then .failed else .complete }) ∧
      (c.status = .stalled → ∃ slots, slots.length = (c.bytes + 4095) / 4096 - (c.moved + 3) / 4096 ∧ (∀ t ∈ slots, s.clock.cyc ≤ t) ∧
        becomes { c with status := .inFlight, slots }) ∧
      (∀ a b n, c.status = .inFlight → c.slots ≠ [] → c.shadow = false → s.copyBlocked e c = false → c.nextPieces = [(a, b, n)] →
        s.xlat.migrations = [] → s.enginePoison e c.data a = false →
        ∀ loc : Nat → Nat, (∀ m, m < n → s.lineNeed e true [] (b + m) = .ready (loc m) ∧ 2 ^ 21 ≤ loc m ∧ loc m < 2 ^ 60) →
        (∀ m m', m < n → m' < n → loc m = loc m' → m = m') → spaceOf b ≠ 4 →
        ∃ t, exec .copyComplete s = .next t ∧
          (∀ m, m < n → t.readHome (loc m) = s.engineByte e (c.src.obj, c.src.version) c.data (a + m)) ∧
          ∀ y, y < 2 ^ 63 → (∀ m, m < n → y ≠ loc m) → t.readHome y = s.readHome y)) ∧
    (∀ w c x, s.copyDue = none → s.shadowDue = some (w, c, x) → ∃ t u q, exec .copyComplete s = .next t ∧
      s.sameMemory t ∧ q ∈ t.work.copies ∧ q.moves = c.moves ∧ q.dest = c.dest ∧
      u.work.engines = s.work.engines ∧ Spec.Woken u t w fun l => l.setPair x (BitVec.ofNat 64 q.promise))

/-- Copies, publishes and promises. -/
def Obligations.CopiesAndPublishes : Prop := Spec.Copies ∧ Spec.PublishesAndPromises ∧ Spec.CopiesMove

/-- R209 to R211: the tensor-table instructions: their lanes wait 132 cycles for a write, which changes the named words of the record and
nothing else of the table; `tget` reads a word; `tchk` writes 0 or the footprint's length. -/
def Sys2Proof.Spec.TensorTable : Prop :=
  ∀ (g : Guard) (b a d : Fin 64) (s : State) (i : Issue) (e : Engine) (live : Dword) (n : Nat) (l : Lane),
    let j := { i with away := i.lanes &&& ~~~live }
    let t := (l.reg a).toNat % 4096
    let w := (l.reg a).toNat / 65536 % 32
    let rec_ := s.tensor e.ctx t
    let old := s.tensorBytes e.ctx t
    let writes := fun (instr : Instr) (cells : List Host.Cell) =>
      ∃ u, exec instr s = .next u ∧ u.ctxs = s.ctxs ∧ Spec.Sleeps s u i e live false (.tensorWrite (s.clock.cyc + 132) cells)
    let put := fun (instr : Instr) (v : Word) => ∃ e', exec instr s = .next (s.setEngine i.eng e') ∧
      e.LanesOf e' fun k l => let l := if live.getLsbD k then l.setReg d v else l
        if i.lanes.getLsbD k then l.goneOn i else l
    let r := e.region b
    (Spec.Lowest s (.tset g b a) g i e live n l →
      let v := leBytes 4 (l.reg b).toNat
      let base := if w = 0 then leValue (v ++ (old.take 8).drop 4) else leValue (old.take 4 ++ v)
      let denied := w < 2 ∧ spaceOf base = 15 ∧ s.privileged e = false
      (denied → exec (.tset g b a) s = .next (s.trap j .priv live base 0)) ∧
      (¬ denied → writes (.tset g b a) (cellsAt (128 * t + 4 * w) v))) ∧
    (Spec.Lowest s (.tget g a d) g i e live n l →
      put (.tget g a d) (BitVec.ofNat 32 (leValue ((List.range 4).map fun m => old.getD (4 * w + m) 0)))) ∧
    (Spec.Lowest s (.tbind g b a) g i e live n l →
      (r.kind = .none → exec (.tbind g b a) s = .next (s.refuse j live r.base 1 0 0)) ∧
      (r.kind ≠ .none → spaceOf r.base = 15 → s.privileged e = false → exec (.tbind g b a) s = .next (s.trap j .priv live r.base 0)) ∧
      (r.kind ≠ .none → (spaceOf r.base = 15 → s.privileged e = true) → writes (.tbind g b a)
        (cellsAt (128 * t) (leBytes 8 r.base) ++ cellsAt (128 * t + 24) (leBytes 4 r.obj) ++
          cellsAt (128 * t + 30) (leBytes 2 (Nat.lor rec_.flags 3))))) ∧
    (Spec.Lowest s (.tdrop g a) g i e live n l → writes (.tdrop g a) (cellsAt (128 * t + 30) (leBytes 2 (rec_.flags / 2 * 2)))) ∧
    (Spec.Lowest s (.tchk g a d) g i e live n l →
      (rec_.valid = false → put (.tchk g a d) 0) ∧
      (∀ m, rec_.valid = true → rec_.malformed = some m → exec (.tchk g a d) s = .next (s.trap j .format live rec_.base m)) ∧
      (rec_.valid = true → rec_.malformed = none → put (.tchk g a d) (BitVec.ofNat 32 (min rec_.span 0xFFFFFFFF)))) ∧
    (∀ w cells e', s.ttabDue = some (w, cells) → s.engine w.eng = some e' → (s.ctxs.table.find? e'.ctx).isSome = true →
      (cells.map Prod.fst).Nodup →
      ∃ u, exec .ttabWriteComplete s = .next u ∧ s.sameMemory u ∧ Spec.Woken s u w id ∧
        (∀ m v, (m, v) ∈ cells → Store.get (0 : Byte) (u.context e'.ctx).tensors m = v) ∧
        ∀ m, m ∉ cells.map Prod.fst → Store.get (0 : Byte) (u.context e'.ctx).tensors m = Store.get 0 (s.context e'.ctx).tensors m)

/-- R212 to R216: the LAYER instructions: their refusals, a borrow of a resident layer, the demand for one that is not, SWAP for a failed
one, the word of `lstat`, pins, prefetches, returns and second swap-ins.  The class that `lstat` shows after `lret` is the model's choice
(log entry 51). -/
def Sys2Proof.Spec.Layers : Prop :=
  ∀ (g : Guard) (b a d : Fin 64) (s : State) (i : Issue) (e : Engine) (live : Dword) (n : Nat) (l : Lane),
    let j := { i with away := i.lanes &&& ~~~live }
    let c := s.context e.ctx
    let num := (l.reg a).toNat % 1024
    let obj := (l.reg a).toNat / 1024 % 16
    let goes := fun (t : State) (f : Lane → Lane) => ∃ e', t.engine i.eng = some e' ∧ e'.regions = e.regions ∧
      ∀ k, e'.lanes.find? k = (e.lanes.find? k).map fun l =>
        let l := if live.getLsbD k then f l else l
        if i.lanes.getLsbD k then l.goneOn i else l
    let refused := fun (instr : Instr) (status : Nat) => exec instr s = .next (s.refuse j live 0 6 status 0)
    let fresh := ∀ w ∈ s.work.waits, w.id < s.nextId
    let queued := fun (x : Layer) => x.state = 0 ∧ x.failed = none ∧ num ∉ c.demand ∧ num ∉ c.prefetch
    (∀ instr ∈ [Instr.lbrw g a d, .lstat g a d, .lretry g a d, .lpin g a, .lunpin g a], Spec.Lowest s instr g i e live n l →
      (c.model = false → refused instr 5) ∧ (c.model = true → c.layers.length ≤ num → refused instr 7)) ∧
    ∀ x, c.model = true → c.layers[num]? = some x →
      (Spec.Lowest s (.lbrw g a d) g i e live n l →
        let open_ := obj < x.objs.length ∧ (e.region d).kind = .none ∧ s.judgeLayer e x.objs = .ok
        let rec_ := s.tensor e.ctx (x.objs.getD obj 0)
        (x.objs.length ≤ obj → refused (.lbrw g a d) 7) ∧
        (obj < x.objs.length → (e.region d).kind ≠ .none → exec (.lbrw g a d) s = .next (s.refuse j live (e.region d).base 4 0 0)) ∧
        (open_ → fresh → x.state = 2 → ∃ u q, exec (.lbrw g a d) s = .next u ∧ Spec.Sleeps s u i e live true (.layer num obj d) ∧
          q ∈ u.own.requests ∧ q.who = .eng i.eng ∧ q.obj = rec_.obj % 2 ^ 18 ∧ q.exclusive = false ∧ q.base = rec_.base ∧
          q.extent = rec_.span ∧ q.dest = d ∧ q.layer = some num ∧ q.stage = .issued) ∧
        (∀ kind, open_ → x.state ≠ 2 → x.failed = some kind → ∃ u, u.work = s.work ∧ s.sameMemory u ∧
          exec (.lbrw g a d) s = .next (u.trap j .swap live 0 (kind * 2 ^ 24 + 2 ^ 16 + obj * 2 ^ 10 + num))) ∧
        (open_ → fresh → x.state ≠ 2 → x.failed = none → ∃ u, exec (.lbrw g a d) s = .next u ∧
          Spec.Sleeps s u i e live true (.layer num obj d) ∧ (x.state ≠ 1 → num ∈ (u.context e.ctx).demand ∧
            (num ∉ c.demand → num ∉ (u.context e.ctx).prefetch)))) ∧
      (Spec.Lowest s (.lpref g a) g i e live n l → ∃ t, exec (.lpref g a) s = .next t ∧ s.sameMemory t ∧ goes t id ∧
        t.context e.ctx = if queued x then { c with prefetch := c.prefetch ++ [num] } else c) ∧
      (Spec.Lowest s (.lstat g a d) g i e live n l → ∃ t, exec (.lstat g a d) s = .next t ∧ s.sameMemory t ∧ t.ctxs = s.ctxs ∧
        goes t fun l => l.setReg d (BitVec.ofNat 32 (x.state % 4 + (if x.failed = none then 0 else 4) + (if x.pins = 0 then 0 else 8) +
          16 * (if x.early then 0 else x.cls % 16) + 256 * (x.pins % 256) + 65536 * min x.holders 65535))) ∧
      (Spec.Lowest s (.lpin g a) g i e live n l →
        (255 ≤ x.pins → refused (.lpin g a) 7) ∧
        (x.pins < 255 → ∃ t, exec (.lpin g a) s = .next t ∧ s.sameMemory t ∧ goes t id ∧
          (t.context e.ctx).layers[num]? = some { x with pins := x.pins + 1 } ∧
          (t.context e.ctx).prefetch = if queued x then c.prefetch ++ [num] else c.prefetch)) ∧
      (Spec.Lowest s (.lunpin g a) g i e live n l →
        (x.pins = 0 → refused (.lunpin g a) 7) ∧
        (x.pins ≠ 0 → ∃ t, exec (.lunpin g a) s = .next t ∧ s.sameMemory t ∧ goes t id ∧
          (t.context e.ctx).layers[num]? = some { x with pins := x.pins - 1 })) ∧
      (Spec.Lowest s (.lretry g a d) g i e live n l →
        (x.failed = none → ∃ t, exec (.lretry g a d) s = .next t ∧ s.sameMemory t ∧ t.ctxs = s.ctxs ∧
          goes t fun l => l.setReg d (if x.state = 2 then 0 else 1)) ∧
        (x.failed ≠ none → ∃ t, exec (.lretry g a d) s = .next t ∧ Spec.Sleeps s t i e live false (.retry num d) ∧
          (x.state = 0 → x.retrying = false → (t.context e.ctx).demand.head? = some num ∧
            (t.context e.ctx).layers[num]? = some { x with retrying := true }))) ∧
      (Spec.Lowest s (.lret g b a) g i e live n l →
        let r := e.region a
        let held := s.entry r.obj
        (r.kind = .none ∨ r.layer = false → exec (.lret g b a) s = .next (s.refuse j live r.base 1 0 0)) ∧
        (r.kind = .shared → r.layer = true → r.children = 0 → r.parent = none → r.child = false → r.version ≠ 0 →
          objPkg r.base = none → objDie r.obj = e.place.die → (held.retired = 0 ∨ r.version ≠ held.retired) →
          c.layerOfTensor r.tensor = some num →
          ∃ t e' y, exec (.lret g b a) s = .next t ∧ s.sameMemory t ∧ t.engine i.eng = some e' ∧ (e'.region a).kind = .none ∧
            (t.entry r.obj).holders = held.holders - 1 ∧ (t.context e.ctx).layers[num]? = some y ∧
            y = { x with holders := x.holders - 1, early := if b = 1 then true else x.early } ∧
            ∀ k, e'.lanes.find? k = (e.lanes.find? k).map (Spec.committed i live k)))

/-- R213, R215 and R383 to R389: Calico starts the swap-in at the head of a context's queue or evicts a layer for it, sends and takes its
source lines, publishes each object 16 cycles after its last line, and the layer is then resident; a poisoned or unreachable source, or
a line that does not come in 2^20 cycles, leaves it absent with its mark. -/
def Sys2Proof.Spec.SwapIns : Prop :=
  ∀ (s : State),
    let quiet := ∀ w ∈ s.work.waits, ∀ l k d, w.kind ≠ .layer l k d
    let failed := fun (t : State) (w : SwapIn) (kind : Nat) => s.sameMemory t ∧ (∀ y ∈ t.ctxs.swapIns, y.id ≠ w.id) ∧
      ∀ x, s.layer w.ctx w.layer = some x → x.attempt < 2 → ∃ y, t.layer w.ctx w.layer = some y ∧ y.state = 0 ∧
        y.failed = some kind ∧ y.frames = 0
    (∀ ctx l m x, s.calicoDue = some ctx → s.calicoGo ctx = .start l m → s.layer ctx l = some x → quiet →
      ∃ t w y, exec .calicoSwapinStart s = .next t ∧ s.sameMemory t ∧ t.layer ctx l = some y ∧ y.state = 1 ∧ y.frames = m ∧
        y.attempt = x.attempt + 1 ∧ (t.context ctx).frames = (s.context ctx).frames + m ∧ l ∉ (t.context ctx).prefetch ∧
        w ∈ t.ctxs.swapIns ∧ w.ctx = ctx ∧ w.layer = l ∧ w.obj = 0 ∧ w.sent = 0) ∧
    (∀ ctx l x, s.calicoDue = some ctx → s.calicoGo ctx = .evict l → s.layer ctx l = some x →
      ∃ t y, exec .calicoSwapinStart s = .next t ∧ s.sameMemory t ∧ t.layer ctx l = some y ∧ y.state = 3 ∧
        y.evictAt = s.clock.cyc + 64 * x.objs.length ∧ x.holders = 0 ∧ x.pins = 0 ∧ x.state = 2) ∧
    (∀ ctx l x, s.evictDue = some (ctx, l) → s.layer ctx l = some x → quiet → ∃ t y, exec .layerEvictComplete s = .next t ∧ s.sameMemory t ∧
      t.layer ctx l = some y ∧ y.state = 0 ∧ y.frames = 0) ∧
    (∀ w va o, s.lineDue = some w → s.swapAct w = .send va → s.swapObject w = some o →
      (s.lineNeed (calicoEngine w.ctx) false w.data va = .dead → quiet →
        ∃ t, exec .calicoLineArrive s = .next t ∧ failed t w 2) ∧
      (∀ loc, s.lineNeed (calicoEngine w.ctx) false w.data va = .dram loc ∨ s.lineNeed (calicoEngine w.ctx) false w.data va = .ready loc →
        isHost loc = false → loc < 2 ^ 64 → ∃ t y, exec .calicoLineArrive s = .next t ∧ s.sameMemory t ∧ y ∈ t.ctxs.swapIns ∧
          y.id = w.id ∧ y.sent = w.sent + 1 ∧
          y.flying = w.flying ++ [(w.sent, s.clock.cyc, some (s.clock.cyc + s.calicoLatency loc))])) ∧
    (∀ w m va o, s.lineDue = some w → s.swapAct w = .arrive m va → s.swapObject w = some o →
      s.lineNeed (calicoEngine w.ctx) false w.data va ≠ .dead →
      let e := calicoEngine w.ctx
      let len := min (128 - va % 128) (o.src + o.len - va)
      (s.enginePoison e w.data va = true → quiet → ∃ t, exec .calicoLineArrive s = .next t ∧ failed t w 1) ∧
      (s.enginePoison e w.data va = false → o.src ≤ va → (s.entry o.obj).base = o.base →
        ∃ t y, exec .calicoLineArrive s = .next t ∧ s.sameMemory t ∧ y ∈ t.ctxs.swapIns ∧ y.id = w.id ∧ y.arrived = w.arrived + 1 ∧
          y.publishAt = (if w.arrived + 1 = o.lines.length then some (s.clock.cyc + 16) else none) ∧
          ∀ p, p < len → (t.entry o.obj).shadowFrames.find? (va - o.src + p) = some (some (s.engineByte e (0, 0) w.data (va + p))))) ∧
    (∀ w o, s.objectDue = some w → s.swapObject w = some o →
      ∃ t, exec .calicoObjectPublish s = .next t ∧
        (∀ o', s.swapObject { w with obj := w.obj + 1 } = some o' → o'.obj ≠ o.obj →
          (t.entry o.obj).version = nextVersion (s.entry o.obj).version ∧ (t.entry o.obj).shadow = false ∧
          (t.entry o.obj).holders = 0 ∧ (t.entry o.obj).rholders = (s.entry o.obj).holders ∧ (t.entry o'.obj).shadow = true) ∧
        (s.swapObject { w with obj := w.obj + 1 } = none → (∀ y ∈ t.ctxs.swapIns, y.id ≠ w.id) ∧
          ∀ x, s.layer w.ctx w.layer = some x → ∃ y, t.layer w.ctx w.layer = some y ∧ y.state = 2 ∧ y.failed = none)) ∧
    (∀ w, s.swapTimeoutDue = some w → quiet → ∃ t, exec .swapinTimeout s = .next t ∧ failed t w 3)

/-- The tensor table, the layer instructions and swap-ins. -/
def Obligations.TensorsAndLayers : Prop := Spec.TensorTable ∧ Spec.Layers ∧ Spec.SwapIns

/-! ## The matrix engine -/

/-- The accumulator tiles of a cluster that a mask names read zero, and every other byte of memory reads as before. -/
def Sys2Proof.Spec.TilesZero (s u : State) (cluster tiles : Nat) : Prop :=
  (∀ n, n < 2 ^ 21 → tiles.testBit (n / 2 ^ 18) = true → u.readHome (accLoc cluster n) = 0) ∧
  ∀ n, n < 2 ^ 63 → (∀ m, m < 2 ^ 21 → tiles.testBit (m / 2 ^ 18) = true → n ≠ accLoc cluster m) → u.readHome n = s.readHome n

/-- R196: the words of a staged TCB are valid exactly where its fields keep their ranges, its formats lie in one step class, its part fits
the tiles and its position is the cluster's; the detail names the first condition that fails. -/
def Sys2Proof.Spec.TcbDetail (cluster w0 w1 : Nat) : Prop :=
  let t := Tcb.of (w0, w1)
  let size := 2 ^ t.span
  let classOf := fun (f : Nat) => if f = 5 then some 1 else if f = 3 ∨ f = 4 then some 2 else if f = 1 ∨ f = 2 then some 4 else none
  let ranges := w0 / 2 ^ 29 % 8 = 0 ∧ w0 / 2 ^ 21 % 8 = 0 ∧ w0 / 2 ^ 13 % 8 = 0 ∧ w1 / 2 ^ 19 % 4 = 0 ∧ w1 / 2 ^ 11 % 32 = 0 ∧
    w1 / 2 ^ 6 % 4 = 0 ∧ w1 / 2 ^ 2 % 4 = 0 ∧ 1 ≤ t.mt ∧ t.mt ≤ 16 ∧ 1 ≤ t.nt ∧ t.nt ≤ 8 ∧ 1 ≤ t.kstep ∧ t.kstep ≤ 4096 ∧ t.span ≠ 3
  let formats := (classOf t.afmt).isSome = true ∧ classOf t.afmt = classOf t.bfmt
  let room := t.base + (t.mt / size * t.nt + 3) / 4 ≤ 8
  let place := t.mt % size = 0 ∧ t.pos = cluster % 16 % size
  tcbDetail cluster (w0, w1) = if ¬ ranges then some 1 else if ¬ formats then some 2 else if ¬ room then some 3
    else if ¬ place then some 4 else none

/-- R195 to R204, R294: the matrix instructions: `mcfg` stages a word, `mcommit` makes the staged words active and clears the tiles once
nothing is under way, the engine operations are checked and queued, `mwait` waits for them, and `mchain` for the span. -/
def Sys2Proof.Spec.MatrixInstructions : Prop :=
  (∀ cluster w0 w1, w0 < 2 ^ 32 → w1 < 2 ^ 32 → Spec.TcbDetail cluster w0 w1) ∧
  ∀ (g : Guard) (b a : Fin 64),
    CompletesOnce (.mcfg g b a) g (fun _ e live => { e with staged := Store.set 0 e.staged b ((e.low live).reg a) }) ∧
    ∀ (s : State) (i : Issue) (e : Engine) (live : Dword) (n : Nat) (l : Lane),
      let j := { i with away := i.lanes &&& ~~~live }
      let c := e.place.clusterId
      let m := s.matrix c
      let tcb := Tcb.of e.tcbWords
      let v := (l.reg a).toNat
      let full := 16 ≤ m.queue.length
      let on := fun (k : Nat) (l : Lane) => if i.lanes.getLsbD k then l.goneOn i else l
      let trapped := fun (x : Instr) (cause : Cause) (faddr detail : Nat) => exec x s = .next (s.trap j cause live faddr detail)
      let queues := fun (x : Instr) (after : EngineOp → Engine → Prop) => ∃ u o e', exec x s = .next u ∧ s.sameMemory u ∧
        (u.matrix c).queue = m.queue ++ [o] ∧ (u.matrix c).records = m.records ∧ o.eng = i.eng ∧ o.issue = s.clock.cyc ∧ o.began = none ∧
        o.cfg = e.tcbWords ∧ u.engine i.eng = some e' ∧ e'.regions = e.regions ∧
        (∀ k, e'.lanes.find? k = (e.lanes.find? k).map (on k)) ∧ after o e'
      let kept := fun (e' : Engine) => e'.tcb = e.tcb
      c < 64 → s.xlat.migrations = [] →
      (Spec.Lowest s (.mcommit g) g i e live n l →
        let detail := tcbDetail c e.stagedWords
        (∀ d, m.queue = [] → detail = some d → trapped (.mcommit g) .tilecfg 0 d) ∧
        (m.queue = [] → detail = none → s.tilesHeld c 0xFF = false → ∃ u w e', exec (.mcommit g) s = .next u ∧
          Spec.TilesZero s u c 0xFF ∧ (∀ k, k < 8 → Store.get 0 (u.matrix c).records k = 0) ∧ w ∈ u.work.waits ∧ w.eng = i.eng ∧
          w.lanes = live ∧ w.kind = .until_ (s.clock.cyc + 8) ∧ u.engine i.eng = some e' ∧ e'.tcb = e.staged ∧ e'.committed = true ∧
          (e'.chained = true → (Tcb.of e.stagedWords).span = 0)) ∧
        (m.queue ≠ [] ∨ (detail = none ∧ s.tilesHeld c 0xFF = true) → ∃ u, exec (.mcommit g) s = .next u ∧
          Spec.Sleeps s u i e live false .commitTcb ∧ (u.matrix c).commitWait = true)) ∧
      (Spec.Lowest s (.mma g b a) g i e live n l →
        let ta := v % 4096
        let tb := v / 65536 % 4096
        let first := (l.reg b).toNat % 2 ^ 20
        let ra := s.tensor e.ctx ta
        let rb := s.tensor e.ctx tb
        let recA := s.tensorBytes e.ctx ta
        let recB := s.tensorBytes e.ctx tb
        let check := e.mmaCheck ra rb first
        let scales := fun (h : Nat × Nat) (r : TRec) (isA : Bool) => s.bandGo e h [] r (tcb.operandRows isA)
        (full → exec (.mma g b a) s = .next s) ∧
        (¬ full → e.committed = false → trapped (.mma g b a) .tilecfg 0 9) ∧
        (∀ d, ¬ full → e.committed = true → ra.useDetail = some d → trapped (.mma g b a) .format ra.base d) ∧
        (¬ full → e.committed = true → ra.useDetail = none → rb.useDetail = none →
          (ra.fmt ≠ tcb.afmt ∨ rb.fmt ≠ tcb.bfmt ∨ ra.rank ≠ 2 ∨ rb.rank ≠ 2 ∨ ra.ext.getD 1 0 ≠ tcb.mt * 128 ∨
            rb.ext.getD 1 0 ≠ tcb.nt * 128 ∨ ra.ext.getD 0 0 ≠ rb.ext.getD 0 0 ∨ ra.ext.getD 0 0 ≤ 32 * first) →
          trapped (.mma g b a) .tilecfg 0 6) ∧
        (∀ d, ¬ full → check = .error d → trapped (.mma g b a) d.cause d.faddr d.detail) ∧
        (∀ ha hb, ¬ full → check = .ok (ha, hb) → tcb.span = 0 → scales ha ra true = .ok → scales hb rb false = .ok →
          queues (.mma g b a) fun o e' => o.kind = .mma ta tb first ∧ o.recA = recA ∧ o.recB = recB ∧ o.tiles = tcb.tiles ∧ o.group = none ∧ kept e') ∧
        (∀ ha hb f, ¬ full → check = .ok (ha, hb) → tcb.span = 0 →
          (scales ha ra true = .bad f ∨ (scales ha ra true = .ok ∧ scales hb rb false = .bad f)) → trapped (.mma g b a) .format f 8) ∧
        (∀ ha hb va, ¬ full → check = .ok (ha, hb) → tcb.span = 0 →
          (scales ha ra true = .absent va ∨ (scales ha ra true = .ok ∧ scales hb rb false = .absent va)) →
          ∃ u, exec (.mma g b a) s = .next u ∧ Spec.Sleeps s u i e live false
            (.spanMma ta tb first recA recB [(va, (s.lineNeed e false [] va).ask)] [])) ∧
        (∀ h, ¬ full → check = .ok h → tcb.span ≠ 0 → e.chained = false → trapped (.mma g b a) .tilecfg 0 7) ∧
        (∀ h, ¬ full → check = .ok h → tcb.span ≠ 0 → e.chained = true → s.spanStreams e.span = none →
          ∃ u, exec (.mma g b a) s = .next u ∧ Spec.Sleeps s u i e live false (.spanMma ta tb first recA recB [] []))) ∧
      (Spec.Lowest s (.mzero g a) g i e live n l →
        (full → exec (.mzero g a) s = .next s) ∧
        (¬ full → queues (.mzero g a) fun o e' => o.kind = .zero (v % 256) ∧ o.tiles = v % 256 ∧ kept e')) ∧
      (Spec.Lowest s (.mfeed g a) g i e live n l →
        (full → exec (.mfeed g a) s = .next s) ∧
        (∀ d, ¬ full → e.partCheck (s.tensor e.ctx (v % 4096)) false = .error d → trapped (.mfeed g a) d.cause d.faddr d.detail) ∧
        (∀ h, ¬ full → e.partCheck (s.tensor e.ctx (v % 4096)) false = .ok h →
          queues (.mfeed g a) fun o e' => o.kind = .feed (v % 4096) ∧ o.tiles = tcb.tiles ∧ o.holdA = h ∧ kept e')) ∧
      (Spec.Lowest s (.mdrain g a) g i e live n l →
        (full → exec (.mdrain g a) s = .next s) ∧
        (∀ d, ¬ full → e.partCheck (s.tensor e.ctx (v % 4096)) true = .error d → trapped (.mdrain g a) d.cause d.faddr d.detail) ∧
        (∀ h, ¬ full → e.partCheck (s.tensor e.ctx (v % 4096)) true = .ok h →
          queues (.mdrain g a) fun o e' => o.kind = .drain (v % 4096) ((l.reg a).getLsbD 31) tcb.dph ∧ o.holdA = h ∧
            e'.tcbWords.1 = e.tcbWords.1 ∧ (Tcb.of e'.tcbWords) = { tcb with dph := (tcb.dph + 1) % 8 })) ∧
      (Spec.Lowest s (.mwait g a) g i e live n l →
        (m.queue.length ≤ v % 32 → m.psnMet = none → ∃ e', exec (.mwait g a) s = .next (s.setEngine i.eng e') ∧ e.LanesOf e' on) ∧
        (∀ va, m.queue.length ≤ v % 32 → m.psnMet = some va → ∃ u, exec (.mwait g a) s = .next u ∧ (u.matrix c).psnMet = none ∧
          u = (s.trap j .poison live va 0).setMatrix c { m with psnMet := none }) ∧
        (v % 32 < m.queue.length → ∃ u, exec (.mwait g a) s = .next u ∧ Spec.Sleeps s u i e live false (.engineOps (v % 32)))) ∧
      (Spec.Lowest s (.mchain g a) g i e live n l →
        (tcb.span = 0 → ∃ e', exec (.mchain g a) s = .next (s.setEngine i.eng e') ∧ e.LanesOf e' on) ∧
        (tcb.span ≠ 0 → (∀ k x, k ≠ i.eng → s.engine k = some x → (k, x) ∈ s.work.engines → x.isSeq = false) →
          (∀ k x, (k, x) ∈ s.work.engines → s.engine k = some x) → s.spanStreams e.span = none →
          ∃ u, exec (.mchain g a) s = .next u ∧ Spec.Sleeps s u i e live false (.rendezvous (l.reg a))))

/-- R37 and R38: the value of a chunk whose elements are finite is their exact sum of products, rounded once with the bands, or a zero whose
sign is − only where every product is −0; it is then added under rne. -/
def Sys2Proof.Spec.ChunkValues : Prop :=
  ∀ (pairs : List (FloatVal × FloatVal)) (na nb : Bool) (ma mb : Nat) (ea eb : Int),
    (∀ p ∈ pairs, (∃ n m e, p.1 = .num n m e) ∧ ∃ n m e, p.2 = .num n m e) →
    let total : ℚ := (pairs.map fun p => Spec.rat p.1 * Spec.rat p.2).sum
    let band : ℚ := Spec.rat (.num na ma ea) * Spec.rat (.num nb mb eb)
    let v := chunkValue pairs (.num na ma ea) (.num nb mb eb)
    (total = 0 → v = ⟨if pairs.all fun p => (p.1.mul p.2).1.isNeg && (p.1.mul p.2).1.isZero then 0x80000000 else 0, Fx.none⟩) ∧
    (total ≠ 0 → band ≠ 0 → Spec.Rounded .f32 (.plain .rne) (decide (total * band < 0)) |total * band| v)

/-- R37 and R200: a chunk that lies beyond the K extent of both operands adds +0 to the element. -/
def Sys2Proof.Spec.ChunksBeyondK : Prop :=
  ∀ (a b : TRec) (ds : List (Store Byte)) (row j ch old : Nat), a.ext.getD 0 0 ≤ 32 * ch → b.ext.getD 0 0 ≤ 32 * ch →
    (mmaElement a b ds row j ch old).code = (fAdd .f32 (.plain .rne) old 0).code

/-- R293 to R296, R299: what one cluster's operation does at a step whose cycle has come, its step group being the cluster alone: the step
waits a whole cycle while a line is not in the fetch unit's hands, and otherwise its results stand in the tiles.  The order of an `mma`'s
steps is the model's choice (log entry 42). -/
def Sys2Proof.Spec.EngineSteps : Prop :=
  ∀ (s : State) (c u : Nat) (o : EngineOp) (rest : List EngineOp) (e : Engine),
    s.scaleDue = none → s.fetchDue = none → s.stepDue = some [(c, o, e)] → (s.matrix c).queue = o :: rest →
    o.began = some u → e.place.clusterId = c → c < 64 → s.xlat.migrations = [] →
    let t := Tcb.of o.cfg
    let held := ∀ v ∈ o.stepLines o.step, o.holds v.1 = true
    let healthy := ∀ v ∈ o.stepLines o.step, v.1 ∉ o.sick
    let fits := t.base + t.tileCount ≤ 8
    let a := TRec.ofBytes o.recA
    let hands := [o.data, o.data]
    (¬ held → ∃ x o', exec .tileFetchArrive s = .next x ∧ s.sameMemory x ∧ (x.matrix c).queue = o' :: rest ∧
      o' = { o with extra := o'.extra } ∧ o'.slot u = s.clock.cyc + 1) ∧
    (held → ∃ x o', exec .tileFetchArrive s = .next x ∧ (x.matrix c).queue = o' :: rest ∧ o'.step = o.step + 1 ∧
      o'.extra = o.extra ∧ (healthy → o'.met = o.met) ∧
      (¬ healthy → o'.met.isSome = true ∧ ∀ k, k < 8 → t.tiles.testBit k = true → bit (Store.get 0 (x.matrix c).records k) 7 = true) ∧
      (∀ ta tb c0, o.kind = .mma ta tb c0 → fits →
        let at_ := t.stepAt c0 o.step
        let part := fun (i k : Nat) => i / 128 = at_.2.1 ∧ k / 128 = at_.2.2
        (∀ i k, part i k → x.accValue c (t.at i k) =
          (mmaElement a (TRec.ofBytes o.recB) hands (t.row0 + i) k at_.1 (s.accValue c (t.at i k))).code % 2 ^ 32) ∧
        ∀ n, n < 2 ^ 63 → (∀ i k, part i k → n < accLoc c (t.at i k) ∨ accLoc c (t.at i k) + 4 ≤ n) → x.readHome n = s.readHome n) ∧
      (∀ m, o.kind = .zero m →
        let k := ((List.range 8).filter m.testBit).getD o.step 0
        Spec.TilesZero s x c (2 ^ k) ∧
          ∀ y, Store.get 0 (x.matrix c).records y = if y = k then 0 else Store.get 0 (s.matrix c).records y) ∧
      (∀ ta, o.kind = .feed ta → fits → a.fmt ≤ 2 → ∀ p ∈ t.stepRun o.step, x.accValue c (t.at p.1 p.2) =
        (cvtVal (.float .f32) (.plain .rne) ((fmtOf a.fmt).decode (handValue hands
          (a.base + (t.row0 + p.1) * a.str.getD 1 0 + p.2 * (a.size2 / 2)) (a.size2 / 2)))).code % 2 ^ 32) ∧
      (∀ ta clear dph, o.kind = .drain ta clear dph → ∀ n, x.readHome n = s.readHome n))

/-- R293 to R297: the operations at the heads of a step group's queues begin together with the longest F of them; the fetch unit then takes the
bytes of a line, starts its fetch from DRAM, or asks for it. -/
def Sys2Proof.Spec.EngineBegins : Prop :=
  ∀ s : State,
    (∀ l c o rest, s.beginDue = some l → c ∈ l → (s.matrix c).queue = o :: rest → (s.engine o.eng).isSome = true → ∃ t fill,
      exec .engineOpBegin s = .next t ∧ s.sameMemory t ∧ (t.matrix c).queue = { o with began := some s.clock.cyc, fill } :: rest ∧
      (∀ x ∈ l, s.headFill x ≤ fill) ∧ (fill = 0 ∨ ∃ x ∈ l, s.headFill x = fill)) ∧
    (∀ c o rest e, (s.matrix c).queue = o :: rest → s.engine o.eng = some e →
      let m := s.matrix c
      let hops := if (Tcb.of o.cfg).span = 2 then 3 else if (Tcb.of o.cfg).span = 1 then 1 else 0
      match o.kind with
      | .mma _ _ _ => (Tcb.of o.cfg).span < 3 →
          s.headFill c = if m.lastWasMma = true ∧ m.lastDone = s.clock.cyc then 0 else 40 + 4 * hops
      | .zero _ => s.headFill c = 0
      | .feed _ | .drain _ _ _ => s.headFill c = 16 + s.opReach e o ∧ 96 ≤ s.opReach e o) ∧
    (∀ c o rest e l g, s.scaleDue = none → s.fetchDue = some (c, o, e, l, g) → (s.matrix c).queue = o :: rest →
      ∃ t o', exec .tileFetchArrive s = .next t ∧ (∀ n, t.readHome n = s.readHome n) ∧ (t.matrix c).queue = o' :: rest ∧
        o'.step = o.step ∧ o'.extra = o.extra ∧
        match g with
        | .take loc => o'.hand = (l.1, loc) :: o.hand ∧
            (o.isDrain = false → ∀ i, i < 128 → o'.data.find? (l.1 + i) = some (s.engineByte e l.2 o.data (l.1 + i))) ∧
            (o.isDrain = false → s.enginePoison e o.data l.1 = true → l.1 ∈ o'.sick)
        | .dram => o' = { o with pend := (l.1, s.clock.cyc + dramCycles) :: o.pend }
        | .ask what => o' = { o with asked := o'.asked } ∧ (l.1, what) ∈ o'.asked)

/-- R198 to R204, R293 to R300: the operation at the head of a cluster's queue begins, fetches its lines and performs its steps, which write
products, zeros or the elements fed; on completion a drain has written its destination and `mwait` hears of poison; a waiting `mcommit` then
takes effect. -/
def Sys2Proof.Spec.EngineOperations : Prop :=
  Spec.ChunkValues ∧ Spec.ChunksBeyondK ∧ Spec.EngineBegins ∧ Spec.EngineSteps ∧
  ∀ s : State,
    (∀ c o rest e, s.completeDue = some (c, o) → (s.matrix c).queue = o :: rest → s.engine o.eng = some e → e.place.clusterId = c →
      c < 64 → s.xlat.migrations = [] → (∀ w ∈ s.work.waits, ∀ n, w.kind ≠ .engineOps n) →
      let t := Tcb.of o.cfg
      let fits := t.base + t.tileCount ≤ 8
      let healthy := ∀ k, k < 8 → t.tiles.testBit k = true → bit (Store.get 0 (s.matrix c).records k) 7 = false
      ∃ u, exec .engineOpComplete s = .next u ∧ (u.matrix c).queue = rest ∧ (u.matrix c).lastDone = s.clock.cyc ∧
        (u.matrix c).lastWasMma = o.isMma ∧
        (o.isDrain = false → ∀ n, u.readHome n = s.readHome n) ∧
        (∀ va, o.met = some va → (u.matrix c).psnMet = (s.matrix c).psnMet.or (some va)) ∧
        (o.met = none → healthy → (u.matrix c).psnMet = (s.matrix c).psnMet) ∧
        (∀ ta clear dph, o.kind = .drain ta clear dph → fits →
          (clear = true → ∀ n, n < 2 ^ 21 → t.tiles.testBit (n / 2 ^ 18) = true → u.readHome (accLoc c n) = 0) ∧
          (clear = false → healthy → u.mem = (s.drainPart e o dph false).mem))) ∧
    (∀ t fmt dph k old, drainValue t fmt dph k old = cvtVal (.float (fmtOf fmt))
      ⟨[RoundMode.rne, .rz, .rd, .ru, .sd, .rneSat, .sdSat, .rna].getD t.drm .rne, k % 8, dph⟩ (FloatFmt.f32.decode old)) ∧
    (∀ w e, s.commitDue = some (w, e) → s.engine w.eng = some e → e.place.clusterId < 64 → s.xlat.migrations = [] →
      let c := e.place.clusterId
      (∀ d, tcbDetail c e.stagedWords = some d → ∃ u, exec .mcommitClear s = .next ((u.dropWait w).raise
        { eng := w.eng, cause := .tilecfg, lanes := w.lanes, pc := w.pc, insn := w.insn, faddr := 0, detail := d }) ∧
        u = s.setMatrix c { s.matrix c with commitWait := false }) ∧
      (tcbDetail c e.stagedWords = none → ∃ u e', exec .mcommitClear s = .next u ∧ Spec.TilesZero s u c 0xFF ∧
        (u.matrix c).commitWait = false ∧ u.engine w.eng = some e' ∧ e'.tcb = e.staged ∧ e'.committed = true ∧
        ∀ x ∈ u.work.waits, x.id = w.id → x.kind = .until_ (s.clock.cyc + 8)))

/-- The matrix instructions and what their operations write. -/
def Obligations.MatrixEngine : Prop := Spec.MatrixInstructions ∧ Spec.EngineOperations

/-! ## Maintenance -/

/-- R223, R401, R406 to R408, R439 and R460: the MAINT instructions are commit points; each refuses the values that the rules refuse with
status RANGE, and otherwise starts its work, for which its lanes sleep, or completes at once where there is none. -/
def Sys2Proof.Spec.MaintenanceInstructions : Prop :=
  ∀ (g : Guard) (b a d : Fin 64) (s : State) (i : Issue) (e : Engine) (live : Dword) (n : Nat) (l : Lane),
    let j := { i with away := i.lanes &&& ~~~live }
    let addr := (l.pair a).toNat
    let v := (l.reg a).toNat
    let len := (l.reg b).toNat
    let refused := fun (x : Instr) (f : Nat) => exec x s = .next (s.refuse j live f 6 7 0)
    let done := fun (x : Instr) (f : Lane → Lane) (after : State → Prop) => ∃ u e', exec x s = .next u ∧ u.engine i.eng = some e' ∧
      (∀ k, e'.lanes.find? k = (e.lanes.find? k).map fun l =>
        if live.getLsbD k then f (Spec.committed i live k l) else Spec.committed i live k l) ∧ after u
    let sleeps := fun (x : Instr) (kind cycle a b dest : Nat) (after : State → Wait → Prop) => ∃ u w, exec x s = .next u ∧
      Spec.Sleeps s u i e live true (.maint kind cycle a b dest) ∧ w ∈ u.work.waits ∧ w.eng = i.eng ∧
      w.kind = .maint kind cycle a b dest ∧ after u w
    (Spec.Lowest s (.tlbi g b a) g i e live n l →
      let ctx := len / 2 ^ 16 % 2 ^ 10
      let gone := fun (u : State) (p : PageEntry → Prop) => ∀ q : PageEntry,
        q ∈ (Store.vals u.xlat.core).flatten ∨ q ∈ (Store.vals u.xlat.cluster).flatten ∨ q ∈ (Store.vals u.xlat.die).flatten → ¬ p q
      (len % 4 = 3 → refused (.tlbi g b a) addr) ∧
      (len % 4 ≠ 3 → (∀ kv ∈ s.work.engines, kv.2.beats = []) → ∃ u w e' x, exec (.tlbi g b a) s = .next u ∧ s.sameMemory u ∧
        x ∈ u.work.waits ∧ x.eng = i.eng ∧ x.lanes = live ∧ x.kind = .maint 0 0 0 0 0 ∧ w ∈ u.xlat.sweeps ∧ w.for_ = .tlbi x.id ∧
        w.reach = s.clock.cyc + 100 ∧ w.ctx = (if len % 4 = 2 then none else some ctx) ∧
        w.page = (if len % 4 = 0 then some (s.pageOf ctx (addr % 2 ^ 57)) else none) ∧ u.engine i.eng = some e' ∧
        (∀ k l, live.getLsbD k = true → e.lanes.find? k = some l → ∃ l', e'.lanes.find? k = some l' ∧ l'.status = .sleeping x.id ∧
          l'.lastPage = none ∧ l'.regs = l.regs ∧ l'.pc = l.pc) ∧
        (len % 4 = 0 → let p := s.pageOf ctx (addr % 2 ^ 57)
          gone u fun q => q.ctx = ctx ∧ q.vpage * q.size < p.1 + p.2 ∧ p.1 < (q.vpage + 1) * q.size) ∧
        (len % 4 = 1 → gone u fun q => q.ctx = ctx) ∧ (len % 4 = 2 → gone u fun _ => True))) ∧
    (Spec.Lowest s (.l2wb g b a d) g i e live n l →
      let lines := s.rangeLines e.ctx addr len s.l2Dirty
      (addr % 128 ≠ 0 ∨ len % 128 ≠ 0 → refused (.l2wb g b a d) addr) ∧
      (addr % 128 = 0 → len % 128 = 0 → lines = [] → done (.l2wb g b a d) id s.sameMemory) ∧
      (addr % 128 = 0 → len % 128 = 0 → lines ≠ [] →
        sleeps (.l2wb g b a d) 1 (s.clock.cyc + s.writeBackCycles e.l1 7 lines) addr len d fun _ _ => True)) ∧
    (Spec.Lowest s (.l2cfg g b a) g i e live n l →
      let mask := v % 2 ^ 16
      let dom := v / 2 ^ 16 % 16
      let domains := s.domainsAfter len mask dom
      let bad := mask = 0 ∨ 3 < dom ∨ 3 < len ∨ domainsAllowed domains len = false
      let busy := ∃ c ∈ s.repair.cfgs, c.die = len
      (bad → refused (.l2cfg g b a) 0) ∧ (¬ bad → busy → exec (.l2cfg g b a) s = .next s) ∧
      (¬ bad → ¬ busy → domains = s.repair.domains → done (.l2cfg g b a) id s.sameMemory) ∧
      (¬ bad → ¬ busy → domains ≠ s.repair.domains → sleeps (.l2cfg g b a) 2 s.clock.cyc 0 0 0 fun u w =>
        u.repair.domains = s.repair.domains ∧ u.repair.cfgs = s.repair.cfgs ++ [{ die := len, domains, due := none, wait := w.id }])) ∧
    (Spec.Lowest s (.owalk g b a d) g i e live n l →
      sleeps (.owalk g b a d) 3 s.clock.cyc (v % 1024) b d fun u w => u.own.walks = s.own.walks ++
        [{ for_ := .owalk (v % 1024) w.id (b.val == 1), start := s.clock.cyc, next := 0, count := 0 }]) ∧
    (Spec.Lowest s (.bias g b a) g i e live n l →
      (s.deviceLeaf e.ctx (addr % 2 ^ 57) = none → refused (.bias g b a) addr) ∧
      ∀ leaf, s.deviceLeaf e.ctx (addr % 2 ^ 57) = some leaf →
        let page := (leaf.frame + addr % leaf.size) / 4096
        let there := s.flipOf page = none ∧ (page ∈ s.xlat.hostBias ↔ b = 0)
        (page < 512 → refused (.bias g b a) addr) ∧
        (512 ≤ page → there → done (.bias g b a) id s.sameMemory) ∧
        (512 ≤ page → ¬ there → sleeps (.bias g b a) 4 0 page b 0 fun u w => ∃ f ∈ u.xlat.flips,
          f.page = page ∧ f.toHost = (b.val == 0) ∧ f.wait = some w.id)) ∧
    (Spec.Lowest s (.migr g b a) g i e live n l →
      let new := (l.pair b).toNat % 2 ^ 40
      let va := addr % 2 ^ 57
      (s.migrRefused e.ctx va new = true → refused (.migr g b a) addr) ∧
      (s.migrRefused e.ctx va new = false → s.migrationsFull new = true → sleeps (.migr g b a) 7 0 addr new 0 fun _ _ => True) ∧
      (∀ leaf, s.migrRefused e.ctx va new = false → s.migrationsFull new = false → s.deviceLeaf e.ctx va = some leaf →
        (walkTables s.mem.cells va 4 (ptbOf s e.ctx)) ≠ [] →
        ∃ u w m, exec (.migr g b a) s = .next u ∧ w ∈ u.work.waits ∧ w.eng = i.eng ∧ w.lanes = live ∧ w.kind = .maint 5 0 addr new 0 ∧
          u.xlat.migrations.getLast? = some m ∧ m.ctx = e.ctx ∧ m.va = va / leaf.size * leaf.size ∧ m.old = leaf.frame ∧ m.new = new ∧
          m.size = leaf.size ∧ m.valid = [] ∧ m.sweeping = true ∧ ∃ x ∈ u.xlat.sweeps, x.for_ = .migration w.id)) ∧
    (Spec.Lowest s (.invl1 g b a) g i e live n l →
      let tags := s.tagsOf (v % 1024) e.l1 b
      let dirty := fun (t : L1Tag) => s.dirtyLines t.core t.obj t.version
      ((∀ t ∈ tags, dirty t = []) → done (.invl1 g b a) id fun u =>
        ∀ t ∈ u.mem.l1, t.core = e.l1 ∨ b = 1 → (s.entry t.obj).ctx ≠ v % 1024) ∧
      ((∃ t ∈ tags, dirty t ≠ [] ∧ s.writeBackCycles t.core 6 (dirty t) ≠ 0) →
        ∃ cycle, s.clock.cyc < cycle ∧ sleeps (.invl1 g b a) 6 cycle (v % 1024) b e.l1 fun _ _ => True)) ∧
    (Spec.Lowest s (.pcnt g b a d) g i e live n l →
      let k := v % 256
      let core := e.place.coreId
      let bad := 31 < k ∨ ((l.reg a).getLsbD 31 = true ∧ k < 8 ∧ 13 < len)
      (bad → refused (.pcnt g b a d) 0) ∧
      (¬ bad → done (.pcnt g b a d) (fun l => l.setPair d (BitVec.ofNat 64 (s.counterValue core k))) fun u =>
        s.sameMemory u ∧ ((l.reg a).getLsbD 31 = false → u.repair = s.repair) ∧
        ((l.reg a).getLsbD 31 = true → u.counterValue core k = 0 ∧
          (k < 8 → Store.get 0 u.repair.programs (core * 8 + k) = len))))

/-- R223, R401, R404, R406, R408, R409 and R460: what the maintenance instructions started completes: sweeps, write-backs, reconfigurations,
walks, L1 invalidations, flips and their back-invalidations, and migrations; the lanes that sleep for it go on. -/
def Sys2Proof.Spec.MaintenanceCompletes : Prop :=
  ∀ (s : State),
    (∀ w id x, s.sweepDue = some w → (w.for_ = .tlbi id ∨ w.for_ = .migration id) → s.waitOf id = some x →
      ∃ t, exec .sweepComplete s = .next t ∧ s.sameMemory t ∧ Spec.Woken s t x (fun l => l) ∧ w ∉ t.xlat.sweeps ∧
        (w.for_ = .migration id → ∀ m ∈ t.xlat.migrations, m.sweeping = true → ¬ (w.ctx = some m.ctx ∧ w.page.map Prod.fst = some m.va))) ∧
    (∀ w iova len, s.sweepDue = some w → w.for_ = .ats iova len → ∃ t, exec .sweepComplete s = .next t ∧ s.sameMemory t ∧
      t.host.out = s.host.out ++ [.atsDone iova len]) ∧
    (∀ w c addr len k, s.l2wbDue = some (w, c, addr, len, k) → s.waitOf w.id = some w →
      let lines := s.rangeLines (s.ctxOf w.eng) addr len s.l2Dirty
      ∃ t, exec .l2wbComplete s = .next t ∧ Spec.Woken s t w (fun l => l) ∧ (∀ n, n < 2 ^ 63 → t.mem.cells.read n = s.mem.cells.read n) ∧
        (∀ n ∈ lines, Store.get false t.mem.l2 n = false) ∧ (k = 1 → ∀ n ∈ lines, t.mem.l2.find? n = none) ∧
        ∀ n ∈ lines, isHost (n * 128) = true →
          .cxlWrite (n * 128 - 2 ^ 60) (s.readHomeBytes (n * 128) 128) (s.mem.poison.contains n) ∈ t.host.out) ∧
    (∀ c, s.l2cfgDue = some c →
      (c.due = none → ∃ t c', exec .l2cfgSwitch s = .next t ∧ s.sameMemory t ∧ c' ∈ t.repair.cfgs ∧
        c' = { c with due := some (s.switchCycle c s.clock.cyc) }) ∧
      (∀ n x, c.due = some n → s.waitOf c.wait = some x → ∃ t, exec .l2cfgSwitch s = .next t ∧ t.repair.domains = c.domains ∧
        c ∉ t.repair.cfgs ∧ (∀ y ∈ s.movedLines c, t.mem.l2.find? y = none) ∧ Spec.Woken s t x fun l => l)) ∧
    (∀ w x k c y z d, s.owalkDue = some (w, x) → x.kind = .maint k c y z d → w.for_.reclaims = false →
      ∃ t, exec .owalkComplete s = .next t ∧ s.sameMemory t ∧ w ∉ t.own.walks ∧
        Spec.Woken s t x fun l => l.setReg d (BitVec.ofNat 32 w.count)) ∧
    (∀ w c ctx k l1, s.invl1Due = some (w, c, ctx, k, l1) → s.waitOf w.id = some w → s.tagsMissing (s.tagsOf ctx l1 k) = [] →
      ∃ t, exec .invl1Complete s = .next t ∧ Spec.Woken s t w (fun l => l) ∧
        ∀ y ∈ t.mem.l1, y.core = l1 ∨ k = 1 → (s.entry y.obj).ctx ≠ ctx) ∧
    (∀ f, s.flipDue = some f → ∃ t, exec .biasFlipComplete s = .next t ∧
      (f.toHost = true → f.page ∈ t.xlat.hostBias) ∧ (f.toHost = false → f.page ∉ t.xlat.hostBias)) ∧
    (∀ (pa : Nat) (bs : List Byte), s.xlat.migrations = [] → s.xlat.snoopWrites = [] → 2 ^ 21 ≤ pa → pa + 64 < 2 ^ 60 → bs.length = 64 →
      let n := pa / 64
      ∃ t, exec (.bisnpResponse pa (some bs)) s = .next t ∧
        (∀ k, k < 64 → t.readHome (64 * n + k) = bs.getD k 0) ∧
        (∀ y, y < 2 ^ 63 → (y < 64 * n ∨ 64 * n + 64 ≤ y) → t.readHome y = s.readHome y) ∧
        (n ∈ s.xlat.snoops → t.xlat.snoops = s.xlat.snoops.erase n ∧ n ∈ t.xlat.snooped) ∧
        (n ∉ s.xlat.snoops → t.xlat.flips = s.xlat.flips.map fun f =>
          if f.toHost = false ∧ s.flipOf f.page = some f then { f with pending := f.pending.erase n } else f)) ∧
    (∀ m, s.tickDue = some m → ∃ t, exec .migrationSweepTick s = .next t ∧ s.sameMemory t ∧
      ∀ x ∈ t.xlat.migrations, ∃ y ∈ s.xlat.migrations, y.new = x.new ∧ x.valid = y.valid ∧
        x.cursor = (if x.new = m.new then y.cursor + 1 else y.cursor) ∧
        x.nextTick = if x.new = m.new then y.nextTick + 16 else y.nextTick) ∧
    (∀ m k, s.pullDue = some (m, k) → (s.pullLine m k).migrated = none →
      ∃ t m', exec .migrationPullComplete s = .next t ∧ m' ∈ t.xlat.migrations ∧ m'.new = m.new ∧
        m'.valid = m.valid ++ [k] ∧
        (∀ y, y < 128 → t.mem.cells.read (m.new + 128 * k + y) =
          s.mem.cells.read (if m.written.contains (m.new + 128 * k + y) then m.new + 128 * k + y else m.old + 128 * k + y)) ∧
        ∀ y, (y < m.new + 128 * k ∨ m.new + 128 * k + 128 ≤ y) → t.mem.cells.read y = s.mem.cells.read y) ∧
    (∀ m, s.pullDue = none → s.migrated = some m → (∀ w ∈ s.work.waits, ∀ c x y z, w.kind ≠ .maint 7 c x y z) →
      ∃ t, exec .migrationPullComplete s = .next t ∧ m ∉ t.xlat.migrations ∧ t.mem = s.mem)

/-- The maintenance instructions, from their issue to their completion. -/
def Obligations.Maintenance : Prop := Spec.MaintenanceInstructions ∧ Spec.MaintenanceCompletes

/-! ## What happens in the cores, on the mesh and at the home slices -/

/-- R71, R73, R76, R108, R308 and R320: results reach their registers, lines their instruction cache, beats leave their buffers, a deadlocked
instance raises MASK with the lowest lane it awaits, and a trap that waited for pending translations is taken. -/
def Sys2Proof.Spec.CoreEvents : Prop :=
  ∀ (s : State),
    ((∀ c ∈ s.own.childReturns, s.clock.cyc < c.1) → (∀ m ∈ s.own.moving, s.clock.cyc < m.1) →
      ∃ t, exec .registerWriteComplete s = .next t ∧ s.sameMemory t ∧
      ∀ n, t.engine n = (s.engine n).map fun e => { e with sb := e.sb.filter fun x => (match x.due with
        | some c => decide (s.clock.cyc < c)
        | none => true) }) ∧
    (∀ c eng h r e, s.own.childReturns = [] → s.own.moving = [(c, eng, h, r)] → c ≤ s.clock.cyc → s.engine eng = some e → e.ended = false →
      ∃ t e', exec .registerWriteComplete s = .next t ∧ s.sameMemory t ∧ t.own.moving = [] ∧ t.engine eng = some e' ∧
        e'.region h = { r with writingBack := (e.region h).writingBack } ∧ ∀ k, k ≠ h → e'.region k = e.region k) ∧
    (∀ c eng h e, s.own.moving = [] → s.own.childReturns = [(c, eng, h)] → c ≤ s.clock.cyc → s.engine eng = some e →
      ∃ t e', exec .registerWriteComplete s = .next t ∧ s.sameMemory t ∧ t.own.childReturns = [] ∧ t.engine eng = some e' ∧
        (e'.region h).children = (e.region h).children - 1) ∧
    (∀ core line c, s.icacheDue = some (core, line, c) → ∃ t, exec .icacheLineArrive s = .next t ∧ s.sameMemory t ∧
      (core, line) ∈ t.mem.icache ∧ (∀ x ∈ s.mem.icache, x ∈ t.mem.icache) ∧
      ∀ x ∈ t.mem.icachePending, x ∈ s.mem.icachePending ∧ ¬ (x.1 = core ∧ x.2.1 = line)) ∧
    (s.xlat.snoopWrites = [] → ∃ t, exec .storeBeatDrain s = .next t ∧ s.sameMemory t ∧
      ∀ n, t.engine n = (s.engine n).map fun e => { e with draining := e.draining.filter fun b => decide (s.clock.cyc < b.due) }) ∧
    (∀ n e, s.deadlockDue = some (n, e) → s.engine n = some e → (∀ w ∈ s.xlat.pending, w.eng ≠ n) → ∃ x ∈ e.open_, ∃ u e',
      x.crosses = true ∧ (∀ y ∈ e.open_, y.crosses = true → x.pc.toNat ≤ y.pc.toNat) ∧
      exec .crosslaneDeadlock s = .next (u.raise
        { eng := n, cause := .mask, lanes := listMask (Store.keys x.arrived), pc := x.pc, insn := x.insn, faddr := 0
          detail := (x.awaited e).headD 0 }) ∧
      s.sameMemory u ∧ u.engine n = some e' ∧ e'.open_ = e.open_.filter fun y => y.pc != x.pc) ∧
    (∀ r, s.handlerDue = some r → ∃ u : State, exec .handlerEntry s = .next (u.takeTrap r) ∧ r ∉ u.work.traps ∧
      u = { s with work := { s.work with traps := u.work.traps } })

/-- R150, R153, R217, R278, R281, R405, R427, R428, R460 and R476: a request leaves its core, enters its home's queue, or is answered REPLAY where its line has moved; its home serves
it, and a plain load that misses takes the DRAM cycles first; a request that returns nothing ends there, and the values of another reach
their lanes. -/
def Obligations.MeshEvents : Prop :=
  ∀ (s : State) (q : MeshReq),
    let becomes := fun (t : State) (r : MeshReq) => t.mem.mesh.find? q.id = some r
    (s.leaver = some q → (∃ p ∈ q.parts, p.loc < 2 ^ 61 ∨ 2 ^ 62 ≤ p.loc) → ∃ t, exec .meshRequestArrive s = .next t ∧ s.sameMemory t ∧
      becomes t { q with stage := .travelling, due := s.clock.cyc + 40 + 2 * q.hops + 18 * q.crossings }) ∧
    (s.leaver = none → s.departer = none → s.meshIn .travelling = some q → ∃ t, exec .meshRequestArrive s = .next t ∧ s.sameMemory t ∧
      ((∃ p ∈ q.parts, p.done = false ∧ homeOf s (q.home / 16) p.loc ≠ q.home) →
        becomes t { q with stage := .replayed, due := s.clock.cyc + 4 * q.hops }) ∧
      ((∀ p ∈ q.parts, p.done = false → homeOf s (q.home / 16) p.loc = q.home) →
        becomes t { q with stage := .queued, due := s.clock.cyc, arrival := s.clock.cyc })) ∧
    (∀ e p, s.meshIn .replayed = some q → (∀ x ∈ Store.vals s.mem.mesh, x.stage ≠ .after) → s.engine q.eng = some e → q.parts = [p] → ∃ t r, exec .l2cfgReplayReceive s = .next t ∧
      s.sameMemory t ∧ r ∈ Store.vals t.mem.mesh ∧ r.home = homeOf s e.place.die p.loc ∧ r.parts = [p] ∧ r.eng = q.eng ∧
      r.dest = q.dest ∧ r.wait = q.wait ∧ r.stage = .travelling) ∧
    (∀ p, s.serveDue = some q → q.parts = [p] → p.done = false → q.eng ≠ 0 → s.partReady q p = true → s.unreachable p.loc = false →
      s.pullCycles p.loc = 0 → isHost p.loc = false →
      let miss := p.op.plain = true ∧ p.op.reads = true ∧ isDram p.loc = true ∧ s.mem.l2.find? (lineOf p.loc) = none
      let after := s.performPart q p
      (miss → ∃ t, exec .homeServe s = .next t ∧ s.sameMemory t ∧ t.mem.mesh.find? q.id =
        some { q with stage := .dram, due := s.clock.cyc + dramCycles }) ∧
      (¬ miss → ∃ t, exec .homeServe s = .next t ∧ (∀ n, n < 2 ^ 63 → t.readHome n = after.1.readHome n) ∧
        t.mem.served.find? q.station = some s.clock.cyc ∧
        (after.2.done = true → after.2.value = none → t.mem.mesh.find? q.id = none) ∧
        (after.2.done = true → after.2.value ≠ none → ∃ r, t.mem.mesh.find? q.id = some r ∧ r.stage = .returning ∧
          r.due = s.clock.cyc + (if p.op.plain then 56 else 70) + 2 * q.hops + 18 * q.crossings ∧ r.parts = [after.2]))) ∧
    (∀ p, s.serveDue = some q → q.parts = [p] → p.done = false → q.eng ≠ 0 → p.op.plain = true → p.op.reads = true → isHost p.loc = true →
      s.partReady q p = false → s.unreachable p.loc = false → ∃ t, exec .homeServe s = .next t ∧ s.sameMemory t ∧
        becomes t { q with stage := .dram, due := s.clock.cyc + 280 }) ∧
    (∀ p, s.meshIn .dram = some q → q.parts = [p] → p.done = false → s.partReady q p = false →
      ∃ t r, exec .dramSupply s = .next t ∧ s.sameMemory t ∧ becomes t r ∧ r.stage = .queued ∧ r.parts = [p]) ∧
    (∀ p z sg src, s.meshIn .dram = some q → q.parts = [p] → p.done = false → q.eng ≠ 0 → p.op = .load z sg src → isHost p.loc = false →
      s.partReady q p = true → p.loc + sizeBytes z ≤ 2 ^ 63 →
      let byte := fun (j : Nat) => match src.given.find? fun o => o.1 == j with
        | some o => o.2
        | none => s.versionByte src.obj src.version (p.loc + j)
      ∃ t r, exec .dramSupply s = .next t ∧ s.sameMemory t ∧ becomes t r ∧ r.stage = .returning ∧
        r.due = s.clock.cyc + 56 + 2 * q.hops + 18 * q.crossings ∧
        r.parts = [{ p with done := true, value := some ((List.range (sizeBytes z)).map byte) }]) ∧
    (∀ p bs e l, s.meshIn .returning = some q → q.parts = [p] → q.eng ≠ 0 → p.value = some bs → s.engine q.eng = some e →
      e.lanes.find? p.lane = some l → s.returnPoison q = none → s.repair.reads = [] →
      (∀ z sg acq, p.op = .load z sg acq → z ≤ 5 → bs.length = 2 ^ z → l.status = .ready → ∃ t e' l', exec .valueReturn s = .next t ∧ s.sameMemory t ∧
        t.mem.mesh.find? q.id = none ∧ t.engine q.eng = some e' ∧ e'.lanes.find? p.lane = some l' ∧ Spec.Loaded q.dest z sg bs l l' ∧
        l'.preds = l.preds ∧ l'.pc = l.pc) ∧
      (∀ op v w, p.op = .far op true v w 4 → bs.length = 4 → l.status = .ready → ∃ t e' l', exec .valueReturn s = .next t ∧ s.sameMemory t ∧
        t.mem.mesh.find? q.id = none ∧ t.engine q.eng = some e' ∧ e'.lanes.find? p.lane = some l' ∧
        l'.reg q.dest = BitVec.ofNat 32 (leValue bs) ∧ ∀ k, k ≠ q.dest → l'.reg k = l.reg k)) ∧
    (∀ p e, s.xlatDue = some p → p.work ≠ .fetch → s.engine p.eng = some e →
      let view := { s with ctxs := { s.ctxs with table := s.ctxs.table.put e.ctx { s.context e.ctx with ptb := p.root } } }
      let found := view.reached e .load p.parts
      (∀ vs, found = .ats vs → ∃ t, exec .translationComplete s = .next t ∧ s.sameMemory t ∧
        ∀ r ∈ t.xlat.pending, r.id = p.id → r.due = none) ∧
      (∀ a k x n, found = .fault a k x n → exec .translationComplete s = .next (s.abortRegion p.issue p.issue.lanes a k x n .load)) ∧
      (∀ d z sg loc k a l, found = .go [⟨k, a, loc⟩] → p.work = .load d z sg → z ≤ 5 → p.parts = [(k, a)] → spaceOf a ≠ 4 → loc < 2 ^ 63 →
        s.poisoned [⟨k, a, loc⟩] p.work.size = none → s.loadsHere p.eng e p.obj p.version ⟨k, a, loc⟩ = false →
        e.lanes.find? k = some l →
        ∃ t r, exec .translationComplete s = .next t ∧ s.sameMemory t ∧ (∀ y ∈ t.xlat.pending, y.id ≠ p.id) ∧
          r ∈ Store.vals t.mem.mesh ∧ r.eng = p.eng ∧ r.dest = d ∧ r.wait = p.id ∧ r.home = homeOf s e.place.die loc ∧
          r.due = s.clock.cyc + 40 + 2 * r.hops + 18 * r.crossings ∧ ∃ y src, r.parts = [y] ∧ y.lane = k ∧ y.loc = loc ∧
            y.op = .load z sg src ∧ src.obj = p.obj ∧ src.version = p.version) ∧
      (∀ d z sg loc k a l, found = .go [⟨k, a, loc⟩] → p.work = .load d z sg → z ≤ 5 → p.parts = [(k, a)] → spaceOf a ≠ 4 → loc < 2 ^ 63 →
        s.poisoned [⟨k, a, loc⟩] p.work.size = none → s.loadsHere p.eng e p.obj p.version ⟨k, a, loc⟩ = true → s.repair.reads = [] →
        e.lanes.find? k = some l →
        ∃ t e' l', exec .translationComplete s = .next t ∧ (∀ r ∈ t.xlat.pending, r.id ≠ p.id) ∧ t.engine p.eng = some e' ∧
          e'.lanes.find? k = some l' ∧
          Spec.Loaded d z sg (s.loadBytes (e.older p.seen) p.obj p.version (spaceOf a) loc (2 ^ z)) l l'))

/-- R152, R162, R163, R168, R169 and R271: waits end at their cycle, a yield after 16 cycles; a posted entry enters its hand-off queue; and the
held operations of a DET launch are applied at its `dflush` and at its end, in the order of block, gang, lane and sequence. -/
def Sys2Proof.Spec.WaitsEnd : Prop :=
  ∀ (s : State),
    (∀ w c, s.wakeDue = some w → w.kind = .until_ c → c ≤ s.clock.cyc ∧
      ∃ t, exec .sleepUntilWake s = .next t ∧ s.sameMemory t ∧ Spec.Woken s t w id) ∧
    (∃ t, exec .yieldExpire s = .next t ∧ s.sameMemory t ∧ ∀ n, t.engine n = (s.engine n).map fun e =>
      if (e.yieldFrom.map fun c => decide (c + 16 ≤ s.clock.cyc)) = some true then { e with yieldFrom := none } else e) ∧
    (∀ w key v, s.postDue = some (w, key, v) → s.taker key = none → ∃ t, exec .hqEntryEnter s = .next t ∧ s.sameMemory t ∧
      Store.get [] t.work.handoff key = Store.get [] s.work.handoff key ++ [v] ∧
      ∀ x ∈ t.work.waits, x.id = w.id → x.kind = .until_ (s.clock.cyc + 1)) ∧
    (∀ n b, s.flushDue = some (n, b) → s.heldReady (s.blockHeld b) = true → ∃ t b', exec .dflushDrain s = .next t ∧
      t.work.blocks.find? n = some b' ∧ b' = { b with drains := b.drains + 1 } ∧
      t.mem.cells = (s.applyHeld (s.blockHeld b)).mem.cells ∧ (∀ d ∈ t.mem.held, d ∈ s.mem.held ∧ d ∉ s.blockHeld b) ∧
      ∀ w ∈ t.work.waits, ¬ (w.kind = .dflush ∧ w.eng ∈ b.gangs)) ∧
    (∀ l, s.detEndDue = some l → s.heldReady (s.mem.held.filter fun d => d.launch == l.id) = true →
      (∀ d ∈ s.mem.held, d.loc < 2 ^ 64) → s.heldAway l.id = false → ∃ t l', exec .detEndDrain s = .next t ∧
      t.launch.launches.find? l.id = some l' ∧ l'.detDrained = true ∧ (∀ d ∈ t.mem.held, d.launch ≠ l.id) ∧
      t.mem.cells = (s.applyHeld (s.mem.held.filter fun d => d.launch == l.id)).mem.cells ∧
      (∀ n, (t.entry n).detRed = true → (t.entry n).detLaunch ≠ l.id ∨ s.own.entries.find? n = none) ∧
      ∀ n, (s.entry n).detLaunch = l.id → (s.own.entries.find? n).isSome = true → (t.entry n).detRed = false ∧ (t.entry n).detLaunch = 0) ∧
    (∀ (d : DetHeld) (t : State), s.unreachable d.loc = false → isHost d.loc = false → s.xlat.migrations = [] → 2 ^ 21 ≤ d.loc →
      d.loc + 4 ≤ 2 ^ 60 → t = s.applyHeld [d] →
      t.readHomeBytes d.loc 4 = leBytes 4
        (Spec.far d.op (BitVec.ofNat 32 (leValue (s.readHomeBytes d.loc 4))) (d.v.setWidth 32) (d.w.setWidth 32)).toNat)

/-- R11, R25, R194, R217 to R219, R222 and R471: register writes from outside an instruction obey the access codes; a write to SRESUME ends a
sequencer's handler; Reten answers the `ecall` services, and an unlisted one with 0xFFFF_FFFF. -/
def Sys2Proof.Spec.RegisterWritesAndServices : Prop :=
  ∀ (s : State),
    (∀ n e v, s.engine n = some e → e.isSeq = true →
      (e.inHandler = false → exec (.sresumeWrite n v) s = .next s) ∧
      (e.inHandler = true → v.getLsbD 0 = false → e.haltPend = false → ∃ t e', exec (.sresumeWrite n v) s = .next t ∧ s.sameMemory t ∧
        t.engine n = some e' ∧ e'.inHandler = false ∧ e'.sresume = v ∧
        ∀ k, e'.lanes.find? k = (e.lanes.find? k).map fun l =>
          { l with pc := v, restart := v, issued := false, handler := false, held := false })) ∧
    (∀ n e v, s.engine n = some e → s.privileged e = false → (∀ w ∈ s.xlat.pending, w.eng ≠ n) →
      let lanes := e.lanesWhere fun _ l => l.live
      exec (.registerWrite n 0x20 v) s = .next (s.raise { eng := n, cause := .priv, lanes, pc := (e.low lanes).pc
                                                          insn := s.insnAt e.ctx (e.low lanes).pc.toNat, faddr := 0, detail := 0 })) ∧
    (∀ n e v r, s.engine n = some e → (r = 0x20 → s.privileged e = true) → ∃ t, exec (.registerWrite n r v) s = .next t ∧ s.sameMemory t ∧
      (r = 0 → t = s.setEngine n { e with fpm := BitVec.ofNat 32 (
        (if 5 ≤ v.toNat % 8 then e.fpm.toNat % 8 else v.toNat % 8) + v.toNat / 2 ^ 8 % 8 * 2 ^ 8) }) ∧
      (r = 1 → t = s.setEngine n { e with tmode := v.setWidth 32 &&& 0x3F }) ∧
      (r = 2 → t = s.setEngine n { e with tvec := v.setWidth 32 &&& 0xFFFFFFFE }) ∧
      (r = 0x30 → t = s.setEngine n { e with tvec := v.setWidth 32 }) ∧
      (r = 0x20 → (s.ctxs.table.find? e.ctx).isSome = true → (t.context e.ctx).ptb = v.toNat) ∧
      (r ∉ [0, 1, 2, 0x20, 0x30] → t = s)) ∧
    (∀ w n v d, s.ecallDue = some (w, n, v, d) →
      let answers := fun (x : Instr) (a : Word) => ∃ t, exec x s = .next t ∧ s.sameMemory t ∧ t.host.ecalls = s.host.ecalls.drop 1 ∧
        Spec.Woken s t w fun l => l.setReg d a
      (n = 0 → answers .ecallNone 0) ∧
      (n = 1 → (s.host.nqHeld = [] ∧ s.host.nqUsed < s.host.nqLen ∨ s.host.nqHeld.length < 4096 → answers .ecallPost 0) ∧
        (¬ (s.host.nqHeld = [] ∧ s.host.nqUsed < s.host.nqLen) → 4096 ≤ s.host.nqHeld.length → answers .ecallPost 0xFFFFFFFE)) ∧
      (n = 2 → answers .ecallThrottle (BitVec.ofNat 32 s.clock.throttle)) ∧
      (n = 3 → answers .ecallResets (BitVec.ofNat 32 s.boot.resets)) ∧
      (4 ≤ n → answers .unlistedEcallService 0xFFFFFFFF))

/-- What completes in the cores, the waits that end, and register writes and services. -/
def Obligations.EventsOfCores : Prop := Spec.CoreEvents ∧ Spec.WaitsEnd ∧ Spec.RegisterWritesAndServices

/-! ## Launches and their placement -/

namespace Sys2Proof.Spec

/-- A slot that has retired: STATUS has its final value, the seal is 0, and the slot is IDLE. -/
def Retired (t : State) (slot status : Nat) : Prop :=
  t.readHomeBytes (512 * slot + 0x1F4) 4 = leBytes 4 status ∧ t.readHome (512 * slot + 511) = 0 ∧
    (Store.get .idle t.launch.slots slot).busy = false ∧ (Store.get .idle t.launch.slots slot).pending = false

end Sys2Proof.Spec

/-- R335 to R337, R341 to R343, R346, R350, R353 and R354: a seal written latches the words, and the trigger issues the launch id; a record is accepted, or
rejected with the code of its first breach; a start time comes; a message starts a handler run; an unbound mailbox and a complete
launch retire their slots, after the completion update. -/
def Obligations.LaunchesAndMailboxes : Prop :=
  ∀ (s : State) (slot : Nat), s.xlat.migrations = [] → slot < 4096 →
    (∀ v, let y := Store.get .idle s.launch.slots slot
      let t := s.sealWritten slot v
      (y.busy = false → v ≠ 0 → ∃ x, t.launch.slots.find? slot = some x ∧ x.busy = true ∧
        x.latchedId = leValue (s.readHomeBytes (512 * slot + 0x1F0) 4) ∧ x.latchedStatus = leValue (s.readHomeBytes (512 * slot + 0x1F4) 4) ∧
        t.launch.sealed = s.launch.sealed ++ [slot]) ∧
      (y.busy = true → v = 0 → t = { s with launch := { s.launch with unsealed := s.launch.unsealed ++ [slot] } }) ∧
      ((y.busy = true ↔ v ≠ 0) → t = s)) ∧
    (s.launch.sealed.contains slot = true → ∃ t x, exec (.slotTrigger slot) s = .next t ∧ t.launch.slots.find? slot = some x ∧
      x.busy = true ∧ x.pending = true ∧ x.latchedId = (Store.get .idle s.launch.slots slot).latchedId ∧
      x.latchedStatus = (Store.get .idle s.launch.slots slot).latchedStatus ∧ t.launch.counts.find? x.launch = some x.order ∧
      t.readHomeBytes (512 * slot + 0x1F0) 4 = leBytes 4 x.launch ∧
      (0 < s.launch.nextId → s.launch.nextId < 2 ^ 32 - 1 → (∀ l, s.launchOf s.launch.nextId = some l → l.retired = true) →
        (∀ kx ∈ s.launch.slots, kx.2.pending = true → kx.2.launch ≠ s.launch.nextId) →
        x.launch = s.launch.nextId) ∧
      ∀ a, a < 512 * slot + 0x1F0 ∨ 512 * slot + 0x1F4 ≤ a → a < 2 ^ 63 → t.readHome a = s.readHome a) ∧
    (∀ x, s.parseDue = some (slot, x) → s.parseMissing slot x (s.recordOf slot x) = [] →
      let r := s.recordOf slot x
      let parsed := { s with launch := { s.launch with slots := s.launch.slots.put slot { x with pending := false, raw := [], data := [] } } }
      (∀ c, parsed.judgeLaunch slot x r = .reject c → ∃ t, exec .launchParse s = .next t ∧ Spec.Retired t slot (2 * 2 ^ 30 + c * 2 ^ 16) ∧
        ∀ a, a < 512 * slot + 0x1F4 ∨ 512 * slot + 512 ≤ a → a < 2 ^ 63 → t.readHome a = s.readHome a) ∧
      (∀ a, parsed.judgeLaunch slot x r = .accept a → ∃ t l, exec .launchParse s = .next t ∧
        t.launch.launches.find? x.launch = some l ∧ l.id = x.launch ∧ l.slot = slot ∧ l.ctx = r.ctx ∧ l.grid = r.grid ∧ l.block = r.block ∧
        l.args = a.args ∧ l.kernel = a.kernel ∧ l.seq = a.seq ∧ l.prio = r.prio ∧ l.queue = r.queue ∧ l.retired = false ∧
        (r.mbox = true → t.launch.mailboxes.find? r.mboxn = some ⟨x.launch, [], none⟩) ∧
        (r.mbox = false → t.launch.queue = s.launch.queue ++ [x.launch] ∧ t.launch.passPending = true))) ∧
    (∀ x, s.parseDue = some (slot, x) → x.raw = [] →
      s.recordOf slot x = Rec.ofBytes (s.readHomeBytes (512 * slot) 512) ∧
      (s.parseMissing slot x (s.recordOf slot x) ≠ [] → ∃ t y, exec .launchParse s = .next t ∧ t.launch.slots.find? slot = some y ∧
        y = { x with raw := s.readHomeBytes (512 * slot) 512 })) ∧
    (∀ (x : Slot) (r : Rec), (s.recordRefused slot x r).isSome = true → s.parseMissing slot x r = []) ∧
    (∀ (x : Slot) (r : Rec),
      let verdict := s.judgeLaunch slot x r
      let clean := r.reserved = false ∧ x.latchedId = 0 ∧ x.latchedStatus = 0
      let owned := ∃ o, s.slotOwner slot = some o ∧ o.1 = r.ctx ∧ o.2.state ≠ .killing
      let extents := r.grid.1 ≠ 0 ∧ r.grid.2.1 ≠ 0 ∧ r.grid.2.2 ≠ 0 ∧ r.block.1 ≠ 0 ∧ r.block.2.1 ≠ 0 ∧ r.block.2.2 ≠ 0 ∧ r.threads ≤ 2048 ∧
        r.blocks ≤ 2 ^ 32 - 1
      (¬ clean → verdict = .reject 1) ∧
      (clean → ¬ owned → verdict = .reject 2) ∧
      (clean → owned → r.kimg % 64 ≠ 0 → verdict = .reject 3) ∧
      (clean → owned → s.headerAt r.ctx x.data r.kimg 0 = .bad → verdict = .reject 3) ∧
      (clean → owned → s.headerAt r.ctx x.data r.kimg 0 ≠ .bad → ¬ extents → verdict = .reject 4) ∧
      (∀ c, verdict = .reject c → 1 ≤ c ∧ c ≤ 12) ∧
      (∀ a, verdict = .accept a → clean ∧ owned ∧ extents ∧ s.headerAt r.ctx x.data r.kimg 0 = .ok a.kernel ∧ r.prio ≤ 47 ∧ r.queue ≤ 15 ∧
        r.arglen % 4 = 0 ∧ r.arglen ≤ 65536 ∧ (r.args = 0 → r.arglen ≤ 240) ∧ (r.seqMask = 0 ↔ r.simg = 0) ∧
        (r.hasStart = true → r.start ≠ 0) ∧
        (r.mbox = true → r.grid = (1, 1, 1) ∧ r.simg = 0 ∧ r.det = false ∧ s.mailbox r.mboxn = none ∧ 16 + r.arglen ≤ 65536))) ∧
    (∀ l, s.startDue = some l → (∀ c, l.start = some c → c ≤ s.clock.ptime) ∧ ∃ t, exec .startTimeMet s = .next t ∧ s.sameMemory t ∧
      t.launchOf l.id = some { l with startMet := true } ∧ t.launch.passPending = true) ∧
    (∀ l m, s.launch.unsealed.contains slot = true → s.launchOf (Store.get .idle s.launch.slots slot).launch = some l →
      s.mailbox l.mbox = some m → l.binding = true → m.launch = (Store.get .idle s.launch.slots slot).launch →
      ∃ t, exec (.mailboxUnbind slot) s = .next t ∧ t.mailbox l.mbox = none ∧
        (m.running = none → ∃ err, Spec.Retired t slot (3 * 2 ^ 30 + if err then 2 ^ 29 else 0) ∧ (l.donesig = 0 → err = l.err) ∧
          ∀ a, l.donesig ≠ 0 → s.quietLoc l.ctx .far l.donesig = some a → err = (s.signal a).getLsbD 63) ∧
        (m.running ≠ none → s.sameMemory t ∧ t.launch.slots = s.launch.slots)) ∧
    (∀ n m msg rest b, s.runDue = some (n, m) → m.waiting = msg :: rest → s.launchOf m.launch = some b →
      ∃ t id l, exec .mailboxRunStart s = .next t ∧ t.mailbox n = some { m with waiting := rest, running := some id } ∧
        t.launch.launches.find? id = some l ∧ l.id = id ∧ l.run = true ∧ l.args = msg ++ b.args ∧ l.arglen = msg.length + b.args.length ∧
        l.grid = b.grid ∧ l.block = b.block ∧ l.kernel = b.kernel ∧ l.ctx = b.ctx ∧ l.donesig = b.donesig ∧
        t.launch.queue = s.launch.queue ++ [id] ∧ t.launch.passPending = true) ∧
    (∀ l, s.launchDone = some l → l.slot = slot → ∃ t err, exec .launchComplete s = .next t ∧
      (∀ kv ∈ t.work.engines, kv.2.launch ≠ l.id) ∧ (∀ kb ∈ t.work.blocks, kb.2.launch ≠ l.id) ∧
      (∀ kb ∈ t.launch.binds, kb.2.launch ≠ l.id) ∧ l.id ∉ t.launch.queue ∧
      (l.run = false → Spec.Retired t slot (3 * 2 ^ 30 + if err then 2 ^ 29 else 0) ∧
        (t.launchOf l.id).map Launch.retired = some true) ∧
      (∀ m, l.run = true → s.mailbox l.mbox = some m → m.running = some l.id → t.mailbox l.mbox = some { m with running := none }) ∧
      (l.donesig = 0 → err = l.err) ∧
      ∀ a, l.donesig ≠ 0 → s.quietLoc l.ctx .far l.donesig = some a → 2 ^ 21 ≤ a → a < 2 ^ 60 →
        let m := leValue (s.readHomeBytes a 8)
        t.readHomeBytes a 8 = leBytes 8 (m / 2 ^ 63 * 2 ^ 63 + (m % 2 ^ 63 + 1) % 2 ^ 63) ∧
        ((s.updateSignal l.ctx l.donesig completionUpdate).quietLoc l.ctx .far l.donesig = some a → err = decide (2 ^ 63 ≤ m)))

/-- R228, R237 to R239, R355 to R360 and R364: the timer asks for a pass every 65,536 cycles; a pass frees the records that are done; an
armed block starts on a core of its record, its gangs' lanes at the kernel's first instruction; the other dies learn of a DET
block's start; and the records of a bin form a gang, which takes a core's place and then runs. -/
def Obligations.PlacementAndPoolGangs : Prop :=
  ∀ (s : State),
    (s.passTimerDue = true → s.clock.cyc % 65536 = 0 ∧ ∃ t, exec .passTimer s = .next t ∧ s.sameMemory t ∧ t.launch.passPending = true ∧
      t.passTimerDue = false) ∧
    (s.resumeDue = none → s.launch.passPending = true → ∃ t, exec .retenPass s = .next t ∧ s.sameMemory t ∧ t.launch.passPending = false ∧
      ∀ kb ∈ t.launch.binds, kb.2.state ≠ 3) ∧
    (∀ l b core, s.launch.binds = [] →
      let t := s.arm l [b] [(b, core)]
      ∃ n r, t.launch.binds = [(n, r)] ∧ r.die = core / 128 ∧ r.launch = l.id ∧ r.first = b ∧ r.count = 1 ∧ r.coreset = 2 ^ (core % 128) ∧
        r.state = 1 ∧ r.next = 0 ∧ r.armcyc = s.clock.cyc ∧ r.group = s.launch.groups ∧
        r.prio = max l.prio (s.context l.ctx).priomin - (s.clock.cyc - l.since.getD s.clock.cyc) / 2 ^ 18) ∧
    (∀ l num r core seats off, s.blockStartDue = some (l, num, r, core, seats, off) → ∃ t key b, exec .blockStart s = .next t ∧
      s.sameMemory t ∧ r.coreset.testBit (core % 128) = true ∧ r.armcyc + 16 ≤ s.clock.cyc ∧
      t.launch.binds.find? num = some { r with state := 2, next := r.next + 1 } ∧
      t.launch.lastStart.find? (core / 128) = some s.clock.cyc ∧
      t.work.blocks.find? key = some b ∧ b.launch = l.id ∧ b.index = r.first + r.next * r.stride ∧ b.resident = true ∧ b.exited = 0 ∧
      b.gangs.length = seats.length ∧
      ∀ g n, b.gangs[g]? = some n → ∃ e, t.engine n = some e ∧ e.launch = l.id ∧ e.block = some key ∧ e.gangIndex = g ∧
        e.width = l.kernel.gangw ∧ e.prio = r.prio ∧
        (e.region 0).kind = .shared ∧ (e.region 0).extent = l.arglen ∧ (e.region 0).base = (s.context l.ctx).argCopy l.slot ∧
        (∀ k, (e.lanes.find? k).isSome = true ↔ k < e.width ∧ g * e.width + k < l.block.1 * l.block.2.1 * l.block.2.2) ∧
        ∀ k y, e.lanes.find? k = some y → y.status = .ready ∧ y.pc = BitVec.ofNat 32 l.kernel.code ∧ y.thread = g * e.width + k ∧
          y.block = b.index) ∧
    (∀ c die id n l, s.noticeDue = some (c, die, id, n) → s.launchOf id = some l → c ≤ s.clock.cyc ∧
      ∃ t, exec .detStartNotice s = .next t ∧ s.sameMemory t ∧
        t.launchOf id = some { l with announced := l.announced.put die (n, s.clock.cyc) }) ∧
    (∀ cl bin b, s.flushDeadline = some (cl, bin) → (s.pool cl).bins.find? bin = some b → ∃ t f, exec .poolFlushDeadline s = .next t ∧
      s.sameMemory t ∧ (t.pool cl).formed = (s.pool cl).formed ++ [f] ∧ f.launch = b.launch ∧ f.pc = b.pc ∧ f.hosted = none ∧
      f.records = b.records.take (s.widthOf b.launch) ∧
      (((t.pool cl).bins.find? bin).map Bin.records).getD [] = b.records.drop (s.widthOf b.launch)) ∧
    (∀ cl k f l core x, s.hostDue = some (cl, k, f, l, core, x) → (s.pool cl).formed[k]? = some f → ∃ t n e due, exec .poolGangHost s = .next t ∧ s.sameMemory t ∧
      t.engine n = some e ∧ e.launch = l.id ∧ e.place.coreId = core ∧ e.width = l.kernel.gangw ∧ core / 8 = cl ∧
      (s.context l.ctx).cores.testBit core = true ∧ s.clock.cyc + 16 ≤ due ∧
      (t.pool cl).formed[k]? = some { f with hosted := some (n, due) } ∧
      ∀ j r, f.records[j]? = some r → ∃ y, e.lanes.find? j = some y ∧ y.status = .waiting ∧ y.pc = r.pc ∧ y.thread = r.thread ∧
        y.block = r.block ∧ y.preds = r.preds) ∧
    (∀ cl k n e, s.readyDue = some (cl, k, n) → s.engine n = some e → ∃ t e', exec .poolGangReady s = .next t ∧ s.sameMemory t ∧
      t.engine n = some e' ∧ (t.pool cl).formed = (s.pool cl).formed.eraseIdx k ∧
      ∀ j, e'.lanes.find? j = (e.lanes.find? j).map fun y => { y with status := .ready })

/-! ## Contexts, commands of the host, and boot -/

namespace Sys2Proof.Spec

/-- What an answer to the host's command leaves: the status word in the entry, the next entry at the head, and MSI-X vector 1. -/
def Answered (s t : State) (status result : Nat) : Prop :=
  t.host.cmdHead = (s.host.cmdHead + 1) % 64 ∧ t.host.msi = s.host.msi ++ [1] ∧
    leValue ((List.range 4).map fun i => Store.get 0 t.host.ring (64 * (s.host.cmdHead % 64) + 0x3C + i)) = status + 2 ^ 16 * result

/-- Every byte of an entry is 0 that the layout or the command does not use: OP, TAG and STATUS apart, CTX where the command names a
context, and the operands, given as offsets and counts. -/
def Zeros (b : List Byte) (named : Bool) (used : List (Nat × Nat)) : Prop :=
  (∀ i, 0 < i → i < 0x3C → ¬ (4 ≤ i ∧ i < 8) → ¬ (named = true ∧ (i = 2 ∨ i = 3)) → (∀ u ∈ used, ¬ (u.1 ≤ i ∧ i < u.1 + u.2)) →
    entryField b i 1 = 0) ∧ entryCtx b < 1024

/-- The commands but RECOVER, by R467 and R469: opcode, whether one names a context, and its operands; of PAGEDONE and BIAS the one that
the entry's verdict or direction names. -/
def commands (b : List Byte) : List (Instr × Nat × Bool × List (Nat × Nat)) :=
  [(.create, 0x01, false, [(8, 8)]), (.suspend, 0x02, true, []), (.resume, 0x03, true, []), (.kill, 0x04, true, []),
    (if entryField b 12 1 = 0 then .pagedoneMapped else .pagedoneUnmappable, 0x05, true, [(8, 5)]),
    (if entryField b 16 1 = 1 then .biasDevice else .biasHost, 0x06, false, [(8, 9)]), (.route, 0x07, false, [(8, 19)]),
    (.keycreate, 0x08, false, [(8, 2), (16, 32)]), (.keydrop, 0x09, false, [(8, 2)]),
    (.rkey, 0x0A, true, [(8, 1), (10, 2), (12, 4), (16, 8)]), (.range, 0x0B, false, [(8, 2), (16, 16)]), (.linkreset, 0x0C, false, [(8, 2)]),
    (.dbgattach, 0x0D, true, []), (.dbgdetach, 0x0E, true, []), (.dbghalt, 0x0F, true, [(8, 1), (12, 4)]),
    (.dbgresume, 0x10, true, [(8, 2), (12, 4), (16, 8)]), (.dbgstops, 0x11, true, [(8, 8), (16, 4)]),
    (.slotread, 0x12, false, [(8, 8), (16, 1)]), (.trace, 0x13, true, [(8, 8), (16, 8), (24, 1)]), (.crashread, 0x15, false, [(8, 8)]),
    (.reset, 0x16, false, [])]

/-- The host's command `b` of an opcode stands at the head of a running device's ring, its bytes as they should be. -/
def Commanded (s : State) (b : List Byte) (op : Nat) (named : Bool) (used : List (Nat × Nat)) : Prop :=
  s.commandDue = some b ∧ entryOp b = op ∧ s.boot.mode = .running ∧ Zeros b named used

/-- As `Commanded`, for a command that names a context `c` that it may name (R368). -/
def Named (s : State) (b : List Byte) (op : Nat) (used : List (Nat × Nat)) (c : Context) : Prop :=
  Commanded s b op true used ∧ s.ctxs.table.find? (entryCtx b) = some c ∧ c.state ≠ .free ∧ c.state ≠ .killing

end Sys2Proof.Spec

/-- R464, R467, R468 and R368: a command is answered with status 3 outside Reten's run, with status 1 where a byte that should be 0 is
not, where it names a context that is FREE or KILLING, and where its opcode is not listed; an answer writes the status word, moves
the head and raises vector 1. -/
def Obligations.CommandsRefused : Prop :=
  ∀ (s : State) (b : List Byte),
    (∀ status result, status < 256 → result < 2 ^ 16 → Spec.Answered s (s.answer status result) status result) ∧
    (s.commandDue = some b →
      (∀ x ∈ Spec.commands b, entryOp b = x.2.1 →
        (s.boot.mode ≠ .running → exec x.1 s = .next (s.answer 3 0)) ∧
        (s.boot.mode = .running → ¬ Spec.Zeros b x.2.2.1 x.2.2.2 → exec x.1 s = .next (s.answer 1 0)) ∧
        (s.boot.mode = .running → Spec.Zeros b x.2.2.1 x.2.2.2 → x.2.2.1 = true →
          (∀ c, s.ctxs.table.find? (entryCtx b) = some c → c.state = .free ∨ c.state = .killing) → exec x.1 s = .next (s.answer 1 0))) ∧
      (entryOp b = 0 ∨ 0x16 < entryOp b →
        (s.boot.mode ≠ .running → exec .unlistedCommand s = .next (s.answer 3 0)) ∧
        (s.boot.mode = .running → exec .unlistedCommand s = .next (s.answer 1 0))))

/-- R365, R366, R368, R374, R377, R378, R380 and R381: contexts are created at the lowest free number, suspended, resumed and killed. -/
def Sys2Proof.Spec.ContextsComeAndGo : Prop :=
  ∀ (s : State) (b : List Byte) (c : Context),
    let d := s.descriptor b
    let n := entryCtx b
    (Spec.Commanded s b 0x01 false [(8, 8)] → entryField b 8 8 % 256 = 0 → entryField b 8 8 < 2 ^ 52 → s.createNeed b = .go →
      (s.freeContext = none → exec .create s = .next (s.answer 1 0)) ∧
      ∀ num, s.freeContext = some num →
        (∀ k, k < num → ∃ x, (k, x) ∈ s.ctxs.table ∧ x.state ≠ .free) ∧
        (descriptorOk d num = false ∨ s.contextFits (contextOf d) = false → exec .create s = .next (s.answer 1 0)) ∧
        ∀ layers, descriptorOk d num = true → s.contextFits (contextOf d) = true → s.layersOf num d = some layers →
          ∃ t k, exec .create s = .next (t.answer 0 num) ∧ s.sameMemory t ∧ t.host.cmdHead = s.host.cmdHead ∧
            t.ctxs.table.find? num = some k ∧ k.state = .active ∧ k.ptb = fieldAt d 0 8 ∧ k.save = fieldAt d 8 8 ∧
            k.priomin = fieldAt d 0x33 1 ∧ k.slotFirst = fieldAt d 0x34 2 ∧ k.slotCount = fieldAt d 0x36 2 ∧ k.ngslot = fieldAt d 0x38 2 ∧
            k.nbslot = fieldAt d 0x3A 2 ∧ k.nsslot = fieldAt d 0x3D 1 ∧ (k.privileged = true ↔ fieldAt d 0x3C 1 % 2 = 1) ∧ k.layers = layers) ∧
    (Spec.Named s b 0x02 [] c →
      (c.state = .suspending ∨ c.state = .suspended → exec .suspend s = .next (s.answer 0 0)) ∧
      (c.state = .active → ∃ t, exec .suspend s = .next (t.answer 0 0) ∧ s.sameMemory t ∧ (t.context n).state = .suspending ∧
        (t.context n).byPriority = false ∧ t.host.cmdHead = s.host.cmdHead)) ∧
    (Spec.Named s b 0x03 [] c →
      (c.state = .active ∨ c.state = .resuming → exec .resume s = .next (s.answer 0 0)) ∧
      (c.state = .suspended → s.restorable n = false → ∃ status, status ≠ 0 ∧ exec .resume s = .next (s.answer status 0)) ∧
      (c.state = .suspended → s.restorable n = true → ∃ t, exec .resume s = .next (t.answer 0 0) ∧ s.sameMemory t ∧
        (t.context n).state = .resuming ∧ t.host.cmdHead = s.host.cmdHead)) ∧
    (Spec.Named s b 0x04 [] c → ∃ t, exec .kill s = .next (t.answer 0 0) ∧ s.sameMemory t ∧ (t.context n).state = .killing ∧
      (∀ k e, s.engine k = some e → e.ctx = n → ∃ e', t.engine k = some e' ∧ e'.ended = true ∧ (e.ended = false → e'.beats = [])) ∧
      (∃ w ∈ t.own.walks, w.for_ = .kill n ∧ w.next = 0) ∧ ∀ w ∈ t.ctxs.swapIns, w.ctx ≠ n) ∧
    (∀ k, s.suspendDue = some (k, c) → s.ctxs.table.find? k = some c →
      (c.saveDone = 0 → ∃ t, exec .suspendComplete s = .next t ∧ (t.context k).state = .suspending ∧ s.clock.cyc < (t.context k).saveDone) ∧
      (c.saveDone ≠ 0 → c.saveDone ≤ s.clock.cyc ∧ ∃ t, exec .suspendComplete s = .next t ∧ (t.context k).state = .suspended ∧
        t.launch.passPending = true ∧
        ∀ a, s.quietLoc k .store c.save = some a → c.save % 4096 = 0 → a < 2 ^ 60 → s.xlat.migrations = [] →
          t.readHomeBytes a 8 = leBytes 8 s.clock.cyc)) ∧
    (∀ k, s.priorityDue = some k → ∃ t, exec .prioritySuspend s = .next t ∧ s.sameMemory t ∧
      (∃ x, (k, x) ∈ s.ctxs.table ∧ x.state = .active) ∧
      (t.context k).state = .suspending ∧ (t.context k).byPriority = true) ∧
    (∀ k, s.resumeDue = some (k, c) → ∃ t, exec .retenPass s = .next t ∧ (t.context k).state = .active ∧ t.launch.passPending = true ∧
      ∀ j e l m, t.engine j = some e → e.ctx = k → e.lanes.find? l = some m → m.lastPage = none)

/-- R379 to R381: a walk takes 256 entries in each cycle; an orphaned exclusive borrow leaves its entry IDLE and ABANDONED at the next
version, a shared one counts down; the end of a KILL frees the context, whose launches retire with ERR. -/
def Sys2Proof.Spec.ReclaimWalks : Prop :=
  ∀ (s : State),
    (∀ w, s.walkDue = some w → w.next < 319 → ∃ t, exec .reclaimWalk s = .next t ∧
      ∃ w' ∈ t.own.walks, w'.for_ = w.for_ ∧ w'.start = w.start ∧ w'.next = w.next + 1) ∧
    (∀ w n, s.walkDue = some w → w.next = 319 → w.for_ = .kill n → ∃ t, exec .reclaimWalk s = .next t ∧ t.ctxs.table.find? n = none ∧
      (∀ x ∈ t.own.entries, x.2.ctx = n → x.2.kind = .free) ∧ t.launch.passPending = true ∧
      ∀ k l, t.launch.launches.find? k = some l → l.id = k → l.ctx = n → l.retired = true) ∧
    (∀ w n l, s.walkDue = some w → w.next = 319 → w.for_ = .launch n → s.launchOf n = some l → ∃ t l', exec .reclaimWalk s = .next t ∧
      t.launchOf n = some l' ∧ l'.reclaimed = true) ∧
    (∀ l, s.walkDue = none → s.orphansDue = some l → ∃ t w, exec .reclaimWalk s = .next t ∧ s.sameMemory t ∧
      t.own.walks = s.own.walks ++ [w] ∧ w.for_ = .launch l.id ∧ w.next = 0) ∧
    (∀ eng h e (r : Region), r.child = false → r.version ≠ 0 → r.kind = .exclusive → objPkg r.base = none →
      let x := s.entry r.obj
      (s.reclaimRegion eng h e r).entry r.obj =
        { x with kind := .idle, version := if x.version = 2 ^ 32 - 1 then 1 else x.version + 1, abandoned := true, writing := false })

/-- Contexts, and the walk that takes back the borrows of one that is gone. -/
def Obligations.ContextsAndReclaim : Prop := Spec.ContextsComeAndGo ∧ Spec.ReclaimWalks

/-- R463 to R466: the device boots from flash at a cold reset, an image that fails a check leaves it in recovery; a warm reset keeps the
crash record and ends every context; RECOVER runs what the recovery window holds. -/
def Obligations.BootAndResets : Prop :=
  ∀ (s : State) (b : List Byte),
    let good := fun (u : State) => u.boot.accepts u.boot.flashImage
    (∀ image, s.boot.accepts image = true → fieldAt image 0 4 = 0x52455401 ∧ fieldAt image 8 4 ≤ 262144 - 512 ∧
      fieldAt image 0x10 48 = Config.sha384 ((image.drop 512).take (fieldAt image 8 4)) ∧ s.boot.configField 4 4 ≤ fieldAt image 4 4 ∧
      Config.ecdsaVerifies Config.retenKey (Config.sha384 (image.take 0x40)) ((image.drop 0x40).take 96) = true ∧
      fieldAt s.boot.config 0 4 = 0x43464701) ∧
    (∀ config, (fieldAt config 0 4 ≠ 0x43464701 ∨ (∃ i, i < 32 ∧ config.getD (0x20 + i) 0 ≠ 0) ∨
      fieldAt config 0x40 48 ≠ Config.sha384 (config.take 0x40)) → configOk config = false) ∧
    (∃ t, exec .coldReset s = .next t ∧ t.boot.flashImage = s.boot.flashImage ∧ t.boot.flashConfig = s.boot.flashConfig ∧
      t.boot.config = s.boot.flashConfig ∧ t.boot.resets = 0 ∧ t.clock.cyc = 0 ∧ t.clock.wall = 0 ∧ t.mem = State.reset.mem ∧
      t.ctxs = State.reset.ctxs ∧ t.work = State.reset.work ∧
      (good { s with boot := { s.boot with config := s.boot.flashConfig } } = true →
        t.boot.mode = .running ∧ t.boot.image = s.boot.flashImage ∧ t.boot.cause = 0) ∧
      (good { s with boot := { s.boot with config := s.boot.flashConfig } } = false → t.boot.mode = .recovery ∧ t.boot.cause = 4)) ∧
    (∀ x cause, (x = .retenFatal ∧ cause = 3) ∨ (x = .watchdogTimeout ∧ cause = 2 ∧ s.watchdogDue = true) ∨
        (x = .reset ∧ cause = 1 ∧ Spec.Commanded s b 0x16 false []) →
      ∃ t, exec x s = .next t ∧ s.sameMemory t ∧ t.boot.resets = (s.boot.resets + 1) % 2 ^ 32 ∧ t.boot.crashWall = s.clock.wall ∧
        t.boot.crashSvn = s.boot.svn ∧ (good s = true → t.boot.mode = .running ∧ t.boot.cause = cause ∧ t.boot.image = s.boot.flashImage) ∧
        (good s = false → t.boot.mode = .recovery ∧ t.boot.cause = 4) ∧
        (x = .reset → Spec.Answered s t 0 0) ∧
        ∀ n c, s.ctxs.table.find? n = some c → c.state ≠ .free → (t.context n).state = .killing) ∧
    (s.watchdogDue = true ↔ s.boot.mode = .running ∧ s.clock.kick + 2 ^ 24 ≤ s.clock.wall) ∧
    exec .watchdogKick s = .next { s with clock := { s.clock with kick := s.clock.wall } } ∧
    (s.commandDue = some b → entryOp b = 0x14 → Spec.Zeros b false [(8, 1)] → entryField b 8 1 < 4 →
      let window := fun (n : Nat) => (List.range n).map fun i => Store.get 0 s.boot.window i
      let image := window (512 + min (262144 - 512) (fieldAt (window 12) 8 4))
      let config := window (0x70 + 96)
      let persists := entryField b 8 1 % 2 = 1
      (s.boot.mode = .running → exec .recover s = .next (s.answer 3 0)) ∧
      (s.boot.mode = .recovery → entryField b 8 1 < 2 → s.boot.accepts image = false → exec .recover s = .next (s.answer 2 0)) ∧
      (s.boot.mode = .recovery → entryField b 8 1 < 2 → s.boot.accepts image = true → ∃ t, exec .recover s = .next t ∧ s.sameMemory t ∧
        Spec.Answered s t 0 0 ∧ t.boot.mode = .running ∧ t.boot.image = image ∧ (persists → t.boot.flashImage = image) ∧
        (¬ persists → t.boot.flashImage = s.boot.flashImage)) ∧
      (s.boot.mode = .recovery → 2 ≤ entryField b 8 1 → configOk config = false → exec .recover s = .next (s.answer 2 0)) ∧
      (s.boot.mode = .recovery → 2 ≤ entryField b 8 1 → configOk config = true → ∃ t, exec .recover s = .next t ∧ s.sameMemory t ∧
        Spec.Answered s t 0 0 ∧ t.boot.config = config ∧ (persists → t.boot.flashConfig = config) ∧
        (¬ persists → t.boot.flashConfig = s.boot.flashConfig)))

/-- R466, R470, R472, R474 and R475: the crash record goes to the host; held notifications are posted in order while the ring has room; the
device answers the SPDM requests, with the measurements before what the protocol fixes (their bytes are the model's free values); and
the throttle level follows power and temperature, from the next window. -/
def Obligations.RecordsAttestationAndThrottle : Prop :=
  ∀ (s : State) (b : List Byte),
    (Spec.Commanded s b 0x15 false [(8, 8)] →
      (entryField b 8 8 % 64 ≠ 0 → exec .crashread s = .next (s.answer 1 0)) ∧
      (entryField b 8 8 % 64 = 0 → ∃ t image, exec .crashread s = .next (t.answer 0 0) ∧ s.sameMemory t ∧
        t.host.out = s.host.out ++ [.hostStore (entryField b 8 8) image] ∧ image.length = 4096 ∧
        fieldAt image 0 4 = s.boot.resets % 2 ^ 32 ∧ fieldAt image 4 1 = s.boot.cause % 256 ∧
        fieldAt image 8 8 = s.boot.crashWall % 2 ^ 64 ∧ fieldAt image 0x14 4 = s.boot.crashSvn % 2 ^ 32)) ∧
    (∀ v, ∃ t k, exec (.nqheadWrite v) s = .next t ∧ s.sameMemory t ∧ t.host.nqHead = v % 2 ^ 32 ∧ k ≤ s.host.nqHeld.length ∧
      t.host.nqHeld = s.host.nqHeld.drop k ∧ t.host.msi = s.host.msi ++ List.replicate k 0 ∧
      (t.host.nqHeld = [] ∨ t.host.nqLen ≤ t.host.nqUsed)) ∧
    (∀ req x code, (x, code) ∈ [(Instr.getVersion req, 0), (.getCapabilities req, 1), (.negotiateAlgorithms req, 2), (.getDigests req, 3),
        (.getCertificate req, 4), (.challenge req, 5)] →
      exec x s = .next { s with host := { s.host with out := s.host.out ++ [.spdm code (Config.spdmAnswer req)] } }) ∧
    (∀ req, exec (.getMeasurements req) s = .next { s with host := { s.host with out := s.host.out ++
      [.spdm 6 (leBytes 48 Config.bootRomDigest ++ (s.boot.image.drop 0x10).take 48 ++ leBytes 4 s.boot.svn ++
        (s.boot.config.drop 0x40).take 48 ++ Config.spdmAnswer req)] } }) ∧
    (∀ req, ∃ t, exec (.keyExchange req) s = .next t ∧ s.sameMemory t ∧ t.boot.session = true ∧
      t.host.out = s.host.out ++ [.spdm 7 (Config.spdmAnswer req)]) ∧
    (∀ req, ∃ t, exec (.finish req) s = .next t ∧ s.sameMemory t ∧
      (t.boot.ideKeys = true ↔ s.boot.ideKeys = true ∨ s.boot.session = true) ∧
      t.host.out = s.host.out ++ [.spdm 8 (Config.spdmAnswer req)]) ∧
    (s.throttleDue = true → s.clock.evaluated + 2 ^ 16 ≤ s.clock.wall ∧
      let p := Config.power s.clock.wall
      let c := Config.temperature s.clock.wall
      let plimit := s.boot.configField 0x18 2
      let tlimit := s.boot.configField 0x1A 2
      let was := s.clock.throttleNext
      ∃ t, exec .throttleEvaluation s = .next t ∧ s.sameMemory t ∧ t.clock.evaluated = s.clock.wall ∧ t.clock.throttle = s.clock.throttle ∧
        (0 < plimit → plimit < p → (t.clock.throttleNext : Rat) = min 48 (was + Rat.ceil (64 * ((p : Rat) - plimit) / plimit))) ∧
        (p ≤ plimit → tlimit < c → t.clock.throttleNext = min 48 (was + 1)) ∧
        (100 * p < 95 * plimit → c + 50 < tlimit → t.clock.throttleNext = was - 1) ∧
        (p ≤ plimit → c ≤ tlimit → ¬ (100 * p < 95 * plimit ∧ c + 50 < tlimit) → t.clock.throttleNext = was)) ∧
    (s.windowDue = true → s.clock.wall % 64 = 0 ∧ ∃ t, exec .throttleWindowStart s = .next t ∧ s.sameMemory t ∧
      t.clock.throttle = s.clock.throttleNext ∧ t.windowDue = false ∧
        ∀ w, ({ t with clock := { t.clock with wall := w } } : State).bubble = true ↔ 64 ≤ w % 64 + s.clock.throttleNext)

/-! ## Ownership between dies and packages -/

/-- R80, R159, R254 to R256, R270, R412, R413 and R424: a die's table takes four requests in a cycle; a request for an object homed on its die is
judged at the entry, which it claims where it is free, and waits; elsewhere a valid lease grants a shared borrow in 60 cycles, with the same
checks, a package without a key is answered NOKEY, an object that the die has offered is granted there, and any other request sends a
message. -/
def Sys2Proof.Spec.RequestsArrive : Prop :=
  ∀ (s : State) (r : BorrowReq) (id : Nat) (e : Engine), s.requestDue = some r → r.who = .eng id → s.engine id = some e →
    let answered := fun (status : Nat) => ∃ t q, exec .borrowRequestArrive s = .next t ∧ s.sameMemory t ∧ q ∈ t.own.requests ∧ q.id = r.id ∧
      q.stage = .answered (s.clock.cyc + 60) status
    let was := s.entry r.obj
    let x : OwnEntry := if was.kind = .free then
      { OwnEntry.blank with kind := .idle, ctx := e.ctx, base := r.base, span := r.extent, version := 1 } else was
    let inside := x.base ≤ r.base ∧ r.base + r.extent ≤ x.base + x.span ∧ (x.layerEntry = true → r.layer ≠ none)
    let die := e.place.die
    let key := r.pkg.bind fun k => s.importKey e.ctx k r.obj
    let proxy := s.proxyOf die r.pkg r.obj
    let lease := r.exclusive = false ∧ ∃ p c, proxy = some p ∧ p.expiry = some c ∧ s.clock.cyc < c
    let offered := r.exclusive = true ∧ ∃ p, proxy = some p ∧ p.offered = true
    let waits := r.pkg = none ∧ (s.tilesBusy r.base r.extent = true ∨
      ((s.party r).det = true ∧ permitsFar r.exclusive r.base = true ∧ s.farHeldOutside r.obj (s.party r).launch = true))
    (s.own.tabled.filter fun x => x == (die, s.clock.cyc)).length < 4 ∧
    (r.pkg = none → objDie r.obj = die → s.windowGrants id e r.exclusive r.obj r.base r.extent = true →
      (x.ctx ≠ e.ctx → answered 5) ∧
      (x.ctx = e.ctx → ¬ inside → answered 7) ∧
      (x.ctx = e.ctx → inside → State.detRefuses x (s.party r) r = true → answered 2) ∧
      (x.ctx = e.ctx → inside → State.detRefuses x (s.party r) r = false → r.try_ = false → ∃ t q, exec .borrowRequestArrive s = .next t ∧
        q ∈ t.own.requests ∧ q.id = r.id ∧ q.stage = .queued ∧ (was.kind = .free → (t.entry r.obj).ctx = e.ctx ∧
          (t.entry r.obj).base = r.base ∧ (t.entry r.obj).span = r.extent ∧ (t.entry r.obj).version = 1))) ∧
    (r.pkg ≠ none → key = none → answered 6) ∧
    (r.pkg = none → objDie r.obj ≠ die → lease → ¬ waits → ∀ n, s.entryRefuses r was = some n → answered n) ∧
    (¬ (r.pkg = none ∧ objDie r.obj = die) → (r.pkg = none → s.entryRefuses r was = none) → (r.pkg = none ∨ key ≠ none) → lease → ¬ waits →
      ∃ t q p p', exec .borrowRequestArrive s = .next t ∧ s.sameMemory t ∧ proxy = some p ∧ q ∈ t.own.requests ∧ q.id = r.id ∧
        q.stage = .answered (s.clock.cyc + 60) (s.grantStatus r) ∧ q.version = p.version ∧ t.proxyOf die r.pkg r.obj = some p' ∧
        p'.holders = p.holders + 1 ∧ p'.expiry = p.expiry) ∧
    (¬ (r.pkg = none ∧ objDie r.obj = die) → (r.pkg = none ∨ key ≠ none) → offered → answered (s.grantStatus r)) ∧
    (r.pkg = none → objDie r.obj ≠ die → ¬ offered → (lease → waits) → ∃ t q m, exec .borrowRequestArrive s = .next t ∧ s.sameMemory t ∧
      q ∈ t.own.requests ∧ q.id = r.id ∧ q.stage = .sent ∧
      t.own.messages = s.own.messages ++ [(s.clock.cyc + 36 * dieCrossings die (objDie r.obj), m)] ∧
      m.type = (if r.exclusive then 1 else 2) ∧ m.obj = r.obj ∧ m.tag = r.id % 2 ^ 16 ∧ m.srcDie = die ∧ m.dstDie = objDie r.obj ∧ m.key = 0)

/--  R254, R411 to R416 and R425: what each ownership message does, at a proxy entry and at a home.  The tag of an LRETURN as the number of
grants that it gives back is the model's choice (log entry 44). -/
def Sys2Proof.Spec.OwnershipMessages : Prop :=
  ∀ (s : State) (m : OwnMsg),
    let u := s.takeMessage m
    let taken := { u with own := { u.own with
      tabled := (objDie (m.obj % 2 ^ 18), s.clock.cyc) :: s.own.tabled.filter fun x => x.2 == s.clock.cyc } }
    let obj := m.obj % 2 ^ 18
    let leases := Store.get [] s.own.leases obj
    let from_ := if m.srcPkg = s.pkgId then none else some m.srcPkg
    let answered := fun (t : State) (r : BorrowReq) (n : Nat) => ∃ q ∈ t.own.requests, q.id = r.id ∧ q.stage = .answered s.clock.cyc n
    (∀ id e r, s.requestOf m = some r → r.who = .eng id → s.engine id = some e →
      let p := (s.proxyOf m.dstDie r.pkg r.obj).getD (.fresh m.dstDie r.pkg r.obj)
      (r.exclusive = true → ∃ t, exec (.grant m) s = .next t ∧ s.sameMemory t ∧ answered t r m.status ∧
        t.proxyOf m.dstDie r.pkg r.obj = some { p with exclusive := true, version := m.version }) ∧
      (r.exclusive = false → ∃ t, exec (.grant m) s = .next t ∧ s.sameMemory t ∧ answered t r m.status ∧
        t.proxyOf m.dstDie r.pkg r.obj = some { p with
          holders := p.holders + 1, version := m.version, expiry := some (s.clock.cyc + m.lease), recalled := false, renewSent := false
          grants := p.grants + 1 }) ∧
      ∃ t, exec (.deny m) s = .next t ∧ s.sameMemory t ∧ answered t r m.status ∧ t.own.proxies = s.own.proxies) ∧
    (s.requestOf m = none → exec (.deny m) s = .next u) ∧
    (∃ t, exec (.msgReturn m) s = .next t ∧ s.sameMemory t ∧
      let x := s.entry m.obj
      t.entry m.obj = if x.kind = .excl ∧ x.version = m.version then { x with kind := .idle, scope := 7, writing := false } else x) ∧
    (∀ l, leases.find? (fun l => l.pkg == m.srcPkg && l.die == m.srcDie) = some l →
      let n := if m.srcPkg = s.pkgId ∧ m.tag ≠ 0 then min m.tag l.count else l.count
      ∃ t, exec (.lreturn m) s = .next t ∧ s.sameMemory t ∧ (n = l.count → ∀ x ∈ Store.get [] t.own.leases obj, x ∈ leases ∧ x ≠ l) ∧
        (n < l.count → { l with count := l.count - n } ∈ Store.get [] t.own.leases obj) ∧
        ((s.entry obj).retired = 0 → (t.entry obj).holders = (s.entry obj).holders - n ∧
          (0 < n → (s.entry obj).holders ≤ n → (t.entry obj).kind ≠ .shared))) ∧
    (m.srcPkg = s.pkgId → m.dstPkg = s.pkgId →
      let reply := fun (t : State) (type n : Nat) => ∃ a, t.own.messages =
        u.own.messages ++ [(s.clock.cyc + 36 * dieCrossings m.dstDie m.srcDie, a)] ∧ a.type = type ∧ a.lease = n ∧ a.dstDie = m.srcDie ∧
        a.srcDie = m.dstDie ∧ a.obj = m.obj ∧ a.tag = m.tag
      (∀ l, leases.find? (fun l => l.pkg == m.srcPkg && l.die == m.srcDie) = some l →
        (l.recalled = false → (∀ q ∈ s.waitingAt obj, q.exclusive = false) → ∃ t, exec (.renew m) s = .next t ∧ s.sameMemory t ∧
          t.gauzeOf obj = min (2 * s.gauzeOf obj) (2 ^ 22) ∧ reply t 8 (min (2 * s.gauzeOf obj) (2 ^ 22))) ∧
        (l.recalled = true ∨ (∃ q ∈ s.waitingAt obj, q.exclusive = true) → ∃ t, exec (.renew m) s = .next t ∧ s.sameMemory t ∧
          t.own.gauze = s.own.gauze ∧ reply t 4 0)) ∧
      (∀ p, s.proxyOf m.dstDie none obj = some p → p.expiry ≠ none → p.holders = 0 → p.exclusive = false → p.die = m.dstDie → p.obj = obj →
        p.pkg = none → ∃ t a, exec (.recall m) s = .next t ∧ s.sameMemory t ∧ t.proxyOf m.dstDie none obj = none ∧
        t.own.messages = u.own.messages ++ [(s.clock.cyc + 36 * dieCrossings m.dstDie (objDie obj), a)] ∧ a.type = 6 ∧ a.version = p.version)) ∧
    (∀ p, s.proxyOf m.dstDie from_ obj = some p →
      (∃ t, exec (.renewed m) s = .next t ∧ s.sameMemory t ∧
        t.proxyOf m.dstDie from_ obj = some { p with expiry := some (s.clock.cyc + m.lease), renewSent := false }) ∧
      (p.expiry ≠ none → p.holders ≠ 0 → ∃ t, exec (.recall m) s = .next t ∧ s.sameMemory t ∧
        t.proxyOf m.dstDie from_ obj = some { p with recalled := true })) ∧
    exec (.wbdone m) s = .next u ∧
    (∃ t, exec (.unknownOwnershipMessage m) s = .next t ∧ s.sameMemory t ∧
      let port := (Store.get [] s.host.routes m.srcPkg).headD 0
      (Store.get .down t.host.ports port).errors = (Store.get .down s.host.ports port).errors + 1) ∧
    (∀ f ∈ [(Instr.reqx m, true), (.reqs m, false)],
      (∀ r, m.srcPkg = s.pkgId → s.requestOf m = some r → r.withdrawn = true → ∃ t, exec f.1 s = .next t ∧ s.sameMemory t ∧
        ∀ q ∈ t.own.requests, q.id ≠ r.id) ∧
      (∀ r, m.srcPkg = s.pkgId → s.requestOf m = some r → r.withdrawn = false → exec f.1 s = .next (taken.atEntry r)) ∧
      (m.srcPkg ≠ s.pkgId →
        let denied := fun (n : Nat) => exec f.1 s = .next (taken.sendOuter (replyTo m 4 n))
        (s.exportKey m.key = none → denied 6) ∧
        ∀ k, s.exportKey m.key = some k →
          (k.obj ≠ m.obj ∨ (if f.2 then k.rights / 2 % 2 = 0 else k.rights % 2 = 0) → denied 6) ∧
          (k.obj = m.obj → (if f.2 then k.rights / 2 % 2 = 1 else k.rights % 2 = 1) → (s.entry obj).kind ≠ .free → (s.entry obj).ctx = k.ctx →
            ∃ (v : State) (r : BorrowReq), exec f.1 s = .next (v.atEntry r) ∧ r ∈ v.own.requests ∧ r.who = .package m.srcPkg m.srcDie m.tag ∧ r.obj = obj ∧
              r.exclusive = f.2 ∧ r.base = (s.entry obj).base + k.offset ∧ r.extent = k.len)))

/-- R263 to R265, R322 and R447: a write-back that has its lines ends, and its entry's scope widens unless a new borrow has taken the object;
one towards another package sends RETURN; a failed one poisons its lines, and a frame with cause IMPRECISE is recorded; and R414 to
R416: leases are renewed, run out, and are given up when their holder is lost. -/
def Sys2Proof.Spec.WriteBacksAndLeases : Prop :=
  ∀ (s : State),
    (∀ w, s.writeBackDue = some w →
      (∀ pkg die, w.away = some (pkg, die) → exec .writebackComplete s = .next ((s.endWriteBack w).sendReturn die pkg w.obj w.version)) ∧
      (w.away = none → s.writeBackMissing w = [] → w.due ≤ s.clock.cyc ∧ ∃ t, exec .writebackComplete s = .next t ∧ w ∉ t.own.writeBacks ∧
        (t.entry w.obj).version = (s.entry w.obj).version ∧ (t.entry w.obj).kind = (s.entry w.obj).kind ∧
        (t.entry w.obj).scope =
          if (s.entry w.obj).version = w.version ∧ (s.entry w.obj).kind ≠ .excl then w.scope else (s.entry w.obj).scope) ∧
      (w.away = none → s.writeBackMissing w ≠ [] → ∃ t, exec .writebackComplete s = .next t ∧ s.sameMemory t ∧
        ∀ l ∈ s.writeBackMissing w, ∃ q ∈ t.host.cxlReqs, q.hpa = l * 128 - 2 ^ 60 ∧ q.own = true)) ∧
    (∀ w, s.writeBackFailed = some w →
      let lost := fun (l : Nat) => if w.fail = 0 then l ∈ s.writeBackMissing w else isHost (l * 128) = true ∧ ∃ c ∈ w.cells, lineOf c.1 = l
      (w.blame = none → ∃ t, exec .writebackFail s = .next t ∧ w ∉ t.own.writeBacks ∧ ∀ l, lost l → l ∈ t.mem.poison) ∧
      (∀ n pc lanes e, w.blame = some (n, pc, lanes) → s.engine n = some e → ∃ (u : State) (e' : Engine) (q : TrapReq) (flags : Nat),
        exec .writebackFail s = .next (u.recordFault e.launch (e'.frame q flags)) ∧ w ∉ u.own.writeBacks ∧
        (∀ l, lost l → l ∈ u.mem.poison) ∧ q.cause = .imprecise ∧ q.pc = pc ∧ q.lanes = lanes ∧ (w.away ≠ none → q.faddr = w.faddr) ∧ q.detail = (if w.fail = 0 then 2 else w.fail))) ∧
    (∀ p, s.renewDue = some p → p.pkg = none → (∃ c, p.expiry = some c ∧ c ≤ s.clock.cyc + 1024) ∧ p.holders ≠ 0 ∧
      ∃ t m, exec .renewTimer s = .next t ∧ s.sameMemory t ∧
        t.own.messages = s.own.messages ++ [(s.clock.cyc + 36 * dieCrossings p.die (objDie p.obj), m)] ∧ m.type = 7 ∧ m.obj = p.obj ∧
        t.proxyOf p.die p.pkg p.obj = some { p with renewSent := true }) ∧
    (∀ p, s.expiryDue = some p → p.pkg = none → (∃ c, p.expiry = some c ∧ c ≤ s.clock.cyc) ∧
      ∃ t m, exec .leaseExpiry s = .next t ∧ s.sameMemory t ∧ m ∈ t.own.messages ∧ m.2.type = 6 ∧ m.2.obj = p.obj ∧ m.2.version = p.version ∧
        ∀ n e h r, s.engine n = some e → e.place.die = p.die → e.regions.find? h = some r → r.kind = .shared → r.version = p.version →
          r.version ≠ 0 → r.obj = p.obj → objPkg r.base = none → ∃ e', t.engine n = some e' ∧ (e'.region h).kind = .none ∧
            (e'.region h).status = 1) ∧
    (∀ obj l, s.lostDue = some (obj, l) → l.since + 2 ^ 23 ≤ s.clock.cyc ∧ ∃ t, exec .lostHolderTimeout s = .next t ∧ s.sameMemory t ∧
      (∃ u : State, t = u.notify (padTo 32 (Config.notice 4 obj l.pkg)) ∧ u.host = s.host) ∧
      (obj < 2 ^ 18 → Store.get [] s.own.leases obj = [l] → Store.get [] t.own.leases obj = []))

/-- Borrow requests at entries and between dies: messages, write-backs and leases. -/
def Obligations.BorrowsBetweenDies : Prop := Spec.RequestsArrive ∧ Spec.OwnershipMessages ∧ Spec.WriteBacksAndLeases

/-! ## Abaot Link -/

/-- R6, R145, R410, R418 to R420, R422, R425 and R429: flits and channels; a packet leaves only with credit; what arrives is taken, forwarded, held
for the writes that it counts, checked against its key and its borrow, and answered; and an answer reaches the lane that asked. -/
def Obligations.PacketsOfOtherPackages : Prop :=
  ∀ (s : State) (p : Packet),
    let enters := fun (kind : InboundKind) =>
      Host.Outcome.next { s with host := { s.host with inbox := .inboundAccess { kind, pkt := p } :: s.host.inbox } }
    let held := fun (kind : Nat) => Host.Outcome.next { s with host := { s.host with heldPackets := s.host.heldPackets ++ [(kind, p)] } }
    (∀ x ∈ [(0, 1, 1), (1, 1, 1), (2, 1, 1), (3, 2, 1), (4, 5, 2), (5, 5, 3), (6, 1, 3), (7, 1, 3), (8, 1, 3)],
      packetFlits x.1 = x.2.1 ∧ packetChannel x.1 = x.2.2) ∧
    (∀ pkg kind port, s.host.unsent = [] → s.routePort pkg (packetChannel kind) = some port →
      (packetFlits kind ≤ s.credit port (packetChannel kind) → (s.host.ports.find? port).isSome = true →
        (s.sendPacket pkg kind p).host.out = s.host.out ++ [.packet pkg kind { p with port, dst := pkg }] ∧
        (s.sendPacket pkg kind p).credit port (packetChannel kind) = s.credit port (packetChannel kind) - packetFlits kind) ∧
      (s.credit port (packetChannel kind) < packetFlits kind →
        s.sendPacket pkg kind p = { s with host := { s.host with unsent := [(pkg, kind, p)] } })) ∧
    (∀ k x, s.transit = none → s.receivable = some k → s.host.wire[k]? = some x →
      ∃ t, exec .linkReceive s = .next t ∧ s.sameMemory t ∧ t.host.inbox = s.host.inbox ++ [x] ∧ t.host.wire = s.host.wire.eraseIdx k ∧
        t.host.out = s.host.out ++ [.linkAck (s.inputPort x)]) ∧
    (s.bubble = true → s.transit = none) ∧
    (∀ k x kind, s.transit = some (k, x) → inputPacket x = some (kind, p) →
      s.bubble = false ∧ s.host.inbox[k]? = some x ∧ p.dst ≠ s.pkgId ∧ ∃ (u : State), exec .linkReceive s = .next (u.sendPacket p.dst kind p) ∧
        u.host.inbox = s.host.inbox.eraseIdx k ∧ u.host.wire = s.host.wire ∧ s.sameMemory u) ∧
    (∀ port chan n, s.host.unsent = [] → s.host.unsentOwn = [] → ∃ t, exec (.creditReturn port chan n) s = .next t ∧ s.sameMemory t ∧
      t.credit port chan = s.credit port chan + n) ∧
    exec (.readRequest p) s = enters .read ∧ exec (.postedWrite p) s = enters .write ∧
    (p.count ≤ Store.get 0 s.host.performed p.src →
      exec (.farOperationPacket p) s = enters .far ∧ exec (.signalPacket p) s = enters .signal) ∧
    (Store.get 0 s.host.performed p.src < p.count → exec (.farOperationPacket p) s = held 1 ∧ exec (.signalPacket p) s = held 2) ∧
    (∀ m, s.mailbox p.addr = some m →
      (m.waiting.length < 256 → ∃ (u : State), exec (.mailboxMessage p) s = .next (u.answerPacket p 6 [] false 0) ∧
        (u.mailbox p.addr).map Mailbox.waiting = some (m.waiting ++ [padTo 16 (p.data.map fun b => b.getD 0)])) ∧
      (256 ≤ m.waiting.length → exec (.mailboxMessage p) s = .next (s.nakPacket p 1))) ∧
    (∀ (a : Inbound), a.pkt = p →
      (∀ k, s.inboundAllowed a k = true → k.obj = p.obj ∧ (s.entry k.obj).kind ≠ .free ∧ (s.entry k.obj).ctx = k.ctx ∧
        (a.kind = .read → k.rights % 2 = 1 ∧ ∀ i, i < p.len → ((s.entry k.obj).base + k.offset) % 2 ^ 48 ≤ p.addr + i ∧
          p.addr + i < ((s.entry k.obj).base + k.offset) % 2 ^ 48 + k.len) ∧
        (a.kind = .write → k.rights / 2 % 2 = 1) ∧ (a.kind = .far ∨ a.kind = .signal → k.rights / 4 % 2 = 1)) ∧
      (s.exportKey p.key = none ∨ (∃ k, s.exportKey p.key = some k ∧ s.inboundAllowed a k = false) →
        exec (.inboundAccess a) s = .next (s.refuseInbound a)) ∧
      (a.kind ≠ .write → s.refuseInbound a = s.nakPacket p 2) ∧
      ∀ k loc n pe, s.exportKey p.key = some k → s.inboundAllowed a k = true →
        resolve s { last := none, core := none, cluster := portCluster p.port, ctx := k.ctx } none (inboundKind a) p.addr = .at_ loc n pe →
        let home := homeOf s (portCluster p.port / 16) loc
        ∃ t q, exec (.inboundAccess a) s = .next t ∧ s.sameMemory t ∧ q ∈ Store.vals t.mem.mesh ∧ q.eng = 0 ∧ q.home = home ∧
          q.stage = .travelling ∧
          q.due = s.clock.cyc + n + 40 + 2 * hops (portCluster p.port) home + 18 * crossings (portCluster p.port) home ∧
          q.parts.map (fun x => (x.loc, x.op)) = (inboundOps a).map fun o => (loc + o.1, o.2)) ∧
    (∀ x, s.inboundLate = some x → x.arrived + 8192 ≤ s.clock.cyc ∧ ∃ (u : State),
      exec .inboundFaultTimeout s = .next (u.nakPacket x.acc.pkt 0) ∧ (∀ y ∈ u.xlat.inbound, y.id ≠ x.id) ∧
      u.xlat.reports = s.xlat.reports) ∧
    (∀ r e l, s.engine r.eng = some e → e.lanes.find? r.lane = some l →
      let ended := fun (t : State) => ∀ y ∈ t.host.remote, y.id ≠ r.id
      let poisoned := fun (x : Instr) => ∃ (u : State) (q : TrapReq), exec x s = .next (u.raise q) ∧ s.sameMemory u ∧ ended u ∧
        q.cause = .poison ∧ q.eng = r.eng ∧ q.lanes = listMask [r.lane] ∧ q.faddr = r.addr ∧ q.pc = r.pc
      (s.remoteOf p [0, 8] = some r → r.kind = 0 → r.size ≤ 5 →
        (p.poison = true → poisoned (.readData p)) ∧
        (p.poison = false → ∃ t e' l', exec (.readData p) s = .next t ∧ s.sameMemory t ∧ ended t ∧ t.engine r.eng = some e' ∧
          e'.lanes.find? r.lane = some l' ∧ Spec.Loaded r.dest r.size r.signed ((List.range (2 ^ r.size)).map fun j =>
            match r.given.find? fun o => o.1 == j with
            | some o => o.2
            | none => (p.data.map fun b => b.getD 0).getD j 0) l l')) ∧
      (s.remoteOf p [1, 2] = some r → l.status = .ready →
        (p.poison = true → poisoned (.farOpResult p)) ∧
        (p.poison = false → r.size = 4 → ∃ t e' l', exec (.farOpResult p) s = .next t ∧ s.sameMemory t ∧ ended t ∧ t.engine r.eng = some e' ∧
          e'.lanes.find? r.lane = some l' ∧
          l'.reg r.dest = BitVec.ofNat 32 (leValue (padTo 4 (p.data.map fun b => b.getD 0))) ∧
          ∀ k, k ≠ r.dest → l'.reg k = l.reg k)) ∧
      (s.remoteOf p [1, 2, 3, 4] = some r → ∃ t, exec (.completion p) s = .next t ∧ s.sameMemory t ∧ ended t)) ∧
    (∀ r, s.remoteOf p [0, 1, 2, 3, 4, 8] = some r →
      (p.reason ≠ 2 → ∃ t y, exec (.nak p) s = .next t ∧ s.sameMemory t ∧ y ∈ t.host.remote ∧ y.id = r.id ∧
        y.resendAt = some (s.clock.cyc + 1024)) ∧
      (∀ e l, p.reason = 2 → r.kind ≠ 8 → s.engine r.eng = some e → s.launchOf e.launch = some l → ∃ t l', exec (.nak p) s = .next t ∧
        t.launchOf e.launch = some l' ∧ l'.failed = true)) ∧
    (∀ r, s.resendDue = some r → (∃ c, r.resendAt = some c ∧ c ≤ s.clock.cyc) ∧ ∃ (u : State) (y : RemoteReq),
      exec .nakResend s = .next (u.sendPacket r.pkg (if r.kind = 8 then 0 else r.kind) r.packet) ∧ y ∈ u.host.remote ∧ y.id = r.id ∧
      y.resendAt = none ∧ y.sent = s.clock.cyc)

/-- R417, R419, R426, R430, R455 and R465: a link that the configuration enables trains, a port with 128 credits in each channel; a flit that
fails its check counts and, once its replay has failed 8 times running, fails the link; a link that fails is reported, its reads
complete poisoned, and only LINKRESET restores it. -/
def Sys2Proof.Spec.LinksTrainAndFail : Prop :=
  ∀ (s : State) (n : Nat),
    let l := Store.get Link.down s.host.ports n
    (s.enabled (.port n) = true ↔ s.boot.mode = .running ∧ n < 16 ∧ s.boot.configField 0x1C 2 / 2 ^ n % 2 = 1) ∧
    (s.enabled (.cxl n) = true ↔ s.boot.mode = .running ∧ n < 2 ∧ s.boot.configField 0x1E 1 / 2 ^ n % 2 = 1) ∧
    (∀ link, s.enabled link = false → exec (.linkTrained link) s = .next s) ∧
    (s.enabled (.port n) = true → s.host.unsent = [] → s.host.unsentOwn = [] → ∃ t, exec (.linkTrained (.port n)) s = .next t ∧
      s.sameMemory t ∧ (Store.get .down t.host.ports n).trained = true ∧ ∀ c, c < 4 → t.credit n c = 128) ∧
    (s.enabled (.cxl n) = true → ∃ t, exec (.linkTrained (.cxl n)) s = .next t ∧ s.sameMemory t ∧
      (Store.get .down t.host.cxl n).trained = true) ∧
    (l.flits < 8 → ∃ t, exec (.flitCheckFail n) s = .next t ∧ s.sameMemory t ∧ (Store.get .down t.host.ports n).flits = l.flits + 1 ∧
      (Store.get .down t.host.ports n).failed = l.failed) ∧
    (8 ≤ l.flits → ∃ t, exec (.flitCheckFail n) s = .next t ∧ (Store.get .down t.host.ports n).failed = true) ∧
    (∃ (u : State), exec (.linkFailure (.port n)) s = .next (u.notify (padTo 32 (Config.notice 5 1 n))) ∧
      (Store.get .down u.host.ports n).failed = true) ∧
    (∃ (u : State), exec (.linkFailure (.cxl n)) s = .next (u.notify (padTo 32 (Config.notice 5 0 n))) ∧
      (Store.get .down u.host.cxl n).failed = true ∧ ∀ r ∈ s.host.cxlReqs, s.linkOf r.hpa = some n → r ∉ u.host.cxlReqs) ∧
    (∀ r e, s.host.remote = [r] → r.port = n → r.kind = 0 → s.engine r.eng = some e → (∀ w, (e.lane r.lane).status ≠ .sleeping w) →
      ∃ (u : State) (q : TrapReq), exec (.linkFailure (.port n)) s = .next ((u.raise q).notify (padTo 32 (Config.notice 5 1 n))) ∧
        q.cause = .poison ∧ q.eng = r.eng ∧ q.lanes = listMask [r.lane] ∧ q.faddr = r.addr ∧ u.host.remote = []) ∧
    (∀ link, s.linkTimeout = some link → exec .linkRequestTimeout s = exec (.linkFailure link) s) ∧
    (s.linkTimeout = some (.port n) → ∃ (u : State), exec .linkRequestTimeout s = .next (u.notify (padTo 32 (Config.notice 5 1 n))) ∧
      (Store.get .down u.host.ports n).failed = true) ∧
    (s.linkTimeout = some (.cxl n) → ∃ (u : State), exec .linkRequestTimeout s = .next (u.notify (padTo 32 (Config.notice 5 0 n))) ∧
      (Store.get .down u.host.cxl n).failed = true) ∧
    (∀ b, Spec.Commanded s b 0x0C false [(8, 2)] →
      let k := entryField b 9 1
      (1 < entryField b 8 1 ∨ (entryField b 8 1 = 0 ∧ 2 ≤ k) ∨ 16 ≤ k → exec .linkreset s = .next (s.answer 1 0)) ∧
      (entryField b 8 1 = 0 → k < 2 → ∃ t, exec .linkreset s = .next (t.answer 0 0) ∧ s.sameMemory t ∧
        Store.get .down t.host.cxl k = { Store.get Link.down s.host.cxl k with failed := false }) ∧
      (entryField b 8 1 = 1 → k < 16 → ∃ t, exec .linkreset s = .next (t.answer 0 0) ∧ s.sameMemory t ∧
        Store.get .down t.host.ports k = { Store.get Link.down s.host.ports k with failed := false }))

/-- R420, R424, R426 and R469: the commands that write routes, export and import keys, and host ranges. -/
def Sys2Proof.Spec.RoutesKeysAndRanges : Prop :=
  ∀ (s : State) (b : List Byte),
    let refused := fun (x : Instr) => exec x s = .next (s.answer 1 0)
    let done := fun (x : Instr) (after : State → Prop) => ∃ t, exec x s = .next (t.answer 0 0) ∧ s.sameMemory t ∧
      t.host.cmdHead = s.host.cmdHead ∧ after t
    (Spec.Commanded s b 0x07 false [(8, 19)] →
      let pkg := entryField b 8 2
      let n := entryField b 10 1
      let ports := (List.range n).map fun i => entryField b (11 + i) 1
      (2 ^ 12 ≤ pkg ∨ 16 < n ∨ (∃ p ∈ ports, 16 ≤ p) → refused .route) ∧
      (pkg < 2 ^ 12 → n ≤ 16 → (∀ p ∈ ports, p < 16) → s.host.unsent = [] → s.host.unsentOwn = [] → done .route fun t =>
        t.host.routes.find? pkg = (if n = 0 then none else some ports) ∧ ∀ k, k ≠ pkg → t.host.routes.find? k = s.host.routes.find? k)) ∧
    (Spec.Commanded s b 0x08 false [(8, 2), (16, 32)] →
      let f := fun (off n : Nat) => entryField b (16 + off) n
      let sound := f 0 8 ≠ 0 ∧ f 8 2 < 1024 ∧ f 10 1 < 8 ∧ f 11 1 = 0 ∧ entryField b 8 2 < 4096
      (¬ sound → f 12 4 < 2 ^ 18 → refused .keycreate) ∧
      (sound → f 12 4 < 2 ^ 18 → done .keycreate fun t => t.host.keys.find? (entryField b 8 2) =
        some { key := f 0 8, ctx := f 8 2, rights := f 10 1, obj := f 12 4, offset := f 16 8, len := f 24 8 })) ∧
    (Spec.Commanded s b 0x09 false [(8, 2)] →
      (4096 ≤ entryField b 8 2 → refused .keydrop) ∧
      (entryField b 8 2 < 4096 → done .keydrop fun t => t.host.keys.find? (entryField b 8 2) = none)) ∧
    (∀ c, Spec.Named s b 0x0A [(8, 1), (10, 2), (12, 4), (16, 8)] c →
      let n := entryField b 8 1
      (2 ^ 12 ≤ entryField b 10 2 → refused .rkey) ∧
      (entryField b 10 2 < 2 ^ 12 → entryField b 12 4 < 2 ^ 18 → done .rkey fun t =>
        (t.context (entryCtx b)).imports.find? n = if entryField b 16 8 = 0 then none
          else some { pkg := entryField b 10 2, obj := entryField b 12 4, key := entryField b 16 8 })) ∧
    (Spec.Commanded s b 0x0B false [(8, 2), (16, 16)] →
      let n := entryField b 8 1
      let link := entryField b 9 1
      let base := entryField b 16 8
      let len := entryField b 24 8
      (64 ≤ n ∨ 2 ≤ link ∨ base % 4096 ≠ 0 ∨ len % 4096 ≠ 0 → refused .range) ∧
      (n < 64 → link < 2 → base % 4096 = 0 → len % 4096 = 0 → done .range fun t =>
        t.host.ranges.find? n = if len = 0 then none else some { base, len, link }))

/-- Links, and the commands that write routes, keys and ranges. -/
def Obligations.LinksRoutesAndKeys : Prop := Spec.LinksTrainAndFail ∧ Spec.RoutesKeysAndRanges

/-! ## The host's memory, its accesses and its answers -/

/-- R292, R335, R405, R464, R467 and R470: a host read of device memory answers the bytes, a write performs them at their home and changes no
other; CMDTAIL, NQHEAD and the ring are written in BAR 0, the recovery window in BAR 2 only during recovery. -/
def Sys2Proof.Spec.HostAccesses : Prop :=
  ∀ (s : State) (addr : Nat) (data : List Byte),
    (∀ n, (2 ^ 40 < addr + n → exec (.hostMemRead addr n) s = .next s) ∧
      (addr + n ≤ 2 ^ 40 → ∃ t, exec (.hostMemRead addr n) s = .next t ∧ s.sameMemory t ∧
        t.host.out = s.host.out ++ [.memData addr (s.readHomeBytes addr n) (s.poisonAt addr n).isSome])) ∧
    (2 ^ 40 < addr + data.length → exec (.hostMemWrite .device addr data) s = .next s) ∧
    (addr + data.length ≤ 2 ^ 40 → s.xlat.migrations = [] → ∃ t, exec (.hostMemWrite .device addr data) s = .next t ∧
      t.readHomeBytes addr data.length = data ∧
      (∀ a, a < addr ∨ addr + data.length ≤ a → a < 2 ^ 63 → t.readHome a = s.readHome a) ∧
      ∀ slot v, slot < 4096 → addr = 512 * slot + 511 → data = [v] → (Store.get .idle s.launch.slots slot).busy = false →
        ((Store.get .idle t.launch.slots slot).busy = true ↔ v ≠ 0) ∧ (v ≠ 0 → slot ∈ t.launch.sealed)) ∧
    exec (.hostMemWrite .bar0 0x1000 data) s =
      .next { s with host := { s.host with cmdTail := leValue (data.take 4) % 64 } } ∧
    exec (.hostMemWrite .bar0 0x100C data) s = exec (.nqheadWrite (leValue (data.take 4))) s ∧
    (4096 ≤ addr → addr ≠ 0x1000 → addr ≠ 0x100C → exec (.hostMemWrite .bar0 addr data) s = .next s) ∧
    (addr + data.length ≤ 4096 → ∃ t, exec (.hostMemWrite .bar0 addr data) s = .next t ∧ s.sameMemory t ∧
      ∀ i, Store.get 0 t.host.ring i = if addr ≤ i ∧ i < addr + data.length then data.getD (i - addr) 0 else Store.get 0 s.host.ring i) ∧
    (s.boot.mode ≠ .recovery → exec (.hostMemWrite .bar2 addr data) s = .next s) ∧
    (s.boot.mode = .recovery → addr + data.length ≤ 262144 → ∃ t, exec (.hostMemWrite .bar2 addr data) s = .next t ∧ s.sameMemory t ∧
      ∀ i, Store.get 0 t.boot.window i = if addr ≤ i ∧ i < addr + data.length then data.getD (i - addr) 0 else Store.get 0 s.boot.window i)

/-- R403, R404, R427 and R429: a line of host memory that arrives stands in L2, exclusive where it was asked for to be written, marked where
it is poisoned; the host's snoops are answered with the package's data and change the line's state; translations of the host are
kept, and an invalidation drops those of its range. -/
def Sys2Proof.Spec.HostLinesAndTranslations : Prop :=
  ∀ (s : State) (hpa : Nat),
    let line := (2 ^ 60 + hpa) / 128
    let dirty := s.lineDirty line = true
    let here := fun (n : Nat) => s.readHomeBytes n 64
    let half := 2 ^ 60 + hpa / 64 * 64
    let other := 2 ^ 60 + hpa / 64 * 64 + 64 - 128 * (hpa / 64 % 2)
    (∀ r data poison, s.host.cxlReqs.find? (fun r => r.hpa == hpa) = some r → hpa % 128 = 0 → hpa < 2 ^ 52 → data.length = 128 →
      s.xlat.migrations = [] → ∃ t, exec (.cxlCacheData hpa data poison) s = .next t ∧ t.readHomeBytes (2 ^ 60 + hpa) 128 = data ∧
        (∀ a, a < 2 ^ 60 + hpa ∨ 2 ^ 60 + hpa + 128 ≤ a → a < 2 ^ 63 → t.readHome a = s.readHome a) ∧
        t.host.cxlReqs = s.host.cxlReqs.erase r ∧ (line ∈ t.mem.poison ↔ poison = true) ∧ t.mem.l2.find? line = some false ∧
        (r.own = true → t.lineState 0 line = .e ∧ ∀ d, 0 < d → d < 4 → t.lineState d line = .i) ∧
        (r.own = false → s.lineHeld line = false → t.lineState 0 line = .s) ∧ ∀ q ∈ t.xlat.pending, q.due ≠ none) ∧
    ((dirty → ∃ t, exec (.snpdata hpa) s = .next t ∧ s.sameMemory t ∧ t.host.out = s.host.out ++
        [.snoopResponse hpa (here half), .cxlWrite (other - 2 ^ 60) (here other) (s.mem.poison.contains line)]) ∧
      (¬ dirty → ∃ t, exec (.snpdata hpa) s = .next t ∧ s.sameMemory t ∧ t.host.out = s.host.out ++ [.snoopResponse hpa []]) ∧
      ∀ t, exec (.snpdata hpa) s = .next t →
        ∀ d, d < 4 → t.lineState d line = if s.lineState d line = .i then .i else .s) ∧
    ((dirty → ∃ t, exec (.snpinv hpa) s = .next t ∧ s.sameMemory t ∧ t.host.out = s.host.out ++
        [.snoopResponse hpa (here half), .cxlWrite (other - 2 ^ 60) (here other) (s.mem.poison.contains line)]) ∧
      (¬ dirty → ∃ t, exec (.snpinv hpa) s = .next t ∧ s.sameMemory t ∧ t.host.out = s.host.out ++ [.snoopResponse hpa []]) ∧
      ∀ t, exec (.snpinv hpa) s = .next t → hpa < 2 ^ 52 →
        (∀ kv ∈ t.mem.l2, kv.1 ≠ line) ∧ ∀ d, d < 4 → t.lineState d line = .i) ∧
    exec (.snpcur hpa) s = .next { s with host := { s.host with out := s.host.out ++
      [.snoopResponse hpa (if s.lineHeld line = true then here half else [])] } } ∧
    (∀ iova ans, ∃ t, exec (.atsCompletion iova ans) s = .next t ∧
      t.xlat.ats.find? iova = some (ans.getD { hpa := 0, read := false, write := false })) ∧
    ∀ iova len, ∃ t w, exec (.atsInvalidation iova len) s = .next t ∧
      ((∀ kv ∈ s.work.engines, kv.2.beats = []) → s.sameMemory t) ∧ w ∈ t.xlat.sweeps ∧ w.for_ = .ats iova len ∧
      w.reach ≤ s.clock.cyc + 100 ∧
      (∀ kv ∈ t.xlat.ats, ¬ (iova ≤ kv.1 ∧ kv.1 < iova + len)) ∧
      ∀ kv ∈ s.xlat.ats, iova ≤ kv.1 → kv.1 < iova + len →
        ∀ p ∈ (Store.vals t.xlat.core).flatten ++ (Store.vals t.xlat.cluster).flatten ++ (Store.vals t.xlat.die).flatten,
          p.frame = hostLoc kv.2.hpa → p.size = 0

/-- R315, R400, R405, R406 and R410: an answer to a fault report closes it and wakes those that wait on it, or ends their launches; a bias
command for a page that has the bias is done at once, and any other begins the flip. -/
def Sys2Proof.Spec.PageAnswersAndBias : Prop :=
  ∀ (s : State) (b : List Byte),
    (∀ c, Spec.Named s b 0x05 [(8, 5)] c →
      let ctx := entryCtx b
      let verdict := entryField b 12 1
      (verdict = 0 → s.reportOf ctx (entryField b 8 4) = none → exec .pagedoneMapped s = .next (s.answer 1 0)) ∧
      (2 ≤ verdict ∨ (verdict = 1 ∧ s.reportOf ctx (entryField b 8 4) = none) → exec .pagedoneUnmappable s = .next (s.answer 1 0)) ∧
      ∀ r, s.reportOf ctx (entryField b 8 4) = some r →
        (verdict = 0 → s.heldFor ctx r.seq = [] → s.inboundFor ctx r.seq = [] → s.work.copies = [] → s.work.matrix = [] →
          s.ctxs.swapIns = [] → ∃ (t : State), exec .pagedoneMapped s = .next (t.answer 0 0) ∧ s.sameMemory t ∧ r ∉ t.xlat.reports ∧
            t.host.cmdHead = s.host.cmdHead ∧ (∀ q ∈ t.xlat.pending, q.due ≠ none) ∧
            ∀ w ∈ s.pageWaits ctx r.seq, (∀ x ∈ t.work.waits, x.id ≠ w.id) ∧ ∀ e, s.engine w.eng = some e →
              (∀ x ∈ s.work.waits, x.eng = w.eng → x ∈ s.pageWaits ctx r.seq) → ∃ e', t.engine w.eng = some e' ∧ e'.asleep = false ∧
                e'.lanes = e.lanes) ∧
        (verdict = 1 → ∃ (t : State), exec .pagedoneUnmappable s = .next (t.answer 0 0) ∧ r ∉ t.xlat.reports ∧
          ∀ w ∈ s.pageWaits ctx r.seq, ∀ e l, s.engine w.eng = some e → s.launchOf e.launch = some l →
            ∃ l', t.launchOf e.launch = some l' ∧ l'.failed = true)) ∧
    (∀ f ∈ [(Instr.biasHost, true), (.biasDevice, false)], Spec.Commanded s b 0x06 false [(8, 9)] →
      entryField b 16 1 = (if f.2 then 0 else 1) →
      let pa := entryField b 8 8
      (pa % 4096 ≠ 0 ∨ 2 ^ 40 ≤ pa ∨ pa < 2 ^ 21 → exec f.1 s = .next (s.answer 1 0)) ∧
      (pa % 4096 = 0 → 2 ^ 21 ≤ pa → pa < 2 ^ 40 → s.flipOf (pa / 4096) = none →
        (s.xlat.hostBias.contains (pa / 4096) = f.2 → exec f.1 s = .next (s.answer 0 0)) ∧
        (s.xlat.hostBias.contains (pa / 4096) ≠ f.2 → ∃ t x, exec f.1 s = .next t ∧ s.sameMemory t ∧ t.xlat.flips = s.xlat.flips ++ [x] ∧
          x.page = pa / 4096 ∧ x.toHost = f.2 ∧ x.cmd.isSome = true ∧ t.xlat.hostBias = s.xlat.hostBias ∧
          (f.2 = false → x.pending.length = 64 ∧ t.host.out = s.host.out ++ x.pending.map fun n => .bisnp (64 * n)))))

/-- The accesses of the host, its memory and its translations. -/
def Obligations.HostAndItsMemory : Prop := Spec.HostAccesses ∧ Spec.HostLinesAndTranslations ∧ Spec.PageAnswersAndBias

/-! ## Debug, repair and the choice of issues -/

/-- R432 to R437 and R469: attachment; a halt stops every live lane of the engines that it names, or pends in a handler; a resumption makes
lanes ready; the stop frames and a die's slot table go to the host; and the trace buffer is set, its header cleared. -/
def Obligations.DebugCommands : Prop :=
  ∀ (s : State) (b : List Byte) (c : Context),
    let ctx := entryCtx b
    (Spec.Named s b 0x0D [] c → exec .dbgattach s = .next ((s.setContext ctx { c with attached := true }).answer 0 0)) ∧
    (Spec.Named s b 0x0E [] c → exec .dbgdetach s = .next ((s.setContext ctx { c with attached := false }).answer 0 0)) ∧
    (Spec.Named s b 0x0F [(8, 1), (12, 4)] c →
      let scope := entryField b 8 1
      let slot := entryField b 12 4
      (2 < scope ∨ (scope = 0 ∧ slot ≠ 0) → exec .dbghalt s = .next (s.answer 1 0)) ∧
      (scope = 0 → slot = 0 → ∃ (t : State), exec .dbghalt s = .next (t.answer 0 0) ∧ ∀ n e, s.engine n = some e → e.ctx = ctx → e.ended = false →
        ∃ e', t.engine n = some e' ∧ (e.inHandler = true → e'.haltPend = true ∧ e'.lanes = e.lanes) ∧
          (e.inHandler = false → ∀ k l, e.lanes.find? k = some l → k < e.width → e.width ≤ 64 → l.live = true →
            e'.lanes.find? k = some { l with stopped := true }))) ∧
    (Spec.Named s b 0x10 [(8, 2), (12, 4), (16, 8)] c →
      let scope := entryField b 8 1
      let mask := entryField b 16 8
      (2 ≤ entryField b 9 1 ∨ (scope ≠ 1 ∧ mask ≠ 0) → exec .dbgresume s = .next (s.answer 1 0)) ∧
      (scope = 0 → mask = 0 → entryField b 9 1 = 0 → entryField b 12 4 = 0 → ∃ (t : State), exec .dbgresume s = .next (t.answer 0 0) ∧ s.sameMemory t ∧
        ∀ n e, s.engine n = some e → e.ctx = ctx → e.ended = false → e.width ≤ 64 → ∃ e', t.engine n = some e' ∧
          ∀ k l, e.lanes.find? k = some l → k < e.width → e'.lanes.find? k = some { l with stopped := false })) ∧
    (Spec.Named s b 0x11 [(8, 8), (16, 4)] c →
      let len := entryField b 16 4
      (entryField b 8 8 % 64 ≠ 0 ∨ len % 64 ≠ 0 → exec .dbgstops s = .next (s.answer 1 0)) ∧
      (entryField b 8 8 % 64 = 0 → len % 64 = 0 → ∃ (t : State), exec .dbgstops s = .next (t.answer 0 (min c.stops.length (len / 64))) ∧
        s.sameMemory t ∧ t.host.out = s.host.out ++
          [.hostStore (entryField b 8 8) (c.stops.drop (c.stops.length - min c.stops.length (len / 64))).flatten])) ∧
    (Spec.Commanded s b 0x12 false [(8, 8), (16, 1)] →
      let die := entryField b 16 1
      (entryField b 8 8 % 64 ≠ 0 ∨ 4 ≤ die → exec .slotread s = .next (s.answer 1 0)) ∧
      (entryField b 8 8 % 64 = 0 → die < 4 → ∃ (t : State) (image : List Byte), exec .slotread s = .next (t.answer 0 0) ∧ s.sameMemory t ∧
        t.host.out = s.host.out ++ [.hostStore (entryField b 8 8) image] ∧ image.length = 64 * 4096 ∧
        ∀ k, k < 4096 → (image.drop (64 * k)).take 64 = match s.launch.binds.find? (4096 * die + k) with
          | some r => r.image
          | none => List.replicate 64 0)) ∧
    (∀ (r : BindRecord), r.image.length = 64 ∧ fieldAt r.image 0 4 = r.launch % 2 ^ 32 ∧ fieldAt r.image 4 4 = r.first % 2 ^ 32 ∧
      fieldAt r.image 8 4 = r.count % 2 ^ 32 ∧ fieldAt r.image 0xC 4 = r.stride % 2 ^ 32 ∧ fieldAt r.image 0x10 16 = r.coreset % 2 ^ 128 ∧
      fieldAt r.image 0x20 1 = r.prio % 2 ^ 8 ∧ fieldAt r.image 0x21 1 = r.state % 2 ^ 8 ∧ fieldAt r.image 0x22 2 = r.group % 2 ^ 16 ∧
      fieldAt r.image 0x26 2 = r.barhome % 2 ^ 16 ∧ fieldAt r.image 0x28 4 = r.next % 2 ^ 32 ∧ fieldAt r.image 0x30 8 = r.armcyc % 2 ^ 64) ∧
    (Spec.Named s b 0x13 [(8, 8), (16, 8), (24, 1)] c →
      let base := entryField b 8 8
      let len := entryField b 16 8
      let kinds := entryField b 24 1
      let unfit := base % 128 ≠ 0 ∨ len % 128 ≠ 0 ∨ len < 256 ∨ 2 ^ 57 ≤ base
      (16 ≤ kinds ∨ (len ≠ 0 ∧ unfit) → exec .trace s = .next (s.answer 1 0)) ∧
      (kinds < 16 → len = 0 ∨ ¬ unfit → ∃ (t : State) (k : Context), exec .trace s = .next (t.answer 0 0) ∧ t.ctxs.table.find? ctx = some k ∧ k.traceBase = base ∧
        k.traceLen = len ∧ k.traceKinds = kinds ∧ (len = 0 → s.sameMemory t) ∧
        ∀ a, len ≠ 0 → s.quietLoc ctx .store base = some a → a < 2 ^ 60 → s.xlat.migrations = [] →
          t.readHomeBytes a 128 = List.replicate 128 0))

/-- R454, R456 and R458: a rebuild goes on by one word in 4 cycles until the spare replaces the failed bank, a row's copy by one word in 16
cycles until its spare row takes its reads, and each end is recorded. -/
def Obligations.RebuildAndRowSparing : Prop :=
  ∀ (s : State),
    (∀ (b : BankState) (n c : Nat), s.rebuildDue = some b → s.retireReady b = false → b.rebuild = some (n, c) →
      c ≤ s.clock.cyc ∧
      (n + 1 < memoryWords b.unit.mem → ∃ t, exec .rebuildWord s = .next t ∧ s.sameMemory t ∧
        t.banksOf b.unit = { b with rebuild := some (n + 1, s.clock.cyc + 4) }) ∧
      (memoryWords b.unit.mem ≤ n + 1 → ∃ t, exec .rebuildWord s = .next t ∧ s.sameMemory t ∧
        t.banksOf b.unit = { b with rebuild := none, failed := b.failed.drop 1, replaced := 1 } ∧
        ∃ r ∈ Store.get [] t.repair.rings b.unit.die, r.kind = 4 ∧ r.mem = b.unit.mem)) ∧
    (∀ r, s.rowDue = some r → r.nextAt ≤ s.clock.cyc ∧ ∃ t r', exec .rowSpareCopy s = .next t ∧ s.sameMemory t ∧ r' ∈ t.repair.rows ∧
      r'.word = r.word + 1 ∧ r'.nextAt = s.clock.cyc + 16 ∧ r'.row = r.row ∧ r'.bank = r.bank ∧ r'.die = r.die ∧
      (r'.done = true ↔ Config.rowWords ≤ r.word + 1) ∧
      (r'.done = true → ∃ x ∈ Store.get [] t.repair.rings r.die, x.kind = 5))

/-- R69, R71, R80 and R81: the choice of a cycle's issues takes only gangs and streams that may issue; two gangs of one core never take one
lane-group in a cycle; an SFU queue never holds more than 8 instructions, nor a Damask queue more than 4; and the choice changes no
memory. -/
def Obligations.IssueArbitration : Prop :=
  ∀ (s : State), (Store.keys s.work.engines).Nodup → ∃ t, exec .issueArbitration s = .next t ∧ s.sameMemory t ∧ t.arbitrated = true ∧
    (∀ i ∈ t.agenda, ∃ e, s.engine i.eng = some e ∧ s.mayIssue i.eng e = true) ∧
    (∀ i ∈ t.agenda, ∀ j ∈ t.agenda, i.eng ≠ j.eng → ∀ d e, s.engine i.eng = some d → s.engine j.eng = some e → d.isSeq = false →
      e.isSeq = false → d.place.coreId = e.place.coreId → Nat.land d.place.groups e.place.groups = 0) ∧
    (∀ core, let held := fun (u : State) (m : Store (List Nat)) => ((Store.get [] m core).filter fun c => decide (u.clock.cyc < c)).length
      (held s s.work.sfu ≤ 8 → held t t.work.sfu ≤ 8) ∧ (held s s.work.damask ≤ 4 → held t t.work.damask ≤ 4)) ∧
    ∀ n e, s.engine n = some e → (∃ i ∈ t.agenda, i.eng = n) → (t.engine n).bind Engine.lastIssue = some s.clock.cyc

/-! ## Decoding, steps and reset -/

/-- Words that the spec writes out (the tables of encodings of chapters 2 and 4 to 7, R41, R44 and R45) decode to the instruction that they
stand for, or are refused by name. -/
def Obligations.DecodesSpecWords : Prop :=
  let p := fun (w : Nat) => decode (leBytes 4 w)
  let g : Guard := .always
  decode (leBytes 2 0x0440) = .ok (.add16 1 2, 2) ∧
  p 0x42061001 = .ok (.addc g 4 3 2, 4) ∧
  p 0x1234380F = .ok (.movl g 0x1234 7, 4) ∧
  p 0x22029015 = .ok (.icmpLt g 0 1 4 1 2, 4) ∧
  p 0x6008101B = .ok (.voteBallotP g 0 4 2, 4) ∧
  p 0xFFFFE56D = .ok (.bra ⟨true, 2⟩ 0x1FFFFC, 4) ∧
  p 0xC38C281F = .ok (.shflXor g 0 7 6 5, 4) ∧
  p 0x62061031 = .ok (.ffma g 4 3 2, 4) ∧
  p 0x40861041 = .ok (.ld g 2 0 0 4 3 2, 4) ∧
  p 0x407E1047 = .ok (.st g 2 0 3 15 2, 4) ∧
  p 0x263A2053 = .ok (.borrowSTry g 1 7 4 4, 4) ∧
  p 0x0031185F = .ok (.copy g 0 6 2 3, 4) ∧
  p 0x00021065 = .ok (.dadd g 1 0 2, 4) ∧
  p 0x20001 = .ok (.add g 0 1 0, 4) ∧
  p 0x42B = .ok (.guardNop 0 0x15, 4) ∧
  p 0x2B = .error .reservedMajor ∧
  p 0xE0000035 = .error .unlisted ∧
  decode [0, 0, 0, 0] = .error .badHalfword

/-- Decode and encode agree, for every instruction (R39 to R58): decoding the encoding of a well-formed instruction, with every operand at
every value that the encoding admits and whatever bytes follow it, gives the instruction and its length; and what decodes is
well formed and encodes to the bytes that were read. -/
def Obligations.DecodeInvertsEncode : Prop :=
  (∀ (x : Instr) (len w : Nat) (rest : List Byte), x.wf = true → x.encoding = some (len, w) →
    decode (leBytes len w ++ rest) = .ok (x, len)) ∧
  (∀ (x : Instr) (n : Nat) (bs : List Byte), decode bs = .ok (x, n) →
    x.wf = true ∧ n ≤ bs.length ∧ x.encoding = some (n, leValue (bs.take n)))

/-- A step runs the decoded instruction (R39, R60, R69 to R72): where issues are left, it is `exec` of the first one's decoded words, with
the core's counters (R439) brought up to date, and it has no effect where it raises a cause after its pair's lower instruction has raised
one (R319); words that nothing decodes raise ILLEGAL in the lanes that stand there. -/
def Sys2Proof.Spec.IssuesRun : Prop :=
  ∀ (s : State) (i : Issue) (rest : List Issue), s.agenda = i :: rest →
    let s' := { s with agenda := rest, cur := some i }
    let after := fun (t : State) => if t.cur = none then s' else s'.countIssue t i
    (∀ x n, decode (leBytes i.len i.insn.toNat) = .ok (x, n) → step s = thenNext after (exec x s')) ∧
    (∀ r e, decode (leBytes i.len i.insn.toNat) = .error r → s.engine i.eng = some e →
      step s = .next (after (s'.trap i .illegal (e.standing i.lanes) 0 0)))

/-- R69 to R71: the issues that a cycle's choice leaves are of engines that exist, and what they run is what the decoder reads in the words
fetched at their program counters. -/
def Sys2Proof.Spec.IssuesAreChosen : Prop :=
  ∀ s : State, s.agenda = [] → s.wallEvent = none → s.bubble = false → s.arbitrated = false → s.workEvent = none →
    ∃ t, step s = .next t ∧ t.arbitrated = true ∧ t.clock = s.clock ∧ t.mem.cells = s.mem.cells ∧
      ∀ i ∈ t.agenda, ∃ e bs, (i.eng, e) ∈ s.work.engines ∧ s.fetch e i.pc = .words bs ∧ i.len = bs.length ∧
        ∀ x n, decode bs = .ok (x, n) → i.instr = some x

/-- R4, R5, R6: with no issue left a step runs what the boot ROM, the throttle, the watchdog or a link has due; else a bubble lets only
WALL go on; else it runs what the work cycle has due; and when the cycle holds nothing more, CYC and WALL go on by one. -/
def Sys2Proof.Spec.CyclesGoOn : Prop :=
  ∀ s : State, s.agenda = [] →
    (∀ x, s.wallEvent = some x → step s = exec x s) ∧
    (s.wallEvent = none → s.bubble = true →
      ∃ t, step s = .next t ∧ t.clock.cyc = s.clock.cyc ∧ t.clock.wall = s.clock.wall + 1 ∧ s.clock.ptime ≤ t.clock.ptime ∧
        t.work = s.work ∧ t.mem = s.mem) ∧
    (s.wallEvent = none → s.bubble = false → s.arbitrated = false → ∀ x, s.workEvent = some x →
      step s = thenNext s.countEvent (exec x s)) ∧
    (s.wallEvent = none → s.bubble = false → s.arbitrated = true → ∀ x t, s.settleEnds.endEvent = some (x, t) →
      step s = thenNext t.countEvent (exec x t)) ∧
    (s.wallEvent = none → s.bubble = false → s.arbitrated = true → s.settleEnds.endEvent = none →
      ∃ t, step s = .next t ∧ t.clock.cyc = s.clock.cyc + 1 ∧ t.clock.wall = s.clock.wall + 1 ∧ s.clock.ptime ≤ t.clock.ptime ∧
        t.arbitrated = false)

/-- A step runs the decoded instruction, the issues are the words at their program counters, and the cycle goes on when nothing is
left of it. -/
def Obligations.StepRunsTheDecodedInstruction : Prop := Spec.IssuesRun ∧ Spec.IssuesAreChosen ∧ Spec.CyclesGoOn

/-- Every step keeps the memory in its canonical form: addresses strictly rising, no byte listed that reads as an unlisted one. -/
def Obligations.StepsKeepMemoryCanonical : Prop :=
  ∀ s t : State, s.memoryOk → step s = .next t → t.memoryOk

/-- What the spec gives the device at cold reset: CYC and WALL are 0 (R5), every slot is IDLE (R335), the first launch id is 1 (R336), every
page is device-biased (R405), counters are 0 (R439), the boot ROM runs first (R463).  The memory, which the model lists
empty (its own choice, log entry 2), is in canonical form. -/
def Obligations.ResetLeaves : Prop :=
  let s := State.reset
  s.memoryOk ∧ s.clock.cyc = 0 ∧ s.clock.wall = 0 ∧ s.launch.slots = [] ∧ s.launch.nextId = 1 ∧ s.xlat.hostBias = [] ∧
    s.repair.counters = [] ∧ s.boot.mode = .cold ∧ step s = exec .coldReset s
end

