-- ==== Sys2Proof/Laws/Store.lean ====
section
/-! SUPPORT. Laws of finite maps and of memory: a read after a write, and the canonical form that every write keeps. -/

namespace Sys2Proof.Machine

namespace Store
variable {α : Type}

@[simp] theorem find?_nil (k : Nat) : Store.find? ([] : Store α) k = none := rfl

theorem find?_erase (m : Store α) (k j : Nat) :
    Store.find? (Store.erase m k) j = if j = k then none else Store.find? m j := by
  induction m with
  | nil => simp [Store.erase]
  | cons h t ih =>
    obtain ⟨a, v⟩ := h
    by_cases hak : a = k
    · subst hak
      by_cases hj : j = a
      · subst hj; simp [Store.erase, ih]
      · simp [Store.erase, Store.find?, ih, hj, Ne.symm hj]
    · by_cases hj : j = k
      · subst hj; simp [Store.erase, Store.find?, hak, ih]
      · by_cases ha : a = j <;> simp [Store.erase, Store.find?, hak, ih, hj, ha]

theorem find?_insert_self (m : Store α) (k : Nat) (v : α) (h : Store.find? m k = none) :
    Store.find? (Store.insert m k v) k = some v := by
  induction m with
  | nil => simp [Store.insert, Store.find?]
  | cons x t ih =>
    obtain ⟨a, w⟩ := x
    by_cases hak : a = k
    · simp [Store.find?, hak] at h
    · simp only [Store.find?, hak, if_false] at h
      by_cases hlt : k < a
      · simp [Store.insert, Store.find?, hlt]
      · simp [Store.insert, Store.find?, hlt, hak, ih h]

theorem find?_insert_ne (m : Store α) (k j : Nat) (v : α) (h : j ≠ k) :
    Store.find? (Store.insert m k v) j = Store.find? m j := by
  induction m with
  | nil => simp [Store.insert, Store.find?, Ne.symm h]
  | cons x t ih =>
    obtain ⟨a, w⟩ := x
    by_cases hlt : k < a
    · simp [Store.insert, Store.find?, hlt, Ne.symm h]
    · by_cases haj : a = j
      · subst haj; simp [Store.insert, Store.find?, hlt]
      · simp [Store.insert, Store.find?, hlt, ih, haj]

/-- A map holds what was put into it. -/
@[simp] theorem find?_put_self (m : Store α) (k : Nat) (v : α) : Store.find? (Store.put m k v) k = some v :=
  find?_insert_self _ _ _ (by simp [find?_erase])

/-- A put leaves every other key alone. -/
@[simp] theorem find?_put_ne (m : Store α) {k j : Nat} (v : α) (h : j ≠ k) :
    Store.find? (Store.put m k v) j = Store.find? m j := by
  rw [Store.put, find?_insert_ne _ _ _ _ h, find?_erase, if_neg h]

@[simp] theorem get_put_self (d : α) (m : Store α) (k : Nat) (v : α) : Store.get d (Store.put m k v) k = v := by
  simp [Store.get]

@[simp] theorem get_put_ne (d : α) (m : Store α) {k j : Nat} (v : α) (h : j ≠ k) :
    Store.get d (Store.put m k v) j = Store.get d m j := by
  simp [Store.get, h]

@[simp] theorem get_set_self [DecidableEq α] (d : α) (m : Store α) (k : Nat) (v : α) :
    Store.get d (Store.set d m k v) k = v := by
  unfold Store.set
  split
  · simp [Store.get, find?_erase, *]
  · simp

@[simp] theorem get_set_ne [DecidableEq α] (d : α) (m : Store α) {k j : Nat} (v : α) (h : j ≠ k) :
    Store.get d (Store.set d m k v) j = Store.get d m j := by
  unfold Store.set
  split
  · simp [Store.get, find?_erase, h]
  · simp [h]

theorem find?_mapKV (f : Nat → α → α) (m : Store α) (k : Nat) :
    Store.find? (Store.mapKV f m) k = (Store.find? m k).map (f k) := by
  induction m with
  | nil => rfl
  | cons x t ih =>
    obtain ⟨a, v⟩ := x
    by_cases h : a = k
    · subst h; simp [Store.mapKV, Store.find?]
    · simp [Store.mapKV, Store.find?, h, ih]

theorem find?_modify (m : Store α) (k j : Nat) (f : α → α) :
    Store.find? (Store.modify m k f) j = if j = k then (Store.find? m k).map f else Store.find? m j := by
  unfold Store.modify
  by_cases h : j = k
  · subst h; cases hk : Store.find? m j <;> simp [hk]
  · cases hk : Store.find? m k <;> simp [h]

end Store

/-! ## Memory -/

namespace Memory

/-- A byte reads as it was written. -/
@[simp] theorem read_write_self (m : Memory) (a : Nat) (v : Byte) : (m.write a v).read a = v :=
  Store.get_set_self _ _ _ _

/-- A write leaves every other byte alone. -/
@[simp] theorem read_write_ne (m : Memory) {a b : Nat} (v : Byte) (h : b ≠ a) : (m.write a v).read b = m.read b :=
  Store.get_set_ne _ _ _ h

end Memory

theorem risingAbove_mono {lo lo' : Nat} (h : lo' ≤ lo) (m : Memory) (hm : risingAbove lo m = true) :
    risingAbove lo' m = true := by
  cases m with
  | nil => rfl
  | cons x t =>
    obtain ⟨a, v⟩ := x
    simp only [risingAbove, Bool.and_eq_true, decide_eq_true_eq, bne_iff_ne] at hm ⊢
    exact ⟨⟨by omega, hm.1.2⟩, hm.2⟩

theorem risingAbove_erase (m : Memory) (lo k : Nat) (hm : risingAbove lo m = true) :
    risingAbove lo (Store.erase m k) = true := by
  induction m generalizing lo with
  | nil => rfl
  | cons x t ih =>
    obtain ⟨a, v⟩ := x
    simp only [risingAbove, Bool.and_eq_true, decide_eq_true_eq, bne_iff_ne] at hm
    by_cases h : a = k
    · simp only [Store.erase, h, if_true]
      exact ih lo (risingAbove_mono (by omega) t hm.2)
    · simp only [Store.erase, h, if_false, risingAbove, Bool.and_eq_true, decide_eq_true_eq, bne_iff_ne]
      exact ⟨hm.1, ih _ hm.2⟩

theorem risingAbove_insert (m : Memory) (lo k : Nat) (v : Byte) (hv : v ≠ 0) (hk : lo ≤ k)
    (hm : risingAbove lo m = true) (hn : Store.find? m k = none) :
    risingAbove lo (Store.insert m k v) = true := by
  induction m generalizing lo with
  | nil => simpa [Store.insert, risingAbove, hk] using hv
  | cons x t ih =>
    obtain ⟨a, w⟩ := x
    simp only [risingAbove, Bool.and_eq_true, decide_eq_true_eq, bne_iff_ne] at hm
    by_cases hlt : k < a
    · simp only [Store.insert, hlt, if_true, risingAbove, Bool.and_eq_true, decide_eq_true_eq, bne_iff_ne]
      exact ⟨⟨hk, hv⟩, ⟨by omega, hm.1.2⟩, hm.2⟩
    · have hak : a ≠ k := by
        intro h; simp [Store.find?, h] at hn
      simp only [Store.find?, hak, if_false] at hn
      simp only [Store.insert, hlt, if_false, risingAbove, Bool.and_eq_true, decide_eq_true_eq, bne_iff_ne]
      exact ⟨hm.1, ih (a + 1) (by omega) hm.2 hn⟩

/-- A write keeps the canonical form. -/
theorem Memory.wf_write (m : Memory) (a : Nat) (v : Byte) (h : m.wf = true) : (m.write a v).wf = true := by
  unfold Memory.wf Memory.write Store.set at *
  split
  · exact risingAbove_erase _ _ _ h
  · rename_i hv
    exact risingAbove_insert _ _ _ _ hv (Nat.zero_le _) (risingAbove_erase _ _ _ h) (by simp [Store.find?_erase])

/-- A write of a list of bytes keeps the canonical form. -/
theorem Memory.wf_writeBytes (bs : List Byte) (m : Memory) (a : Nat) (h : m.wf = true) : (m.writeBytes a bs).wf = true := by
  induction bs generalizing m a with
  | nil => exact h
  | cons b r ih => exact ih _ _ (Memory.wf_write m a b h)

end Sys2Proof.Machine
end

