-- ==== Sys2Proof/Laws/State.lean ====
section
/-! SUPPORT. Laws of the state: what each update of a part of it leaves in every field, and what an accessor reads after it. -/

namespace Sys2Proof.Machine

namespace State

/-! ## Engines -/

@[simp] theorem engine_setEngine_self (s : State) (id : Nat) (e : Engine) : (s.setEngine id e).engine id = some e :=
  Store.find?_put_self _ _ _

@[simp] theorem engine_setEngine_ne (s : State) {id j : Nat} (e : Engine) (h : j ≠ id) :
    (s.setEngine id e).engine j = s.engine j :=
  Store.find?_put_ne _ _ h

@[simp] theorem setEngine_clock (s : State) (id : Nat) (e : Engine) : (s.setEngine id e).clock = s.clock := rfl
@[simp] theorem setEngine_boot (s : State) (id : Nat) (e : Engine) : (s.setEngine id e).boot = s.boot := rfl
@[simp] theorem setEngine_mem (s : State) (id : Nat) (e : Engine) : (s.setEngine id e).mem = s.mem := rfl
@[simp] theorem setEngine_own (s : State) (id : Nat) (e : Engine) : (s.setEngine id e).own = s.own := rfl
@[simp] theorem setEngine_launch (s : State) (id : Nat) (e : Engine) : (s.setEngine id e).launch = s.launch := rfl
@[simp] theorem setEngine_ctxs (s : State) (id : Nat) (e : Engine) : (s.setEngine id e).ctxs = s.ctxs := rfl
@[simp] theorem setEngine_xlat (s : State) (id : Nat) (e : Engine) : (s.setEngine id e).xlat = s.xlat := rfl
@[simp] theorem setEngine_host (s : State) (id : Nat) (e : Engine) : (s.setEngine id e).host = s.host := rfl
@[simp] theorem setEngine_repair (s : State) (id : Nat) (e : Engine) : (s.setEngine id e).repair = s.repair := rfl
@[simp] theorem setEngine_cur (s : State) (id : Nat) (e : Engine) : (s.setEngine id e).cur = s.cur := rfl
@[simp] theorem setEngine_agenda (s : State) (id : Nat) (e : Engine) : (s.setEngine id e).agenda = s.agenda := rfl
@[simp] theorem setEngine_arbitrated (s : State) (id : Nat) (e : Engine) : (s.setEngine id e).arbitrated = s.arbitrated := rfl
@[simp] theorem setEngine_decoded (s : State) (id : Nat) (e : Engine) : (s.setEngine id e).decoded = s.decoded := rfl
@[simp] theorem setEngine_nextId (s : State) (id : Nat) (e : Engine) : (s.setEngine id e).nextId = s.nextId := rfl
@[simp] theorem setEngine_freeCtr (s : State) (id : Nat) (e : Engine) : (s.setEngine id e).freeCtr = s.freeCtr := rfl
@[simp] theorem setEngine_waits (s : State) (id : Nat) (e : Engine) : (s.setEngine id e).work.waits = s.work.waits := rfl
@[simp] theorem setEngine_traps (s : State) (id : Nat) (e : Engine) : (s.setEngine id e).work.traps = s.work.traps := rfl
@[simp] theorem setEngine_blocks (s : State) (id : Nat) (e : Engine) : (s.setEngine id e).work.blocks = s.work.blocks := rfl
@[simp] theorem setEngine_pools (s : State) (id : Nat) (e : Engine) : (s.setEngine id e).work.pools = s.work.pools := rfl
@[simp] theorem setEngine_handoff (s : State) (id : Nat) (e : Engine) : (s.setEngine id e).work.handoff = s.work.handoff := rfl
@[simp] theorem setEngine_matrix (s : State) (id : Nat) (e : Engine) : (s.setEngine id e).work.matrix = s.work.matrix := rfl
@[simp] theorem setEngine_copies (s : State) (id : Nat) (e : Engine) : (s.setEngine id e).work.copies = s.work.copies := rfl
@[simp] theorem setEngine_lastCopy (s : State) (id : Nat) (e : Engine) : (s.setEngine id e).work.lastCopy = s.work.lastCopy := rfl
@[simp] theorem setEngine_slots (s : State) (id : Nat) (e : Engine) : (s.setEngine id e).work.slots = s.work.slots := rfl
@[simp] theorem setEngine_sfu (s : State) (id : Nat) (e : Engine) : (s.setEngine id e).work.sfu = s.work.sfu := rfl
@[simp] theorem setEngine_damask (s : State) (id : Nat) (e : Engine) : (s.setEngine id e).work.damask = s.work.damask := rfl

/-- A write of an engine changes no byte of memory; the windows of the on-chip map, which show registers, lie from 2^63 up. -/
theorem setEngine_readHome (s : State) (id : Nat) (e : Engine) {loc : Nat} (h : loc < 2 ^ 63) :
    (s.setEngine id e).readHome loc = s.readHome loc := by
  simp only [State.readHome, if_pos h]; rfl

/-! ## Contexts, launches and ownership entries -/

@[simp] theorem find?_setContext_self (s : State) (c : Nat) (x : Context) : (s.setContext c x).context c = x := by
  simp [State.context, State.setContext]

@[simp] theorem setContext_mem (s : State) (c : Nat) (x : Context) : (s.setContext c x).mem = s.mem := rfl
@[simp] theorem setContext_work (s : State) (c : Nat) (x : Context) : (s.setContext c x).work = s.work := rfl
@[simp] theorem setContext_cur (s : State) (c : Nat) (x : Context) : (s.setContext c x).cur = s.cur := rfl
@[simp] theorem setContext_clock (s : State) (c : Nat) (x : Context) : (s.setContext c x).clock = s.clock := rfl
@[simp] theorem setContext_boot (s : State) (c : Nat) (x : Context) : (s.setContext c x).boot = s.boot := rfl
@[simp] theorem setContext_own (s : State) (c : Nat) (x : Context) : (s.setContext c x).own = s.own := rfl
@[simp] theorem setContext_launch (s : State) (c : Nat) (x : Context) : (s.setContext c x).launch = s.launch := rfl
@[simp] theorem setContext_xlat (s : State) (c : Nat) (x : Context) : (s.setContext c x).xlat = s.xlat := rfl
@[simp] theorem setContext_host (s : State) (c : Nat) (x : Context) : (s.setContext c x).host = s.host := rfl
@[simp] theorem setContext_repair (s : State) (c : Nat) (x : Context) : (s.setContext c x).repair = s.repair := rfl
@[simp] theorem setContext_agenda (s : State) (c : Nat) (x : Context) : (s.setContext c x).agenda = s.agenda := rfl
@[simp] theorem setContext_arbitrated (s : State) (c : Nat) (x : Context) : (s.setContext c x).arbitrated = s.arbitrated := rfl
@[simp] theorem setContext_decoded (s : State) (c : Nat) (x : Context) : (s.setContext c x).decoded = s.decoded := rfl
@[simp] theorem setContext_nextId (s : State) (c : Nat) (x : Context) : (s.setContext c x).nextId = s.nextId := rfl
@[simp] theorem setContext_freeCtr (s : State) (c : Nat) (x : Context) : (s.setContext c x).freeCtr = s.freeCtr := rfl

@[simp] theorem launchOf_setLaunch_self (s : State) (id : Nat) (l : Launch) : (s.setLaunch id l).launchOf id = some l :=
  Store.find?_put_self _ _ _

@[simp] theorem setLaunch_mem (s : State) (id : Nat) (l : Launch) : (s.setLaunch id l).mem = s.mem := rfl
@[simp] theorem setLaunch_work (s : State) (id : Nat) (l : Launch) : (s.setLaunch id l).work = s.work := rfl
@[simp] theorem setLaunch_clock (s : State) (id : Nat) (l : Launch) : (s.setLaunch id l).clock = s.clock := rfl
@[simp] theorem setLaunch_boot (s : State) (id : Nat) (l : Launch) : (s.setLaunch id l).boot = s.boot := rfl
@[simp] theorem setLaunch_own (s : State) (id : Nat) (l : Launch) : (s.setLaunch id l).own = s.own := rfl
@[simp] theorem setLaunch_ctxs (s : State) (id : Nat) (l : Launch) : (s.setLaunch id l).ctxs = s.ctxs := rfl
@[simp] theorem setLaunch_xlat (s : State) (id : Nat) (l : Launch) : (s.setLaunch id l).xlat = s.xlat := rfl
@[simp] theorem setLaunch_host (s : State) (id : Nat) (l : Launch) : (s.setLaunch id l).host = s.host := rfl
@[simp] theorem setLaunch_repair (s : State) (id : Nat) (l : Launch) : (s.setLaunch id l).repair = s.repair := rfl
@[simp] theorem setLaunch_cur (s : State) (id : Nat) (l : Launch) : (s.setLaunch id l).cur = s.cur := rfl
@[simp] theorem setLaunch_agenda (s : State) (id : Nat) (l : Launch) : (s.setLaunch id l).agenda = s.agenda := rfl
@[simp] theorem setLaunch_arbitrated (s : State) (id : Nat) (l : Launch) : (s.setLaunch id l).arbitrated = s.arbitrated := rfl
@[simp] theorem setLaunch_decoded (s : State) (id : Nat) (l : Launch) : (s.setLaunch id l).decoded = s.decoded := rfl
@[simp] theorem setLaunch_nextId (s : State) (id : Nat) (l : Launch) : (s.setLaunch id l).nextId = s.nextId := rfl
@[simp] theorem setLaunch_freeCtr (s : State) (id : Nat) (l : Launch) : (s.setLaunch id l).freeCtr = s.freeCtr := rfl

@[simp] theorem entry_setEntry_self (s : State) (obj : Nat) (x : OwnEntry) : (s.setEntry obj x).entry obj = x :=
  Store.get_set_self _ _ _ _

@[simp] theorem setEntry_mem (s : State) (obj : Nat) (x : OwnEntry) : (s.setEntry obj x).mem = s.mem := rfl
@[simp] theorem setEntry_work (s : State) (obj : Nat) (x : OwnEntry) : (s.setEntry obj x).work = s.work := rfl
@[simp] theorem setEntry_clock (s : State) (obj : Nat) (x : OwnEntry) : (s.setEntry obj x).clock = s.clock := rfl
@[simp] theorem setEntry_boot (s : State) (obj : Nat) (x : OwnEntry) : (s.setEntry obj x).boot = s.boot := rfl
@[simp] theorem setEntry_launch (s : State) (obj : Nat) (x : OwnEntry) : (s.setEntry obj x).launch = s.launch := rfl
@[simp] theorem setEntry_ctxs (s : State) (obj : Nat) (x : OwnEntry) : (s.setEntry obj x).ctxs = s.ctxs := rfl
@[simp] theorem setEntry_xlat (s : State) (obj : Nat) (x : OwnEntry) : (s.setEntry obj x).xlat = s.xlat := rfl
@[simp] theorem setEntry_host (s : State) (obj : Nat) (x : OwnEntry) : (s.setEntry obj x).host = s.host := rfl
@[simp] theorem setEntry_repair (s : State) (obj : Nat) (x : OwnEntry) : (s.setEntry obj x).repair = s.repair := rfl
@[simp] theorem setEntry_cur (s : State) (obj : Nat) (x : OwnEntry) : (s.setEntry obj x).cur = s.cur := rfl
@[simp] theorem setEntry_agenda (s : State) (obj : Nat) (x : OwnEntry) : (s.setEntry obj x).agenda = s.agenda := rfl
@[simp] theorem setEntry_arbitrated (s : State) (obj : Nat) (x : OwnEntry) : (s.setEntry obj x).arbitrated = s.arbitrated := rfl
@[simp] theorem setEntry_decoded (s : State) (obj : Nat) (x : OwnEntry) : (s.setEntry obj x).decoded = s.decoded := rfl
@[simp] theorem setEntry_nextId (s : State) (obj : Nat) (x : OwnEntry) : (s.setEntry obj x).nextId = s.nextId := rfl
@[simp] theorem setEntry_freeCtr (s : State) (obj : Nat) (x : OwnEntry) : (s.setEntry obj x).freeCtr = s.freeCtr := rfl

/-- A write of an engine's record through its function: the engine's own record is the function's value, and no other engine changes. -/
theorem engine_modEngine (s : State) (id j : Nat) (f : Engine → Engine) :
    (s.modEngine id f).engine j = if j = id then (s.engine id).map f else s.engine j := by
  unfold modEngine
  split
  · next e h =>
    by_cases hj : j = id
    · subst hj; simp [h]
    · simp [hj]
  · next h =>
    by_cases hj : j = id
    · subst hj; simp [h]
    · simp [hj]

@[simp] theorem fresh_fst (s : State) : s.fresh.1 = s.nextId := rfl
@[simp] theorem fresh_nextId (s : State) : s.fresh.2.nextId = s.nextId + 1 := rfl
@[simp] theorem fresh_work (s : State) : s.fresh.2.work = s.work := rfl
@[simp] theorem fresh_mem (s : State) : s.fresh.2.mem = s.mem := rfl
@[simp] theorem fresh_own (s : State) : s.fresh.2.own = s.own := rfl

/-- Putting lanes to sleep adds one wait, with a fresh identifier, and changes no memory. -/
theorem sleep_waits (s : State) (eng : Nat) (lanes : Dword) (pc insn : Word) (len : Nat) (commit : Bool) (kind : WaitKind) :
    (s.sleep eng lanes pc insn len commit kind).1 = s.nextId ∧
      (s.sleep eng lanes pc insn len commit kind).2.mem = s.mem ∧
      (s.sleep eng lanes pc insn len commit kind).2.nextId = s.nextId + 1 := ⟨rfl, rfl, rfl⟩

@[simp] theorem dropWait_mem (s : State) (w : Wait) : (s.dropWait w).mem = s.mem := rfl
@[simp] theorem dropWait_own (s : State) (w : Wait) : (s.dropWait w).own = s.own := rfl

/-- A wait that is dropped is gone, and no other one changes. -/
theorem mem_dropWait (s : State) (w x : Wait) : x ∈ (s.dropWait w).work.waits ↔ x ∈ s.work.waits ∧ x.id ≠ w.id := by
  simp [dropWait]

end State

/-! ## Registers of a lane and of an engine -/

@[simp] theorem Lane.reg_setReg_self (l : Lane) (r : Nat) (v : Word) : (l.setReg r v).reg r = v :=
  Store.get_set_self _ _ _ _

@[simp] theorem Lane.reg_setReg_ne (l : Lane) {r q : Nat} (v : Word) (h : q ≠ r) : (l.setReg r v).reg q = l.reg q :=
  Store.get_set_ne _ _ _ h

@[simp] theorem Lane.setReg_preds (l : Lane) (r : Nat) (v : Word) : (l.setReg r v).preds = l.preds := rfl
@[simp] theorem Lane.setReg_fx (l : Lane) (r : Nat) (v : Word) : (l.setReg r v).fx = l.fx := rfl
@[simp] theorem Lane.setReg_dists (l : Lane) (r : Nat) (v : Word) : (l.setReg r v).dists = l.dists := rfl
@[simp] theorem Lane.setReg_pc (l : Lane) (r : Nat) (v : Word) : (l.setReg r v).pc = l.pc := rfl
@[simp] theorem Lane.setReg_status (l : Lane) (r : Nat) (v : Word) : (l.setReg r v).status = l.status := rfl

@[simp] theorem Lane.setPred_zero (l : Lane) (v : Bool) : l.setPred 0 v = l := rfl

@[simp] theorem Lane.pred_zero (l : Lane) : l.pred 0 = true := rfl

@[simp] theorem Lane.setPred_regs (l : Lane) (p : Nat) (v : Bool) : (l.setPred p v).regs = l.regs := by
  unfold Lane.setPred; split <;> rfl

@[simp] theorem Engine.sreg_setSreg_self (e : Engine) (r : Nat) (v : Word) : (e.setSreg r v).sreg r = v :=
  Store.get_set_self _ _ _ _

@[simp] theorem Engine.mask_setMask_self (e : Engine) (r : Nat) (v : Dword) : (e.setMask r v).mask r = v :=
  Store.get_set_self _ _ _ _

@[simp] theorem Engine.region_setRegion_self (e : Engine) (r : Nat) (v : Region) : (e.setRegion r v).region r = v :=
  Store.get_set_self _ _ _ _

@[simp] theorem Engine.setSreg_lanes (e : Engine) (r : Nat) (v : Word) : (e.setSreg r v).lanes = e.lanes := rfl
@[simp] theorem Engine.setMask_lanes (e : Engine) (r : Nat) (v : Dword) : (e.setMask r v).lanes = e.lanes := rfl
@[simp] theorem Engine.setRegion_lanes (e : Engine) (r : Nat) (v : Region) : (e.setRegion r v).lanes = e.lanes := rfl

theorem Engine.find?_mapLanes (e : Engine) (m : Dword) (f : Nat → Lane → Lane) (k : Nat) :
    (e.mapLanes m f).lanes.find? k = (e.lanes.find? k).map fun l => if m.getLsbD k then f k l else l :=
  Store.find?_mapKV _ _ _

end Sys2Proof.Machine
end

