-- ==== Sys2Proof/Laws/Lanes.lean ====
section
/-! SUPPORT. What the shared operand forms do: one law for each of `gated`, `lanes`, `lanesFx`, `once` and `gang`. -/

namespace Sys2Proof.Machine

/-! ## Masks of lanes -/

theorem listMask_fold (l : List Nat) (m : Dword) (k : Nat) (hk : k < 64) :
    (l.foldl (fun m k => m ||| ((1 : Dword) <<< k)) m).getLsbD k = (m.getLsbD k || l.contains k) := by
  induction l generalizing m with
  | nil => simp
  | cons a r ih =>
    rw [List.foldl_cons, ih]
    have h1 : ((1 : Dword) <<< a).getLsbD k = decide (k = a) := by
      by_cases h : k = a
      · subst h; simp [hk]
      · by_cases hka : k < a
        · simp [hk, hka, h]
        · have : k - a ≠ 0 := by omega
          simp [hk, hka, h, this]
    rw [BitVec.getLsbD_or, h1]
    simp [Bool.or_assoc]

theorem getLsbD_listMask (l : List Nat) (k : Nat) (hk : k < 64) : (listMask l).getLsbD k = l.contains k := by
  rw [listMask, listMask_fold _ _ _ hk]; simp

/-- The lanes in which a guard holds are those that execute the instruction. -/
theorem Engine.executes_guarded (e : Engine) (i : Issue) (g : Guard) : e.Executes i g (e.guarded g i.lanes) := by
  intro k
  by_cases hk : k < 64
  · rw [Engine.guarded, getLsbD_listMask _ _ hk, Bool.eq_iff_iff]
    simp only [List.contains_iff_mem, List.mem_filterMap, Engine.lanesOf, Bool.and_eq_true]
    constructor
    · rintro ⟨⟨j, l⟩, ⟨j', -, hj'⟩, hg⟩
      split at hj'
      · obtain ⟨l', hl', hll⟩ := Option.map_eq_some_iff.mp hj'
        obtain ⟨rfl, rfl⟩ := Prod.mk.inj hll
        split at hg
        · obtain rfl := Option.some.inj hg
          simp_all
        · simp at hg
      · simp at hj'
    · rintro ⟨hl, hm⟩
      split at hm
      · rename_i l hf
        exact ⟨(k, l), ⟨k, by simpa using hk, by simp [hl, hf]⟩, by simp [hm]⟩
      · simp at hm
  · rw [BitVec.getLsbD_of_ge _ _ (by omega), BitVec.getLsbD_of_ge _ _ (by omega)]; rfl

/-- The lanes that execute an instruction are one set. -/
theorem Engine.Executes.eq {e : Engine} {i : Issue} {g : Guard} {live : Dword} (h : e.Executes i g live) :
    live = e.guarded g i.lanes :=
  BitVec.eq_of_getLsbD_eq fun k _ => (h k).trans (e.executes_guarded i g k).symm

/-! ## The decode checks -/

/-- Where an engine accepts an instruction, `gated` hands it on with the lanes that execute it. -/
theorem gated_spec {s : State} {x : Instr} {i : Issue} {e : Engine} {f : Info} {live : Dword}
    (h : s.Issues x i e) (hf : infoOf x = some f) (hl : e.Executes i f.guard live) (k : Issue → Engine → Dword → Out) :
    gated f s k = k { i with away := i.lanes &&& ~~~live } e live := by
  obtain ⟨f', hf', hleg, hp⟩ := h.ok
  obtain rfl := Option.some.inj (hf'.symm.trans hf)
  have hp' : (f'.priv && !s.privileged e) = false := by
    cases h1 : f'.priv <;> cases h2 : s.privileged e <;> simp_all
  simp only [gated, h.cur, h.eng, hleg, hp', Bool.not_true, Bool.false_eq_true, if_false, hl.eq]

/-! ## The forms -/

/-- What `retire` leaves: lanes that issued have gone on, and only the scoreboard changes besides. -/
theorem Engine.lanesOf_retire (base e : Engine) (f : Info) (i : Issue) (live : Dword) (cyc : Nat) (g : Nat → Lane → Lane)
    (hrest : e = base.withLanes e.lanes e.sb)
    (hlane : ∀ k, e.lanes.find? k = (base.lanes.find? k).map (g k)) :
    base.LanesOf (e.retire f i live cyc) (fun k l => if i.lanes.getLsbD k then (g k l).goneOn i else g k l) := by
  have hl : (e.retire f i live cyc).lanes = (e.advance i).lanes := by
    unfold Engine.retire; dsimp only; split <;> rfl
  constructor
  · rw [hrest]; unfold Engine.retire; dsimp only; split <;> rfl
  · intro k
    rw [hl, Engine.advance, Engine.find?_mapLanes, hlane, Option.map_map]
    rfl

/-- `lanes` changes each lane that executes the instruction by `op`, and nothing else but program counters and the scoreboard. -/
theorem lanes_completes {x : Instr} {g : Guard} (f : Info) (op : Lane → Lane) (hf : infoOf x = some f) (hg : f.guard = g)
    (hx : ∀ s, exec x s = lanes f s op) : CompletesInLanes x g (fun _ _ _ _ l => op l) := by
  subst hg
  intro s i e live h hl
  refine ⟨(e.mapLanes live fun _ l => op l).retire f i live s.clock.cyc, ?_,
    fun loc hloc => State.setEngine_readHome _ _ _ hloc, ?_⟩
  · rw [hx, lanes, gated_spec h hf hl]; rfl
  · have := Engine.lanesOf_retire e (e.mapLanes live fun _ l => op l) f i live s.clock.cyc
      (fun k l => if live.getLsbD k then op l else l) rfl (fun k => Engine.find?_mapLanes _ _ _ _)
    refine ⟨this.rest, fun k => ?_⟩
    rw [this.lane]
    cases hfk : e.lanes.find? k with
    | none => rfl
    | some l =>
      simp only [Option.map_some]
      by_cases hi : i.lanes.getLsbD k = true
      · simp [hi]
      · have : live.getLsbD k = false := by rw [hl k]; simp [hi]
        simp [hi, this]

/-- `once` changes the engine by `op` where some lane executes the instruction. -/
theorem once_completes {x : Instr} {g : Guard} (f : Info) (op : Engine → Dword → Engine) (hf : infoOf x = some f)
    (hg : f.guard = g) (hx : ∀ s, exec x s = once f s op) : CompletesOnce x g (fun _ e live => op e live) := by
  subst hg
  intro s i e live h hl
  refine ⟨(if live = 0 then e else op e live).retire f i live s.clock.cyc, ?_,
    fun loc hloc => State.setEngine_readHome _ _ _ hloc, ?_⟩
  · rw [hx, once, gated_spec h hf hl]; rfl
  · exact Engine.lanesOf_retire _ _ f i live s.clock.cyc (fun _ l => l) rfl (fun k => by simp)

/-! ## Flags -/

theorem fxOr_fold (l : List Fx) (m : Fx) (n : Nat) :
    (l.foldl (· ||| ·) m).getLsbD n = (m.getLsbD n || l.any fun f => f.getLsbD n) := by
  induction l generalizing m with
  | nil => simp
  | cons a r ih => rw [List.foldl_cons, ih]; simp [Bool.or_assoc]

theorem getLsbD_fxOr (l : List Fx) (n : Nat) : (fxOr l).getLsbD n = l.any fun f => f.getLsbD n := by
  rw [fxOr, fxOr_fold]; simp

/-- The lanes of a mask, each with its place. -/
theorem Engine.mem_lanesOf (e : Engine) (m : Dword) (k : Nat) (l : Lane) :
    (k, l) ∈ e.lanesOf m ↔ m.getLsbD k = true ∧ e.lanes.find? k = some l := by
  simp only [Engine.lanesOf, List.mem_filterMap, List.mem_range]
  constructor
  · rintro ⟨j, -, hj⟩
    split at hj
    · obtain ⟨l', hl', h⟩ := Option.map_eq_some_iff.mp hj
      obtain ⟨rfl, rfl⟩ := Prod.mk.inj h
      exact ⟨‹_›, hl'⟩
    · simp at hj
  · rintro ⟨hm, hf⟩
    have hk : k < 64 := by
      by_contra h
      rw [BitVec.getLsbD_of_ge _ _ (by omega)] at hm
      exact Bool.noConfusion hm
    exact ⟨k, hk, by simp [hm, hf]⟩

/-- `lanesFx` changes each lane that executes the instruction, and raises FPX where an enabled flag was raised. -/
theorem lanesFx_completes {x : Instr} {g : Guard} (f : Info) (op : Engine → Dword → Nat → Lane → Lane × Fx) (post : Engine → Engine)
    (hpost : ∀ e L S, post (e.withLanes L S) = (post e).withLanes L S) (hlanes : ∀ e, (post e).lanes = e.lanes)
    (hf : infoOf x = some f) (hg : f.guard = g) (hx : ∀ s, exec x s = lanesFx f s op post) :
    CompletesWithFlags x g op post := by
  subst hg
  intro s i e live h hl
  have hex := h
  let raised := fxOr ((e.lanesOf live).map fun kl => (op e live kl.1 kl.2).2)
  let mapped := e.mapLanes live fun k l => (op e live k l).1.raise (op e live k l).2
  let e1 := if live = 0 then mapped else post mapped
  have hrun : exec x s = .next (s.flagTrap (s.setEngine i.eng (e1.retire f i live s.clock.cyc))
      { i with away := i.lanes &&& ~~~live } e live raised) := by
    rw [hx, lanesFx, gated_spec hex hf hl]; rfl
  have hmapped : mapped = e.withLanes mapped.lanes e.sb := rfl
  have hrest : e1 = (if live = 0 then e else post e).withLanes e1.lanes e1.sb := by
    show (if live = 0 then mapped else post mapped) = _
    split
    · rename_i h0; simp only [e1, h0, if_true]; rfl
    · rename_i h0
      have h1 : post mapped = (post e).withLanes mapped.lanes e.sb := by rw [hmapped, hpost]; rfl
      simp only [e1, h0, if_false, h1]; rfl
  have hlane : ∀ k, e1.lanes.find? k = ((if live = 0 then e else post e).lanes.find? k).map fun l =>
      if live.getLsbD k then (op e live k l).1.raise (op e live k l).2 else l := by
    intro k
    have h1 : e1.lanes = mapped.lanes := by
      show (if live = 0 then mapped else post mapped).lanes = _
      split
      · rfl
      · exact hlanes _
    have h2 : (if live = 0 then e else post e).lanes = e.lanes := by
      split
      · rfl
      · exact hlanes _
    rw [h1, h2]; exact Engine.find?_mapLanes _ _ _ _
  have hret := Engine.lanesOf_retire _ e1 f i live s.clock.cyc _ hrest hlane
  refine ⟨e1.retire f i live s.clock.cyc, raised, fun loc hloc => State.setEngine_readHome _ _ _ hloc,
    ⟨hret.rest, fun k => ?_⟩, fun n hn => ?_, fun hq => ?_, fun hq ht => ?_⟩
  · rw [hret.lane]
    cases hfk : (if live = 0 then e else post e).lanes.find? k with
    | none => rfl
    | some l =>
      simp only [Option.map_some]
      by_cases hi : i.lanes.getLsbD k = true
      · simp [hi, Lane.raise]
      · have : live.getLsbD k = false := by rw [hl k]; simp [hi]
        simp [hi, this]
  · simp only [raised, getLsbD_fxOr, List.any_map, List.any_eq_true, Prod.exists, Engine.mem_lanesOf, Function.comp_apply]
    exact ⟨fun ⟨k, l, h1, h2⟩ => ⟨k, l, h1.1, h1.2, h2⟩, fun ⟨k, l, h1, h2, h3⟩ => ⟨k, l, ⟨h1, h2⟩, h3⟩⟩
  · rw [hrun, State.flagTrap, fpxDetail, if_pos hq]
  · rw [hrun, State.flagTrap, fpxDetail, if_neg hq]; simp only [ht, Bool.false_eq_true, if_false]; rfl

end Sys2Proof.Machine
end

