-- ==== Sys2Proof/Tests/Slice0.lean ====
section
/-! SUPPORT. Tests: ill-formed terms are refused, the spec's own words decode to what they stand for, one step gives the values that the
spec's tables and listings give, and every statement that has hypotheses has a state that meets them. -/

namespace Sys2Proof.Tests

set_option Elab.async false

open Sys2Proof Sys2Proof.Machine

/-! ## Well-formedness: one ill-formed term for each check -/

/-- `add g0, g0` has no 16-bit encoding (R41). -/
theorem test_wf_add_g0_g0 : (Instr.add16 0 0).wf = false := by decide +kernel
/-- A pair field that is odd (R48). -/
theorem test_wf_odd_pair : (Instr.add64 .always 2 4 5).wf = false := by decide +kernel
/-- A group that runs past the last register (R48). -/
theorem test_wf_group_too_high : (Instr.ld .always 5 0 0 0 0 60).wf = false := by decide +kernel
/-- Predicate 8 (R47). -/
theorem test_wf_predicate_8 : (Instr.pand .always 8 1 2).wf = false := by decide +kernel
/-- Mask register 4 (R47). -/
theorem test_wf_mask_4 : (Instr.mand .always 0 4 1).wf = false := by decide +kernel
/-- Uniform register 32 (R47). -/
theorem test_wf_uniform_32 : (Instr.sadd .always 32 0 1).wf = false := by decide +kernel
/-- System value 18 (R56). -/
theorem test_wf_system_value_18 : (Instr.sv .always 18 1).wf = false := by decide +kernel
/-- A load of size code 7 (R51). -/
theorem test_wf_size_7 : (Instr.ld .always 7 0 0 0 0 0).wf = false := by decide +kernel
/-- The guard !p0 belongs to the no-op only (R44). -/
theorem test_wf_guard_never : (Instr.add ⟨true, 0⟩ 1 2 3).wf = false := by decide +kernel
/-- An unlisted system register (R217). -/
theorem test_wf_system_register : (Instr.mfsr .always 0x007 1).wf = false := by decide +kernel
/-- Conversion codes that name no format (R56). -/
theorem test_wf_conversion_code : (Instr.fcvt .always 0 1 1 2 3).wf = true ∧ (Instr.pset .always 2 1).wf = false := by decide +kernel
/-- A step of the device has no words. -/
theorem test_wf_device_step : (Instr.coldReset).wf = false := by decide +kernel

/-! ## Decoding -/

/-- Whether a word decodes to an instruction. -/
noncomputable def reads (w : Nat) (x : Instr) : Bool := decide (decode (leBytes 4 w) = .ok (x, 4))

/-- Words of the integer, predicate and cross-lane chapter (spec/04). -/
theorem test_decode_lane_words :
    [(0x42061001, Instr.addc .always 4 3 2), (0x61841003, .mad .always 3 2 2), (0x1234380F, .movl .always 0x1234 7),
     (0x22029015, .icmpLt .always 0 1 4 1 2), (0x6008101B, .voteBallotP .always 0 4 2), (0xFFFFE56D, .bra ⟨true, 2⟩ 0x1FFFFC),
     (0xC38C281F, .shflXor .always 0 7 6 5), (0x2800001D, .fxclr .always 16), (0x00220827, .sv .always 17 1),
     (0x00000827, .sv .always 0 1), (0x0102180D, .shlImm .always 2 1 3), (0x00821003, .mul .always 1 1 2),
     (0x407E1047, .st .always 2 0 3 15 2), (0x40000071, .exit .always), (0x100828A3, .xscanAddInc ⟨false, 1⟩ 1 0 4 5),
     (0x0B2A4815, .icmpNe .always 0 22 21 1), (0xFFFF88ED, .bra ⟨false, 1⟩ 0x1FFFF1)].all (fun p => reads p.1 p.2) = true := by
  decide +kernel

/-- Words of the floating-point chapter (spec/05). -/
theorem test_decode_float_words :
    [(0x62061031, Instr.ffma .always 4 3 2), (0x45124035, .dot4E4m3 .always 10 9 8), (0x20040837, .rsq .always 2 1),
     (0x880C2839, .fcvt .always 4 2 0 6 5), (0x0004303B, .qencE2m1 .always 2 6), (0x0008183D, .fclass .always 4 3)].all
      (fun p => reads p.1 p.2) = true := by decide +kernel

/-- Words of the memory chapter (spec/06) and of the system programs (spec/21). -/
theorem test_decode_memory_words :
    [(0x40861041, Instr.ld .always 2 0 0 4 3 2), (0x40461043, .ldi .always 2 2 3 2), (0xD806204D, .farCas .always 1 0 3 4),
     (0x0808284D, .farAddS32 .always 1 0 4 5), (0x100C2051, .sigWaitGe .always 0 6 4), (0x00311053, .borrowX .always 6 2 2),
     (0x263A2053, .borrowSTry .always 1 7 4 4), (0x06010059, .returnDev .always 2), (0x200C005B, .fenceRel .always 0 6),
     (0x0002005D, .rcv .always 1), (0x2480005D, .barSync .always 9 0), (0x0031185F, .copy .always 0 6 2 3),
     (0x0400185F, .publish .always 3), (0x0630005F, .cpwait .always 6), (0x200A2061, .spawn .always 5 4),
     (0x48000061, .hqpost .always 16 0), (0x60248061, .hqtake .always 18 16), (0x80C44041, .ld .always 4 0 0 6 2 8),
     (0x80C64047, .st .always 4 0 6 3 8), (0x08018059, .returnSys .always 3), (0x000628CD, .farAddS32 ⟨false, 1⟩ 0 0 3 5),
     (0x02111053, .borrowS .always 2 2 2), (0x40041843, .ldi .always 2 0 2 3)].all (fun p => reads p.1 p.2) = true := by
  decide +kernel

/-- Words of the distribution chapter (spec/07). -/
theorem test_decode_distribution_words :
    [(0x00021065, Instr.dadd .always 1 0 2), (0x18721065, .dmix .always 7 1 0 2), (0xC8001867, .dmap .always 6 0 3),
     (0x18700067, .dtag .always 0 7 0 0), (0x00300069, .dsrc .always 3 0), (0x08200069, .dpushw .always 2 0),
     (0x0C640869, .dld .always 0 6 2 1), (0x30640869, .dst .always 1 6 2 1), (0x0040806B, .dmom1 .always 4 2),
     (0x0450806B, .dmom2c .always 5 2), (0x1060806B, .dqnt .always 6 2)].all (fun p => reads p.1 p.2) = true := by decide +kernel

/-- Words of the sequencer and system chapter (spec/08), of the debug chapter and of repair (spec/22). -/
theorem test_decode_system_words :
    [(0x000A0079, Instr.mcfg .always 0 5), (0x008C0079, .mcfg .always 1 6), (0x20000079, .mcommit .always),
     (0x471A0079, .mma .always 14 13), (0xA0180079, .mdrain .always 12), (0xC0000079, .mwait .always 0), (0xE0120079, .mchain .always 9),
     (0x01840075, .tset .always 3 2), (0x80040875, .tchk .always 2 1), (0x00081877, .lbrw .always 4 3), (0x80082877, .lretry .always 4 5),
     (0x600A0077, .lret .always 0 5), (0x0002087B, .mfsr .always 1 1), (0x0020207B, .mfsr .always 0x10 4),
     (0x2000107B, .mtsr .always 0 2), (0x4000007B, .tret .always), (0x6000007B, .tretSkip .always), (0x8000007B, .haltCtx .always),
     (0x0308007D, .tlbi .always 6 4), (0x4184007D, .l2cfg .always 3 2), (0xA308007D, .migr .always 6 4), (0x82800071, .brk .always 5),
     (0x60000071, .rgn .always), (0xC0000071, .nop .always), (0x0000106F, .call .always 2), (0x00000401, .guardNop 0 0)].all
      (fun p => reads p.1 p.2) = true := by decide +kernel

/-- The 16-bit word of the listing of spec/02, and the words that the table of spec/02 refuses. -/
theorem test_decode_halves_and_refusals :
    decode (leBytes 2 0x0440) = .ok (.add16 1 2, 2) ∧ decode (leBytes 4 0x2B) = .error .reservedMajor ∧
    decode (leBytes 4 0x42B) = .ok (.guardNop 0 0x15, 4) ∧ decode (leBytes 4 0xE0000035) = .error .unlisted ∧
    decode (leBytes 4 0x00240827) = .error .unlisted ∧ decode [0, 0] = .error .badHalfword ∧
    decode [0x40, 0x84] = .error .badHalfword ∧ decode [0x27] = .error .truncated := by decide +kernel

/-! ## A well-formed instruction of every encoded constructor -/

/-- Samples 0 to 33. -/
noncomputable def samples0 : List Instr :=
  [.add16 17 30, .sub16 17 30, .and16 17 30, .or16 17 30, .xor16 17 30, .shl16 17 30, .shr16 17 30, .sar16 17 30,
   .mov16 17 30, .movi5 21 30, .fadd16 17 30, .fsub16 17 30, .fmul16 17 30, .fmin16 17 30, .fmax16 17 30, .addi5 21 30,
   .guardNop 77 8, .add ⟨false, 3⟩ 8 16 24, .sub ⟨false, 3⟩ 8 16 24, .addc ⟨false, 3⟩ 8 16 24, .subb ⟨false, 3⟩ 8 16 24,
   .minS32 ⟨false, 3⟩ 8 16 24, .maxS32 ⟨false, 3⟩ 8 16 24, .minN32 ⟨false, 3⟩ 8 16 24, .maxN32 ⟨false, 3⟩ 8 16 24,
   .mul ⟨false, 3⟩ 8 16 24, .mulhiS32 ⟨false, 3⟩ 8 16 24, .mulhiN32 ⟨false, 3⟩ 8 16 24, .mad ⟨false, 3⟩ 8 16 24,
   .divS32 ⟨false, 3⟩ 8 16 24, .divN32 ⟨false, 3⟩ 8 16 24, .remS32 ⟨false, 3⟩ 8 16 24, .remN32 ⟨false, 3⟩ 8 16 24,
   .and ⟨false, 3⟩ 8 16 24]

/-- Samples 34 to 67. -/
noncomputable def samples1 : List Instr :=
  [.or ⟨false, 3⟩ 8 16 24, .xor ⟨false, 3⟩ 8 16 24, .andn ⟨false, 3⟩ 8 16 24, .orn ⟨false, 3⟩ 8 16 24,
   .xnor ⟨false, 3⟩ 8 16 24, .not ⟨false, 3⟩ 16 24, .mov ⟨false, 3⟩ 16 24, .shl ⟨false, 3⟩ 8 16 24,
   .shr ⟨false, 3⟩ 8 16 24, .sar ⟨false, 3⟩ 8 16 24, .rotl ⟨false, 3⟩ 8 16 24, .rotr ⟨false, 3⟩ 8 16 24,
   .bfeN32 ⟨false, 3⟩ 8 16 24, .bfeS32 ⟨false, 3⟩ 8 16 24, .bfi ⟨false, 3⟩ 8 16 24, .popc ⟨false, 3⟩ 16 24,
   .clz ⟨false, 3⟩ 16 24, .ctz ⟨false, 3⟩ 16 24, .brev ⟨false, 3⟩ 16 24, .bperm ⟨false, 3⟩ 8 16 24,
   .abs ⟨false, 3⟩ 16 24, .neg ⟨false, 3⟩ 16 24, .sext ⟨false, 3⟩ 8 16 24, .addi ⟨false, 3⟩ 300 16 24,
   .shlImm ⟨false, 3⟩ 21 16 24, .shrImm ⟨false, 3⟩ 21 16 24, .sarImm ⟨false, 3⟩ 21 16 24, .rotlImm ⟨false, 3⟩ 21 16 24,
   .movl ⟨false, 3⟩ 43981 30, .movh ⟨false, 3⟩ 43981 30, .add64 ⟨false, 3⟩ 8 16 24, .sub64 ⟨false, 3⟩ 8 16 24,
   .mul64lo ⟨false, 3⟩ 8 16 24, .mulwS32 ⟨false, 3⟩ 8 16 24]

/-- Samples 68 to 101. -/
noncomputable def samples2 : List Instr :=
  [.mulwN32 ⟨false, 3⟩ 8 16 24, .shl64 ⟨false, 3⟩ 8 16 24, .shr64 ⟨false, 3⟩ 8 16 24, .sar64 ⟨false, 3⟩ 8 16 24,
   .icmpEq ⟨false, 3⟩ 1 8 16 2, .icmpNe ⟨false, 3⟩ 1 8 16 2, .icmpLt ⟨false, 3⟩ 1 1 8 16 2,
   .icmpLe ⟨false, 3⟩ 1 1 8 16 2, .icmpGt ⟨false, 3⟩ 1 1 8 16 2, .icmpGe ⟨false, 3⟩ 1 1 8 16 2,
   .fcmpEq ⟨false, 3⟩ 1 1 8 16 2, .fcmpNe ⟨false, 3⟩ 1 8 16 2, .fcmpLt ⟨false, 3⟩ 1 1 8 16 2,
   .fcmpLe ⟨false, 3⟩ 1 1 8 16 2, .fcmpGt ⟨false, 3⟩ 1 1 8 16 2, .fcmpGe ⟨false, 3⟩ 1 1 8 16 2, .pand .always 2 1 3,
   .por .always 2 1 3, .pxor .always 2 1 3, .pandn .always 2 1 3, .pnot .always 1 3, .p2g ⟨false, 3⟩ 24,
   .g2p ⟨false, 3⟩ 16, .pset .always 1 3, .voteAnyP .always 2 1 3, .voteAllP .always 2 1 3, .voteCountP .always 2 1 3,
   .voteBallotP .always 2 1 3, .voteAnyFx .always 2 1 3, .voteAllFx .always 2 1 3, .voteCountFx .always 2 1 3,
   .voteBallotFx .always 2 1 3, .fxrd ⟨false, 3⟩ 24, .fxclr ⟨false, 3⟩ 8]

/-- Samples 102 to 135. -/
noncomputable def samples3 : List Instr :=
  [.fxor ⟨false, 3⟩ 16, .fxtest .always 2 3, .shflIdx ⟨false, 3⟩ 1 9 16 24, .shflUp ⟨false, 3⟩ 1 9 16 24,
   .shflDown ⟨false, 3⟩ 1 9 16 24, .shflXor ⟨false, 3⟩ 1 9 16 24, .xredAdd .always 0 0 0 0, .xredMin .always 0 0 0 0,
   .xredMax .always 0 0 0 0, .xredLogic .always 0 0 0 0, .xscanAddInc .always 0 0 0 0, .xscanAddExc .always 0 0 0 0,
   .xscanMaxInc .always 0 0 0 0, .xscanMaxExc .always 0 0 0 0, .sadd ⟨false, 3⟩ 8 16 24, .ssub ⟨false, 3⟩ 8 16 24,
   .sand ⟨false, 3⟩ 8 16 24, .sor ⟨false, 3⟩ 8 16 24, .sshl ⟨false, 3⟩ 8 16 24, .sshr ⟨false, 3⟩ 8 16 24,
   .s2g ⟨false, 3⟩ 16 24, .g2s ⟨false, 3⟩ 16 24, .sv ⟨false, 3⟩ 16 24, .mset .always 0 0, .mget .always 0 0,
   .mand .always 2 1 3, .mor .always 2 1 3, .mfromp .always 1 3, .fadd ⟨false, 3⟩ 8 16 24, .fsub ⟨false, 3⟩ 8 16 24,
   .fmul ⟨false, 3⟩ 8 16 24, .ffma ⟨false, 3⟩ 8 16 24, .fmin ⟨false, 3⟩ 8 16 24, .fmax ⟨false, 3⟩ 8 16 24]

/-- Samples 136 to 169. -/
noncomputable def samples4 : List Instr :=
  [.fabs ⟨false, 3⟩ 16 24, .fneg ⟨false, 3⟩ 16 24, .faddBf16x2 ⟨false, 3⟩ 8 16 24, .fmulBf16x2 ⟨false, 3⟩ 8 16 24,
   .ffmaBf16x2 ⟨false, 3⟩ 8 16 24, .faddF16x2 ⟨false, 3⟩ 8 16 24, .fmulF16x2 ⟨false, 3⟩ 8 16 24,
   .ffmaF16x2 ⟨false, 3⟩ 8 16 24, .fmaxBf16x2 ⟨false, 3⟩ 8 16 24, .fminBf16x2 ⟨false, 3⟩ 8 16 24,
   .dot2Bf16 ⟨false, 3⟩ 8 16 24, .dot2F16 ⟨false, 3⟩ 8 16 24, .dot4E4m3 ⟨false, 3⟩ 8 16 24,
   .dot4E5m2 ⟨false, 3⟩ 8 16 24, .dot8E2m1 ⟨false, 3⟩ 8 16 24, .idot4S8 ⟨false, 3⟩ 8 16 24, .idot4N8 ⟨false, 3⟩ 8 16 24,
   .rcp ⟨false, 3⟩ 16 24, .rsq ⟨false, 3⟩ 16 24, .sqrt ⟨false, 3⟩ 16 24, .exp2 ⟨false, 3⟩ 16 24, .log2 ⟨false, 3⟩ 16 24,
   .sin ⟨false, 3⟩ 16 24, .cos ⟨false, 3⟩ 16 24, .tanh ⟨false, 3⟩ 16 24, .fcvt ⟨false, 3⟩ 2 2 2 16 24,
   .qencE2m1 ⟨false, 3⟩ 16 24, .qdecE2m1 ⟨false, 3⟩ 8 16 24, .pk2Bf16 ⟨false, 3⟩ 16 24, .pk2F16 ⟨false, 3⟩ 16 24,
   .pk4E4m3 ⟨false, 3⟩ 16 24, .pk4E5m2 ⟨false, 3⟩ 16 24, .unpkE4m3 ⟨false, 3⟩ 16 24, .unpkE5m2 ⟨false, 3⟩ 16 24]

/-- Samples 170 to 203. -/
noncomputable def samples5 : List Instr :=
  [.fclass ⟨false, 3⟩ 16 24, .frnd ⟨false, 3⟩ 16 24, .fgetexp ⟨false, 3⟩ 16 24, .fscale ⟨false, 3⟩ 8 16 24,
   .fcopysign ⟨false, 3⟩ 8 16 24, .fsat ⟨false, 3⟩ 16 24, .ld .always 0 0 0 0 0 0, .ldi ⟨false, 3⟩ 2 200 9 24,
   .ldv ⟨false, 3⟩ 2 1 8 9 24, .st ⟨false, 3⟩ 2 1 8 9 24, .sti ⟨false, 3⟩ 2 200 9 24, .pref ⟨false, 3⟩ 8 9,
   .touch ⟨false, 3⟩ 8 9, .probe ⟨false, 3⟩ 8 9 24, .farAddS32 ⟨false, 3⟩ 1 8 9 24, .farAddF32 ⟨false, 3⟩ 1 8 9 24,
   .farAddBf16x2 ⟨false, 3⟩ 1 8 9 24, .farMinS32 ⟨false, 3⟩ 1 8 9 24, .farMaxS32 ⟨false, 3⟩ 1 8 9 24,
   .farMinN32 ⟨false, 3⟩ 1 8 9 24, .farMaxN32 ⟨false, 3⟩ 1 8 9 24, .farMinF32 ⟨false, 3⟩ 1 8 9 24,
   .farMaxF32 ⟨false, 3⟩ 1 8 9 24, .farAnd ⟨false, 3⟩ 1 8 9 24, .farOr ⟨false, 3⟩ 1 8 9 24, .farXor ⟨false, 3⟩ 1 8 9 24,
   .farExch ⟨false, 3⟩ 1 8 9 24, .farCas ⟨false, 3⟩ 1 8 9 24, .farIncWrap ⟨false, 3⟩ 1 8 9 24,
   .farDecWrap ⟨false, 3⟩ 1 8 9 24, .faroAddS32 ⟨false, 3⟩ 1 8 9 24, .faroExchB32 ⟨false, 3⟩ 1 8 9 24,
   .faroCasB32 ⟨false, 3⟩ 1 8 9 24, .faroAddN64 ⟨false, 3⟩ 1 8 9 24]

/-- Samples 204 to 237. -/
noncomputable def samples6 : List Instr :=
  [.faroExchB64 ⟨false, 3⟩ 1 8 9 24, .faroCasB64 ⟨false, 3⟩ 1 8 9 24, .faroMinN64 ⟨false, 3⟩ 1 8 9 24,
   .faroMaxN64 ⟨false, 3⟩ 1 8 9 24, .sigAdd ⟨false, 3⟩ 8 9 24, .sigMax ⟨false, 3⟩ 8 9 24, .sigWaitGe ⟨false, 3⟩ 8 9 24,
   .sigWaitEq ⟨false, 3⟩ 8 9 24, .sigTest ⟨false, 3⟩ 8 9 24, .borrowX ⟨false, 3⟩ 8 5 9, .borrowS ⟨false, 3⟩ 8 5 9,
   .borrowXTry ⟨false, 3⟩ 2 8 5 9, .borrowSTry ⟨false, 3⟩ 2 8 5 9, .reborrowX ⟨false, 3⟩ 8 5 9,
   .reborrowS ⟨false, 3⟩ 8 5 9, .split2 ⟨false, 3⟩ 8 5 9, .split4 ⟨false, 3⟩ 8 5 9, .split8 .always 0 0 0,
   .join ⟨false, 3⟩ 5, .give ⟨false, 3⟩ 8 5, .freeze ⟨false, 3⟩ 5, .thaw ⟨false, 3⟩ 5, .returnBlk ⟨false, 3⟩ 5,
   .returnCore ⟨false, 3⟩ 5, .returnDie ⟨false, 3⟩ 5, .returnDev ⟨false, 3⟩ 5, .returnSys ⟨false, 3⟩ 5,
   .bstat ⟨false, 3⟩ 8 5, .bdrop ⟨false, 3⟩ 5, .fenceAcq .always 0 0, .fenceRel .always 0 0, .fenceAcqrel .always 0 0,
   .dflush ⟨false, 3⟩, .rcv .always 1]

/-- Samples 238 to 271. -/
noncomputable def samples7 : List Instr :=
  [.barSync .always 2 1, .barArrive .always 2 1, .barWait .always 2 1, .copy .always 0 0 0 0,
   .copyShadow .always 0 0 0 0, .publish ⟨false, 3⟩ 9, .cpwait ⟨false, 3⟩ 8, .cpstat ⟨false, 3⟩ 8 9,
   .cpcancel ⟨false, 3⟩ 9, .mbpost ⟨false, 3⟩ 8 16, .spawn ⟨false, 3⟩ 16 24, .hqpost ⟨false, 3⟩ 8 16,
   .hqtake ⟨false, 3⟩ 16 24, .hqpeek ⟨false, 3⟩ 16 24, .sleepUntil ⟨false, 3⟩ 16, .yield ⟨false, 3⟩,
   .dadd ⟨false, 3⟩ 2 2 2, .dsub ⟨false, 3⟩ 2 2 2, .dmul ⟨false, 3⟩ 2 2 2, .ddiv ⟨false, 3⟩ 2 2 2,
   .dmin ⟨false, 3⟩ 2 2 2, .dmax ⟨false, 3⟩ 2 2 2, .dmix ⟨false, 3⟩ 8 2 2 2, .dscale ⟨false, 3⟩ 8 2 2,
   .dshift ⟨false, 3⟩ 8 2 2, .dmap ⟨false, 3⟩ 2 2 2, .dneg ⟨false, 3⟩ 2 2, .dmov ⟨false, 3⟩ 2 2,
   .dcond ⟨false, 3⟩ 2 8 2 2, .dtag ⟨false, 3⟩ 1 8 2 2, .dnorm ⟨false, 3⟩ 2 2, .dsrc ⟨false, 3⟩ 8 2,
   .dpush ⟨false, 3⟩ 8 2, .dpushw ⟨false, 3⟩ 8 2]

/-- Samples 272 to 305. -/
noncomputable def samples8 : List Instr :=
  [.dld ⟨false, 3⟩ 1 8 2 2, .dst ⟨false, 3⟩ 1 8 2 2, .dselV ⟨false, 3⟩ 2 8 2, .dselW ⟨false, 3⟩ 2 8 2,
   .dmass ⟨false, 3⟩ 8 2, .dmom1 ⟨false, 3⟩ 8 2, .dmom2c ⟨false, 3⟩ 8 2, .dmom3c ⟨false, 3⟩ 8 2, .dmom4c ⟨false, 3⟩ 8 2,
   .dqnt ⟨false, 3⟩ 8 2, .dcdf ⟨false, 3⟩ 8 2, .dlo ⟨false, 3⟩ 8 2, .dhi ⟨false, 3⟩ 8 2, .bra ⟨false, 3⟩ 1048577,
   .call ⟨false, 3⟩ 1048577, .jmp ⟨false, 3⟩ 16, .ret ⟨false, 3⟩ 16, .exit ⟨false, 3⟩, .rgn ⟨false, 3⟩,
   .brk ⟨false, 3⟩ 8, .trap ⟨false, 3⟩ 8, .nop ⟨false, 3⟩, .halt ⟨false, 3⟩, .park ⟨false, 3⟩ 1048577,
   .tset ⟨false, 3⟩ 8 16, .tget ⟨false, 3⟩ 16 24, .tbind ⟨false, 3⟩ 8 16, .tdrop ⟨false, 3⟩ 16, .tchk ⟨false, 3⟩ 16 24,
   .lbrw .always 1 3, .lpref ⟨false, 3⟩ 16, .lstat ⟨false, 3⟩ 16 24, .lret .always 0 0, .lretry ⟨false, 3⟩ 16 24]

/-- Samples 306 to 330. -/
noncomputable def samples9 : List Instr :=
  [.lpin ⟨false, 3⟩ 16, .lunpin ⟨false, 3⟩ 16, .mcfg .always 0 0, .mcommit ⟨false, 3⟩, .mma ⟨false, 3⟩ 8 16,
   .mzero ⟨false, 3⟩ 16, .mfeed ⟨false, 3⟩ 16, .mdrain ⟨false, 3⟩ 16, .mwait ⟨false, 3⟩ 16, .mchain ⟨false, 3⟩ 16,
   .mfsr ⟨false, 3⟩ 2 24, .mtsr ⟨false, 3⟩ 2 24, .tret ⟨false, 3⟩, .tretSkip ⟨false, 3⟩, .haltCtx ⟨false, 3⟩,
   .ecall ⟨false, 3⟩ 2 24, .dbgmark ⟨false, 3⟩ 2 24, .tlbi ⟨false, 3⟩ 8 16, .l2wb .always 0 0 0, .l2cfg ⟨false, 3⟩ 8 16,
   .owalk .always 0 0 0, .bias .always 0 0, .migr ⟨false, 3⟩ 8 16, .invl1 .always 0 0, .pcnt ⟨false, 3⟩ 8 16 24]

/-- Whether an instruction is well formed and its own encoding decodes to it. -/
noncomputable def roundTrips (x : Instr) : Bool :=
  x.wf && match x.encoding with
    | some (n, w) => decide (decode (leBytes n w) = .ok (x, n))
    | none => false

theorem test_round_trip_samples0 : samples0.all roundTrips = true := by decide +kernel
theorem test_round_trip_samples1 : samples1.all roundTrips = true := by decide +kernel
theorem test_round_trip_samples2 : samples2.all roundTrips = true := by decide +kernel
theorem test_round_trip_samples3 : samples3.all roundTrips = true := by decide +kernel
theorem test_round_trip_samples4 : samples4.all roundTrips = true := by decide +kernel
theorem test_round_trip_samples5 : samples5.all roundTrips = true := by decide +kernel
theorem test_round_trip_samples6 : samples6.all roundTrips = true := by decide +kernel
theorem test_round_trip_samples7 : samples7.all roundTrips = true := by decide +kernel
theorem test_round_trip_samples8 : samples8.all roundTrips = true := by decide +kernel
theorem test_round_trip_samples9 : samples9.all roundTrips = true := by decide +kernel

/-! ## Scenes: one engine that issues one instruction -/

/-- Words 1, 2, 3 and so on in the registers from `r` on. -/
def withRegs (r : Nat) : List Word → Lane → Lane
  | [], l => l
  | v :: rest, l => withRegs (r + 1) rest (l.setReg r v)

/-- A lane whose thread is ready, with every predicate true. -/
def lane : Lane := { Lane.empty with status := .ready, preds := 0xFF }

/-- A gang of width 16 with the lanes of a list. -/
def gang (ls : List Lane) : Engine :=
  { Engine.blank with nregs := 64, ndist := 8, place := ⟨0, 0, 0, 0, 1, 0⟩, lanes := ls.zipIdx.map fun p => (p.2, p.1) }

/-- A sequencer with one lane's registers. -/
def sequencer (l : Lane) : Engine := { Engine.blank with kind := .seq, width := 1, lanes := [(0, l)] }

/-- The word of an encoded instruction, and its length. -/
noncomputable def wordOf (x : Instr) : Nat := ((x.encoding).map Prod.snd).getD 0
noncomputable def sizeOf (x : Instr) : Nat := ((x.encoding).map Prod.fst).getD 4

/-- The issue of an instruction at address 0 by the lanes of a mask. -/
noncomputable def issue (x : Instr) (lanes : Dword) : Issue :=
  { eng := 0, pc := 0, lanes, away := 0, insn := BitVec.ofNat 32 (wordOf x), len := sizeOf x }

/-- The booted device with a privileged context, one page of 1 GiB mapped at address 0, and engine 0, which issues an instruction. -/
noncomputable def scene (x : Instr) (lanes : Dword) (e : Engine) : State :=
  { State.reset with
    boot := { Boot.reset with mode := .running }
    ctxs := { Contexts.reset with table := [(0, placedContext)] }
    mem := { Mem.reset with cells := placedTables [] }
    work := { Work.reset with engines := [(0, e)] }
    cur := some (issue x lanes), arbitrated := true }

/-- Engine 0 after an instruction, and what a state holds after it. -/
noncomputable def after (x : Instr) (s : State) : Option State := match exec x s with
  | .next t => some t
  | _ => none
noncomputable def engineAfter (x : Instr) (s : State) : Option Engine := (after x s).bind fun t => t.engine 0

/-- Register `d` of lane 0 after one gang instruction of lane 0 whose registers from g3 on hold the words of a list. -/
noncomputable def result (x : Instr) (vs : List Word) (d : Nat) : Option Word :=
  (engineAfter x (scene x 1 (gang [withRegs 3 vs lane]))).map fun e => (e.lane 0).reg d

/-- The same for a predicate, and for the fx flags. -/
noncomputable def resultPred (x : Instr) (vs : List Word) (d : Nat) : Option Bool :=
  (engineAfter x (scene x 1 (gang [withRegs 3 vs lane]))).map fun e => (e.lane 0).pred d
noncomputable def resultFlags (x : Instr) (vs : List Word) : Option Fx :=
  (engineAfter x (scene x 1 (gang [withRegs 3 vs lane]))).map fun e => (e.lane 0).fx

/-- Whether engine 0 accepts an instruction and lane 0 executes it. -/
noncomputable def ready (x : Instr) (e : Engine) : Bool := match infoOf x with
  | some f => f.legal e.isSeq e.regCount && decide (e.guarded f.guard 1 = 1)
  | none => false

/-- A gang, or for the instructions of the sequencer alone the sequencer, that may run a sample. -/
noncomputable def runner (x : Instr) : Engine := match infoOf x with
  | some f => if f.laneOk then gang [lane] else sequencer lane
  | none => gang [lane]

/-- Lane 0 of an engine executes what it issues if its guard holds. -/
theorem executes_lane0 {e : Engine} {i : Issue} {g : Guard} (h : e.guarded g i.lanes = 1) : e.Executes i g 1 := by
  rw [← h]; exact e.executes_guarded i g

/-- The context of a scene is privileged. -/
theorem scene_privileged (x : Instr) (m : Dword) (e : Engine) (h : e.ctx = 0) : (scene x m e).privileged e = true := by
  simp only [State.privileged, h]; rfl

/-- The runner of a sample stands in context 0. -/
theorem runner_ctx (x : Instr) : (runner x).ctx = 0 := by
  unfold runner; split
  · split <;> rfl
  · rfl

/-- Engine 0 of a scene issues its instruction if it accepts it. -/
theorem scene_issues {x : Instr} {e : Engine} {f : Info} (hf : infoOf x = some f) (hl : f.legal e.isSeq e.regCount = true)
    (hc : e.ctx = 0) : (scene x 1 e).Issues x (issue x 1) e :=
  ⟨rfl, rfl, f, hf, hl, fun _ => scene_privileged x 1 e hc⟩

/-- Only lane 0 executes an instruction that lane 0 issues. -/
theorem only_lane0 {P : Nat → Lane → Prop} {e : Engine} {l : Lane} (hl : e.lanes = [(0, l)]) (h : P 0 l) :
    ∀ k m, (1 : Dword).getLsbD k = true → e.lanes.find? k = some m → P k m := by
  intro k m _ hm
  rw [hl] at hm
  simp only [Store.find?] at hm
  split at hm
  · next h0 => cases hm; exact h0 ▸ h
  · cases hm

/-- No lane stands below lane 0. -/
theorem none_below {P : Nat → Prop} : ∀ j, j < 0 → P j := fun _ h => absurd h (Nat.not_lt_zero _)

/-! ## Every encoded instruction has a state in which an engine issues and executes it -/

theorem ready_issues (x : Instr) (h : ready x (runner x) = true) :
    ∃ (s : State) (i : Issue) (e : Engine) (g : Guard) (live : Dword), s.Issues x i e ∧ e.Executes i g live ∧ live = 1 := by
  unfold ready at h
  split at h
  · next f hf =>
    obtain ⟨h1, h2⟩ := Bool.and_eq_true_iff.mp h
    exact ⟨scene x 1 (runner x), issue x 1, runner x, f.guard, 1, scene_issues hf h1 (runner_ctx x),
      executes_lane0 (of_decide_eq_true h2), rfl⟩
  · cases h

theorem test_ready_samples0 : samples0.all (fun x => ready x (runner x)) = true := by decide +kernel
theorem test_ready_samples1 : samples1.all (fun x => ready x (runner x)) = true := by decide +kernel
theorem test_ready_samples2 : samples2.all (fun x => ready x (runner x)) = true := by decide +kernel
theorem test_ready_samples3 : samples3.all (fun x => ready x (runner x)) = true := by decide +kernel
theorem test_ready_samples4 : samples4.all (fun x => ready x (runner x)) = true := by decide +kernel
theorem test_ready_samples5 : samples5.all (fun x => ready x (runner x)) = true := by decide +kernel
theorem test_ready_samples6 : samples6.all (fun x => ready x (runner x)) = true := by decide +kernel
theorem test_ready_samples7 : samples7.all (fun x => ready x (runner x)) = true := by decide +kernel
theorem test_ready_samples8 : samples8.all (fun x => ready x (runner x)) = true := by decide +kernel
theorem test_ready_samples9 : samples9.all (fun x => ready x (runner x)) = true := by decide +kernel

/-- Every sample meets the hypotheses that statements about one instruction share: an engine issues it and a lane executes it. -/
theorem witness_issued (x : Instr) (h : x ∈ samples0 ++ samples1 ++ samples2 ++ samples3 ++ samples4 ++ samples5 ++ samples6 ++ samples7 ++ samples8 ++ samples9) :
    ∃ (s : State) (i : Issue) (e : Engine) (g : Guard) (live : Dword), s.Issues x i e ∧ e.Executes i g live ∧ live = 1 := by
  apply ready_issues
  simp only [List.mem_append] at h
  obtain ((((((((h | h) | h) | h) | h) | h) | h) | h) | h) | h := h
  · exact List.all_eq_true.mp test_ready_samples0 x h
  · exact List.all_eq_true.mp test_ready_samples1 x h
  · exact List.all_eq_true.mp test_ready_samples2 x h
  · exact List.all_eq_true.mp test_ready_samples3 x h
  · exact List.all_eq_true.mp test_ready_samples4 x h
  · exact List.all_eq_true.mp test_ready_samples5 x h
  · exact List.all_eq_true.mp test_ready_samples6 x h
  · exact List.all_eq_true.mp test_ready_samples7 x h
  · exact List.all_eq_true.mp test_ready_samples8 x h
  · exact List.all_eq_true.mp test_ready_samples9 x h

/-! ## One instruction each: values by hand from the spec's rules -/

/-- A word placed where the next step fetches runs there: `movl g7, 0x1234` (R96). -/
theorem test_step_runs_movl :
    (match step (State.reset.withFetchWord 32 0x1234380F) with
      | .next t => (t.engine 0).map fun e => ((e.lane 3).reg 7, (e.lane 3).pc, t.clock.cyc)
      | _ => none) = some (0x1234, 4, 0) := by decide +kernel
/-- A 16-bit word moves the program counter by 2 (R39). -/
theorem test_step_runs_movi5 :
    (match step (State.reset.withFetchWord 16 0x7C32) with
      | .next t => (t.engine 0).map fun e => ((e.lane 15).reg 1, (e.lane 15).pc)
      | _ => none) = some (0xFFFFFFFF, 2) := by decide +kernel
/-- A zero halfword raises ILLEGAL: with no handler the gang stops for good (R41, R321). -/
theorem test_step_zero_halfword :
    (match step (State.reset.withFetchWord 16 0) with
      | .next t => (t.engine 0).map fun e => (e.ended, e.broken)
      | _ => none) = some (true, true) := by decide +kernel
/-- From reset the first step is the cold reset's (R463). -/
theorem test_step_from_reset : State.reset.wallEvent = some .coldReset := by decide +kernel

theorem test_add_wraps : result (.add .always 4 3 2) [0xFFFFFFFF, 2] 2 = some 1 := by decide +kernel
theorem test_sub : result (.sub .always 4 3 2) [1, 2] 2 = some 0xFFFFFFFF := by decide +kernel
theorem test_addc_carries : result (.addc .always 4 3 2) [0xFFFFFFFF, 0] 2 = some 0 ∧
    resultPred (.addc .always 4 3 2) [0xFFFFFFFE, 0] 7 = some false := by decide +kernel
theorem test_subb_borrows : result (.subb .always 4 3 2) [0, 0] 2 = some 0xFFFFFFFF ∧
    resultPred (.subb .always 4 3 2) [1, 0] 7 = some false := by decide +kernel
theorem test_min_max : result (.minS32 .always 4 3 2) [0x80000000, 1] 2 = some 0x80000000 ∧
    result (.maxS32 .always 4 3 2) [0x80000000, 1] 2 = some 1 ∧ result (.minN32 .always 4 3 2) [0x80000000, 1] 2 = some 1 ∧
    result (.maxN32 .always 4 3 2) [0x80000000, 1] 2 = some 0x80000000 := by decide +kernel
theorem test_mulhi : result (.mulhiS32 .always 4 3 2) [0xFFFFFFFF, 0xFFFFFFFF] 2 = some 0 ∧
    result (.mulhiN32 .always 4 3 2) [0xFFFFFFFF, 0xFFFFFFFF] 2 = some 0xFFFFFFFE := by decide +kernel
theorem test_mad_reads_d : result (.mad .always 4 3 5) [3, 4, 5] 5 = some 17 := by decide +kernel
/-- R90: division by zero, and −2^31 by −1. -/
theorem test_div_corners : result (.divS32 .always 4 3 2) [7, 0] 2 = some 0xFFFFFFFF ∧
    result (.remN32 .always 4 3 2) [7, 0] 2 = some 7 ∧
    result (.divS32 .always 4 3 2) [0x80000000, 0xFFFFFFFF] 2 = some 0x80000000 ∧
    result (.remS32 .always 4 3 2) [0x80000000, 0xFFFFFFFF] 2 = some 0 := by decide +kernel
theorem test_div_truncates : result (.divS32 .always 4 3 2) [0xFFFFFFF9, 2] 2 = some 0xFFFFFFFD ∧
    result (.remS32 .always 4 3 2) [0xFFFFFFF9, 2] 2 = some 0xFFFFFFFF := by decide +kernel
theorem test_addi_sign : result (.addi .always 511 3 2) [5] 2 = some 4 := by decide +kernel
theorem test_andn_orn : result (.andn .always 4 3 2) [0xF0, 0x30] 2 = some 0xC0 ∧
    result (.orn .always 4 3 2) [0xF0, 0xFFFFFF0F] 2 = some 0xF0 := by decide +kernel
theorem test_xnor : result (.xnor .always 4 3 2) [0xFF, 0x0F] 2 = some 0xFFFFFF0F := by decide +kernel
/-- A shift takes its amount from bits [4:0] alone (R93). -/
theorem test_shift_amounts : result (.shl .always 4 3 2) [1, 0xFFFFFFE1] 2 = some 2 ∧
    result (.sar .always 4 3 2) [0x80000000, 31] 2 = some 0xFFFFFFFF ∧ result (.rotr .always 4 3 2) [1, 1] 2 = some 0x80000000 := by
  decide +kernel
/-- R93: a field of four bits at position 4, and one that runs past bit 31. -/
theorem test_bfe : result (.bfeS32 .always 4 3 2) [0xF0, 0x404] 2 = some 0xFFFFFFFF ∧
    result (.bfeN32 .always 4 3 2) [0xF0, 0x404] 2 = some 0xF ∧
    result (.bfeS32 .always 4 3 2) [0xF0000000, 0x81C] 2 = some 0xF := by decide +kernel
theorem test_bfi : result (.bfi .always 4 3 5) [0, 0x804, 0xFFFFFFFF] 5 = some 0xFFFFF00F := by decide +kernel
/-- R95: byte 0, its sign fill, a zero byte and byte 3. -/
theorem test_bperm : result (.bperm .always 4 3 2) [0x8000007F, 0x34B0] 2 = some 0x8000FF7F := by decide +kernel
theorem test_bits : result (.clz .always 3 2) [0] 2 = some 32 ∧ result (.ctz .always 3 2) [8] 2 = some 3 ∧
    result (.popc .always 3 2) [0xFF] 2 = some 8 ∧ result (.brev .always 3 2) [1] 2 = some 0x80000000 := by decide +kernel
theorem test_abs_sext : result (.abs .always 3 2) [0x80000000] 2 = some 0x80000000 ∧
    result (.sext .always 4 3 2) [0x80, 7] 2 = some 0xFFFFFF80 ∧ result (.sext .always 4 3 2) [0x80, 31] 2 = some 0x80 := by
  decide +kernel
theorem test_movh_keeps_low_half : result (.movh .always 0xABCD 3) [0x12345678] 3 = some 0xABCD5678 := by decide +kernel
theorem test_add64_carries : result (.add64 .always 6 4 2) [0, 0xFFFFFFFF, 0, 1, 0] 3 = some 1 := by decide +kernel
theorem test_mulw_signed : result (.mulwS32 .always 4 3 6) [0xFFFFFFFF, 2] 7 = some 0xFFFFFFFF ∧
    result (.mulwN32 .always 4 3 6) [0xFFFFFFFF, 2] 7 = some 1 := by decide +kernel
theorem test_shl64 : result (.shl64 .always 6 4 2) [0, 1, 0, 33] 3 = some 2 := by decide +kernel
/-- R98: the signed and the unsigned order differ, and `.xor` combines with the old predicate. -/
theorem test_icmp : resultPred (.icmpLt .always 0 1 4 3 2) [0x80000000, 1] 2 = some true ∧
    resultPred (.icmpLt .always 0 0 4 3 2) [0x80000000, 1] 2 = some false ∧
    resultPred (.icmpEq .always 3 4 3 2) [1, 1] 2 = some false := by decide +kernel
/-- R99: −0 equals +0, and a quiet NaN raises NV in an ordered condition. -/
theorem test_fcmp : resultPred (.fcmpEq .always 0 0 4 3 2) [0x80000000, 0] 2 = some true ∧
    resultPred (.fcmpLt .always 0 0 4 3 2) [0x7FC00000, 0] 2 = some false ∧
    resultFlags (.fcmpLt .always 0 0 4 3 2) [0x7FC00000, 0] = some Fx.nv ∧
    resultFlags (.fcmpLt .always 0 1 4 3 2) [0x7FC00000, 0] = some Fx.none := by decide +kernel
theorem test_p2g : result (.p2g .always 2) [] 2 = some 0xFF := by decide +kernel
theorem test_g2p_keeps_p0 : resultPred (.g2p .always 3) [0] 0 = some true ∧ resultPred (.g2p .always 3) [0] 1 = some false := by
  decide +kernel
theorem test_p0_is_discarded : resultPred (.pset .always 0 0) [] 0 = some true := by decide +kernel
theorem test_fxor_fxclr : resultFlags (.fxor .always 3) [0xFFFFFFFF] = some 0x3F := by decide +kernel
theorem test_guard_false : result (.add ⟨true, 1⟩ 4 3 2) [1, 2] 2 = some 0 := by decide +kernel
theorem test_sv : result (.sv .always 8 2) [] 2 = some 16 ∧ result (.sv .always 17 2) [] 2 = some 0 := by decide +kernel

/-! ### Floating point (spec/01 and spec/05) -/

/-- R19 and R26: 1 + 2^−24 is a tie, which rne takes to the even code with NX. -/
theorem test_fadd_rounds_to_even : result (.fadd .always 4 3 2) [0x3F800000, 0x33800000] 2 = some 0x3F800000 ∧
    resultFlags (.fadd .always 4 3 2) [0x3F800000, 0x33800000] = some Fx.nx := by decide +kernel
/-- R123: the infinities cancel to the canonical NaN with NV. -/
theorem test_fsub_infinities : result (.fsub .always 4 3 2) [0x7F800000, 0x7F800000] 2 = some 0x7FC00000 ∧
    resultFlags (.fsub .always 4 3 2) [0x7F800000, 0x7F800000] = some Fx.nv := by decide +kernel
theorem test_fmul_underflows : result (.fmul .always 4 3 2) [0x00800000, 0x00800000] 2 = some 0 ∧
    resultFlags (.fmul .always 4 3 2) [0x00800000, 0x00800000] = some (Fx.uf ||| Fx.nx) := by decide +kernel
/-- 2 × 3 − 2.5 = 3.5, rounded once. -/
theorem test_ffma : result (.ffma .always 4 3 5) [0x40000000, 0x40400000, 0xC0200000] 5 = some 0x40600000 := by decide +kernel
/-- R125: −0 lies below +0; a quiet NaN gives the other operand. -/
theorem test_fmin_fmax : result (.fmin .always 4 3 2) [0, 0x80000000] 2 = some 0x80000000 ∧
    result (.fmax .always 4 3 2) [0x7FC00000, 0x3F800000] 2 = some 0x3F800000 := by decide +kernel
theorem test_fabs_fneg : result (.fabs .always 3 2) [0xFFC00001] 2 = some 0x7FC00001 ∧ result (.fneg .always 3 2) [0] 2 = some 0x80000000 := by
  decide +kernel
theorem test_packed : result (.faddBf16x2 .always 4 3 2) [0x3F80C020, 0x3F804020] 2 = some 0x40000000 := by decide +kernel
theorem test_dot4 : result (.dot4E4m3 .always 4 3 5) [0x38383838, 0x38383838, 0x3F800000] 5 = some 0x40A00000 := by decide +kernel
theorem test_idot4 : result (.idot4S8 .always 4 3 5) [0xFFFFFFFF, 0x02020202, 10] 5 = some 2 ∧
    result (.idot4N8 .always 4 3 5) [0x01010101, 0xFFFFFFFF, 0] 5 = some 1020 := by decide +kernel
/-- R129: 1/0, the root of −1, 2^3 and log2 of 8. -/
theorem test_sfu : result (.rcp .always 3 2) [0x80000000] 2 = some 0xFF800000 ∧ resultFlags (.rcp .always 3 2) [0x80000000] = some Fx.dz ∧
    result (.sqrt .always 3 2) [0xBF800000] 2 = some 0x7FC00000 ∧ result (.exp2 .always 3 2) [0x40400000] 2 = some 0x41000000 ∧
    result (.log2 .always 3 2) [0x41000000] 2 = some 0x40400000 := by decide +kernel
/-- R27: x = 1 + 2^−9 under the dithered rounding at position 0, phase 0, goes down to 1.0. -/
theorem test_fcvt_bf16 : result (.fcvt .always 4 2 0 3 2) [0x3F804000] 2 = some 0x3F80 := by decide +kernel
/-- R28: 470 converts to e4m3 as the canonical NaN, and with saturation as 448. -/
theorem test_fcvt_e4m3 : result (.fcvt .always 0 3 0 3 2) [0x43EB0000] 2 = some 0x7F ∧
    result (.fcvt .always 5 3 0 3 2) [0x43EB0000] 2 = some 0x7E := by decide +kernel
theorem test_fclass : result (.fclass .always 3 2) [0xFF800000] 2 = some 1 ∧ result (.fclass .always 3 2) [0x00000001] 2 = some 0x20 := by
  decide +kernel
theorem test_fgetexp : result (.fgetexp .always 3 2) [0x41000000] 2 = some 3 ∧ result (.fgetexp .always 3 2) [0] 2 = some 0x80000000 := by
  decide +kernel
theorem test_fcopysign_fsat : result (.fcopysign .always 4 3 2) [0x3F800000, 0x80000000] 2 = some 0xBF800000 ∧
    result (.fsat .always 3 2) [0xC0000000] 2 = some 0 ∧ result (.fsat .always 3 2) [0x40000000] 2 = some 0x3F800000 := by decide +kernel

/-- The block of spec/05: lanes 0 to 7 hold eight values, and `qenc` gives their word and scale code. -/
theorem test_qenc_listing :
    (let lanes := [0x3F400000, 0xBFC00000, 0x40800000, 0x40380000, 0, 0xBE000000, 0x41200000, 0xC0500000].map fun (v : Word) => lane.setReg 2 v
     (engineAfter (.qencE2m1 .always 2 6) (scene (.qencE2m1 .always 2 6) 0xFF (gang lanes))).map fun e =>
       ((e.lane 0).reg 6, (e.lane 7).reg 7)) = some (0xC78034A1, 0x76) := by decide +kernel

/-! ### Several lanes -/

/-- Four lanes with the words of a list in g3, whose mask m0 names them all. -/
noncomputable def four (x : Instr) (vs : List Word) : Option Engine :=
  engineAfter x (scene x 0xF ((gang (vs.map fun v => lane.setReg 3 v)).setMask 0 0xF))

theorem test_vote_ballot : (four (.voteBallotP .always 0 1 2) [1, 2, 3, 4]).map (fun e => e.mask 2) = some 0xF := by decide +kernel
theorem test_vote_count : (four (.voteCountP .always 0 1 2) [1, 2, 3, 4]).map (fun e => (e.lane 3).reg 2) = some 4 := by decide +kernel
/-- R111: lane 3's source, lane 4, did not arrive, so it takes its own value. -/
theorem test_shfl_down : (four (.shflDown .always 0 4 3 2) [10, 11, 12, 13]).map (fun e => ((e.lane 0).reg 2, (e.lane 3).reg 2)) =
    some (10, 13) ∧ (four (.shflXor .always 0 5 3 2) [10, 11, 12, 13]).map (fun e => (e.lane 2).reg 2) = some 12 := by decide +kernel
theorem test_xred_add : (four (.xredAdd .always 0 0 3 2) [1, 2, 3, 4]).map (fun e => (e.lane 1).reg 2) = some 10 := by decide +kernel
theorem test_xred_min_signed : (four (.xredMin .always 0 0 3 2) [1, 0x80000000, 3, 4]).map (fun e => (e.lane 0).reg 2) = some 0x80000000 ∧
    (four (.xredMin .always 0 1 3 2) [1, 0x80000000, 3, 4]).map (fun e => (e.lane 0).reg 2) = some 1 := by decide +kernel
theorem test_xscan : (four (.xscanAddExc .always 0 0 3 2) [1, 2, 3, 4]).map (fun e => ((e.lane 0).reg 2, (e.lane 3).reg 2)) = some (0, 6) ∧
    (four (.xscanAddInc .always 0 0 3 2) [1, 2, 3, 4]).map (fun e => (e.lane 3).reg 2) = some 10 := by decide +kernel
/-- R106 and R108: lane 0 arrives alone and waits; a mask wider than the gang raises MASK, which stops a gang without a handler. -/
theorem test_instance_waits :
    (engineAfter (.rcv .always 0) (scene (.rcv .always 0) 1 ((gang [lane, lane]).setMask 0 3))).map
      (fun e => ((e.lane 0).status, e.open_.length)) = some (.waiting, 1) := by decide +kernel
theorem test_mask_too_wide :
    (engineAfter (.rcv .always 0) (scene (.rcv .always 0) 3 ((gang [lane, lane]).setMask 0 0x10000))).map (fun e => e.broken) = some true := by
  decide +kernel
theorem test_uniform_and_masks :
    (engineAfter (.sadd .always 2 1 3) (scene (.sadd .always 2 1 3) 1 (((gang [lane]).setSreg 1 5).setSreg 2 7))).map (fun e => e.sreg 3) =
      some 12 ∧
    (engineAfter (.mget .always 1 4) (scene (.mget .always 1 4) 1 ((gang [lane]).setMask 1 0x100000002))).map (fun e => (e.lane 0).pair 4) =
      some 0x100000002 := by decide +kernel

/-! ### Memory, regions and the rest -/

/-- An exclusive borrow of 4 KiB at device address 0x400000, in space 0xF (R272). -/
def region : Region :=
  { Region.empty with kind := .exclusive, base := 0xF000000000400000, extent := 4096, obj := 5, version := 1 }

/-- A one-lane gang with the region in h3 and the words of a list in its registers from g4 on. -/
def holder (r : Region) (vs : List Word) : Engine := (gang [withRegs 4 vs lane]).setRegion 3 r

/-- The scene of an instruction of such a gang, with bytes in memory at 0x400000. -/
noncomputable def memScene (x : Instr) (r : Region) (vs : List Word) (bs : List Byte) : State :=
  let s := scene x 1 (holder r vs)
  { s with mem := { s.mem with cells := s.mem.cells.writeBytes 0x400000 bs } }

/-- A block of one gang, as block 1 of launch 0. -/
def block : Block :=
  { launch := 0, index := 0, place := ⟨0, 0, 0, 0, 1, 0⟩, slot := 0, record := 0, scratchOff := 0, scratchLen := 128, gangs := [0],
    resident := true, threads := 2, exited := 0, barrier := .fresh, drains := 0, ended := false }

/-- A region over the scratchpad of the block, whose bytes a load takes at its issue (space 0x3, R272). -/
def scratch : Region := { region with base := 0x3000000000000000, extent := 128 }

/-- A gang of the block that holds the scratchpad in h3. -/
def scratchHolder (vs : List Word) : Engine := { holder scratch vs with block := some 1 }

/-- The scene of an instruction of that gang, with bytes at the start of its scratchpad. -/
noncomputable def scratchScene (x : Instr) (vs : List Word) (bs : List Byte) : State :=
  let s := scene x 1 (scratchHolder vs)
  { s with work := { s.work with blocks := [(1, block)] }, mem := { s.mem with cells := s.mem.cells.writeBytes (scratchLoc 0 0) bs } }

theorem test_ld_b32 :
    (engineAfter (.ld .always 2 0 0 4 3 2) (scratchScene (.ld .always 2 0 0 4 3 2) [4] [0, 0, 0, 0, 0x78, 0x56, 0x34, 0x12])).map
      (fun e => (e.lane 0).reg 2) = some 0x12345678 := by decide +kernel
/-- R51 and R145: a byte, sign-extended. -/
theorem test_ld_s8 :
    (engineAfter (.ld .always 0 1 0 0 3 2) (scratchScene (.ld .always 0 1 0 0 3 2) [] [0x80])).map
      (fun e => (e.lane 0).reg 2) = some 0xFFFFFF80 := by decide +kernel
theorem test_ldi_offset :
    (engineAfter (.ldi .always 2 1 3 2) (scratchScene (.ldi .always 2 1 3 2) [] [1, 2, 3, 4, 5, 6, 7, 8])).map
      (fun e => (e.lane 0).reg 2) = some 0x08070605 := by decide +kernel
/-- R476: a load that its core does not serve leaves for the home of its line after 40 cycles, and its register waits. -/
theorem test_ldi_home :
    (after (.ldi .always 2 1 3 2) (memScene (.ldi .always 2 1 3 2) region [] [])).map
      (fun t => (t.mem.mesh.map fun q => (q.2.dest, q.2.parts.map MeshPart.loc), (t.engine 0).map fun e => e.sb.map SbEntry.key)) =
      some ([(2, [0x400004])], some [.reg .g 2]) := by decide +kernel
/-- R307: a store enters the buffer and writes no memory yet; R308: it is forwarded to the gang's own loads. -/
theorem test_st_enters_buffer :
    (after (.st .always 2 0 0 3 4) (memScene (.st .always 2 0 0 3 4) region [0xAABBCCDD] [])).map
      (fun t => (t.readHome 0x400000, (t.engine 0).map fun e => (e.beats.length, e.forwarded 0x400003))) =
      some (0, some (1, some 0xAA)) := by decide +kernel
/-- R309: `exit` is a commit point, so the byte is in memory after it. -/
theorem test_commit_performs :
    (after (.rgn .always) (let s := memScene (.rgn .always) region [] []
      s.setEngine 0 { holder region [] with beats := [⟨0xF, 0xF000000000400000, 5, 1, [(0x400002, 0x5A)], 0, false⟩] })).map
      (fun t => t.readHome 0x400002) = some 0x5A := by decide +kernel
/-- R143: one byte past the extent is refused, which stops a gang without a handler. -/
theorem test_ld_outside :
    (engineAfter (.ld .always 2 0 0 4 3 2) (memScene (.ld .always 2 0 0 4 3 2) region [4096] [])).map (fun e => e.broken) = some true := by
  decide +kernel
theorem test_probe :
    (engineAfter (.probe .always 0 3 2) (memScene (.probe .always 0 3 2) region [] [])).map (fun e => (e.lane 0).reg 2) = some 7 := by
  decide +kernel

/-- A gang with a handler at 0x40 and a save slot at virtual address 0x8000, which the page table maps at 2^30 + 0x8000. -/
def handled (e : Engine) : Engine := { e with tvec := 0x40, savep := 0x8000 }

/-- R316 to R320: `trap 5` enters the handler; s31 names the frame, whose first bytes are CAUSE 0x0D and FLAGS 4, and whose last word is the
code. -/
theorem test_trap_enters_handler :
    (after (.trap .always 5) (scene (.trap .always 5) 1 (handled (gang [lane, lane])))).map (fun t =>
      ((t.engine 0).map (fun e => ((e.lane 0).pc, (e.lane 1).held, e.sreg 31, e.inHandler)),
        leValue (t.readHomeBytes (2 ^ 30 + 0x8000) 4), leValue (t.readHomeBytes (2 ^ 30 + 0x8000 + 60) 4))) =
      some (some (0x40, true, 0x8000, true), 0x4000D, 5) := by decide +kernel
/-- R321: a trap in a handler stops the gang. -/
theorem test_nested_trap :
    (engineAfter (.trap .always 5) (scene (.trap .always 5) 1 { handled (gang [{ lane with handler := true }]) with inHandler := true })).map
      (fun e => (e.ended, e.broken)) = some (true, true) := by decide +kernel
/-- R221: `tret.skip` resumes the lanes of the frame behind a 32-bit instruction. -/
theorem test_tret_skip :
    (let frame := leBytes 8 0x4000D ++ leBytes 8 1 ++ leBytes 8 0x100 ++ leBytes 8 0x80000071
     let s := scene (.tretSkip .always) 1 { handled (gang [{ lane with handler := true }]) with inHandler := true }
     (engineAfter (.tretSkip .always)
       { s with mem := { s.mem with cells := s.mem.cells.writeBytes (2 ^ 30 + 0x8000) frame } }).map fun e => ((e.lane 0).pc, e.inHandler)) =
      some (0x104, false) := by decide +kernel
theorem test_bra_back : (engineAfter (.bra .always 0x1FFFFC) (scene (.bra .always 0x1FFFFC) 1 (gang [lane]))).map (fun e => (e.lane 0).pc) =
    some 0xFFFFFFF8 := by decide +kernel
theorem test_call_links : result (.call .always 8) [] 63 = some 4 := by decide +kernel
theorem test_exit_ends_gang : (engineAfter (.exit .always) (scene (.exit .always) 1 (gang [lane]))).map (fun e => e.ended) = some true := by
  decide +kernel
theorem test_halt_stops : (engineAfter (.halt .always) (scene (.halt .always) 1 (gang [lane]))).map (fun e => (e.lane 0).stopped) =
    some true := by decide +kernel
/-- R218: FPM keeps its mode where the value written names none, and takes DPH. -/
theorem test_mtsr_fpm :
    (engineAfter (.mtsr .always 0 4) (scene (.mtsr .always 0 4) 1 (gang [withRegs 4 [0x307] lane]))).map (fun e => e.fpm) = some 0x300 ∧
    (engineAfter (.mtsr .always 0 4) (scene (.mtsr .always 0 4) 1 (gang [withRegs 4 [2] lane]))).map (fun e => e.fpm) = some 2 := by
  decide +kernel
/-- R219: a privileged register outside a privileged context raises PRIV. -/
theorem test_mfsr_priv :
    (engineAfter (.mfsr .always 0x20 4) (let s := scene (.mfsr .always 0x20 4) 1 (gang [lane])
      { s with ctxs := { s.ctxs with table := [(0, { placedContext with privileged := false })] } })).map (fun e => e.broken) = some true := by
  decide +kernel

/-- A mesh request whose only part is an operation on 0x400000. -/
def partOf (op : MeshOp) : MeshPart := { lane := 0, addr := 0xF000000000400000, loc := 0x400000, op, value := none, done := false }
def requestOf (op : MeshOp) : MeshReq :=
  { id := 1, eng := 0, pc := 0, dest := 2, home := 0, hops := 0, crossings := 0, order := 0, stage := .travelling, due := 0, wait := 0,
    parts := [partOf op] }

/-- The word at 0x400000 after an operation at its home, from a first word. -/
noncomputable def atHome (op : MeshOp) (m : Nat) : Nat :=
  leValue (((memScene (.nop .always) region [] (leBytes 8 m)).performPart (requestOf op) (partOf op)).1.readHomeBytes 0x400000 8)

theorem test_far_add_wraps : atHome (.far 0 false 2 0 4) 0xFFFFFFFF = 1 := by decide +kernel
theorem test_far_min_signed : atHome (.far 3 false 1 0 4) 0x80000000 = 0x80000000 ∧ atHome (.far 5 false 1 0 4) 0x80000000 = 1 := by
  decide +kernel
theorem test_far_cas : atHome (.far 13 false 7 9 4) 7 = 9 ∧ atHome (.far 13 false 7 9 4) 8 = 8 := by decide +kernel
theorem test_far_wraps : atHome (.far 14 false 5 0 4) 5 = 0 ∧ atHome (.far 14 false 5 0 4) 4 = 5 ∧ atHome (.far 15 false 5 0 4) 0 = 5 ∧
    atHome (.far 15 false 5 0 4) 6 = 5 := by decide +kernel
theorem test_sig_add : atHome (.sigAdd 3) 0xFFFFFFFF = 0x100000002 := by decide +kernel

/-- The example of spec/07: two three-point registers added, then their moments and the median. -/
def third (a b c : Nat) : Dist :=
  { Dist.empty with pts := [(a, 0x3E800000), (b, 0x3F000000), (c, 0x3E800000), (0, 0), (0, 0), (0, 0), (0, 0), (0, 0)] }
def summed : Dist :=
  let vs := [0x3F000000, 0x3FC00000, 0x40400000, 0x40800000, 0x40800000, 0x40A00000, 0x40D00000, 0x40F00000]
  { Dist.empty with pts := vs.map (·, 0x3E000000) }
/-- A lane with distributions from d0 on, and p = 0.5 in g6. -/
def distLane (ds : List Dist) : Lane := { lane.setReg 6 0x3F000000 with dists := ds.zipIdx.map fun p => (p.2, p.1) }

theorem test_dadd_condenses :
    (engineAfter (.dadd .always 1 0 2) (scene (.dadd .always 1 0 2) 1
      (gang [distLane [third 0 0x3F800000 0x40000000, third 0 0x40400000 0x40C00000]]))).map (fun e =>
        ((e.lane 0).dist 2, (e.lane 0).fx)) = some (summed, Fx.none) := by decide +kernel
/-- A distribution extraction from d0 into g4, or into g6 for `dqnt`. -/
noncomputable def extracted (x : Instr) (d : Nat) : Option Word :=
  (engineAfter x (scene x 1 (gang [distLane [summed]]))).map fun e => (e.lane 0).reg d
theorem test_moments : extracted (.dmom1 .always 4 0) 4 = some 0x40800000 ∧ extracted (.dmom2c .always 4 0) 4 = some 0x409C0000 ∧
    extracted (.dqnt .always 6 0) 6 = some 0x40800000 := by decide +kernel
theorem test_dmass_dlo_dhi : extracted (.dmass .always 4 0) 4 = some 0x3F800000 ∧ extracted (.dlo .always 4 0) 4 = some 0x3F000000 ∧
    extracted (.dhi .always 4 0) 4 = some 0x40F00000 := by decide +kernel
theorem test_dneg :
    (engineAfter (.dneg .always 0 1) (scene (.dneg .always 0 1) 1 (gang [distLane [third 0 0x3F800000 0x40000000]]))).map
      (fun e => ((e.lane 0).dist 1).pts.head?) = some (some (0x80000000, 0x3E800000)) := by decide +kernel

/-- R155 and R256: a borrow sleeps and its request is judged at the entry in the same cycle. -/
theorem test_borrow_sleeps :
    (after (.borrowX .always 4 2 2) (scene (.borrowX .always 4 2 2) 1 (gang [lane]))).map (fun t => (t.own.requests.length, t.work.waits.length)) =
      some (1, 1) := by decide +kernel
/-- R160: a return empties its register at issue; the entry of a shared borrow counts down. -/
theorem test_return_shared :
    (let s := scene (.returnDev .always 3) 1 (holder { region with kind := .shared } [])
     let s := s.setEntry 5 { s.entry 5 with kind := .shared, holders := 2, version := 1 }
     (after (.returnDev .always 3) s).map fun t => ((t.engine 0).map fun e => (e.region 3).kind, (t.entry 5).holders)) =
      some (some .none, 1) := by decide +kernel
theorem test_bstat :
    (engineAfter (.bstat .always 4 3) (scene (.bstat .always 4 3) 1 (holder { region with status := 3, frozenSelf := true } []))).map
      (fun e => (e.lane 0).reg 4) = some 0x53 := by decide +kernel
theorem test_reborrow_freezes :
    (engineAfter (.reborrowX .always 4 3 2) (scene (.reborrowX .always 4 3 2) 1 (holder region [128, 256]))).map
      (fun e => ((e.region 2).extent, (e.region 3).frozenChild, (e.region 3).children)) = some (256, true, 1) := by decide +kernel

/-- A bubble lets WALL go on alone; a work cycle with nothing left lets both go on (R4, R5). -/
theorem test_ticks :
    (State.reset.tick false).clock.cyc = 0 ∧ (State.reset.tick false).clock.wall = 1 ∧ (State.reset.tick true).clock.cyc = 1 := by
  refine ⟨rfl, rfl, rfl⟩

/-! ## Witnesses: states and operands that meet the hypotheses of the statements -/

/-- An engine that accepts an instruction of a scene, in whichever state the scene has become. -/
theorem issues_of {s : State} {x : Instr} {e : Engine} {m : Dword} (hc : s.cur = some (issue x m)) (he : s.engine 0 = some e)
    {f : Info} (hf : infoOf x = some f) (hl : f.legal e.isSeq e.regCount = true) (hp : s.privileged e = true) :
    s.Issues x (issue x m) e := ⟨hc, he, f, hf, hl, fun _ => hp⟩

/-- The lowest live lane of an instruction of lane 0. -/
theorem lowest_of {s : State} {x : Instr} {g : Guard} {e : Engine} {l : Lane} (hi : s.Issues x (issue x 1) e)
    (hg : e.guarded g 1 = 1) (hl : e.lanes = [(0, l)]) (hb : e.beats = []) : Spec.Lowest s x g (issue x 1) e 1 0 l :=
  ⟨hi, executes_lane0 hg, rfl, none_below, by rw [hl]; rfl, hb⟩

/-- A misaligned pair, and a privileged register outside a privileged context (RefusedWordsRaiseIllegal). -/
theorem witness_DecodeChecks :
    (∃ f, (Instr.add64 .always 2 4 5).encoding.isSome = true ∧ infoOf (.add64 .always 2 4 5) = some f ∧
      (scene (.add64 .always 2 4 5) 1 (gang [lane])).cur = some (issue (.add64 .always 2 4 5) 1) ∧
      (scene (.add64 .always 2 4 5) 1 (gang [lane])).engine 0 = some (gang [lane]) ∧
      f.legal (gang [lane]).isSeq (gang [lane]).regCount = false) ∧
    (∃ f, infoOf (.mfsr .always 0x20 4) = some f ∧ f.legal (gang [lane]).isSeq (gang [lane]).regCount = true ∧ f.priv = true ∧
      State.reset.privileged (gang [lane]) = false) :=
  ⟨⟨_, rfl, rfl, rfl, rfl, by decide +kernel⟩, ⟨_, rfl, by decide +kernel, by decide +kernel, by decide +kernel⟩⟩

/-- An addition whose flag FPX takes: NX is raised and TMODE enables it (the second clause of FlagsAt). -/
theorem witness_FloatArithmetic :
    let x : Instr := .fadd .always 4 3 2
    let e := { gang [withRegs 3 [0x3F800000, 0x33800000] lane] with tmode := 0x1F }
    (scene x 1 e).Issues x (issue x 1) e ∧ e.Executes (issue x 1) .always 1 ∧ (scene x 1 e).trapQueued 0 = false ∧
      (fAdd .f32 e.rounding 0x3F800000 0x33800000).flags = Fx.nx :=
  ⟨scene_issues rfl (by decide +kernel) rfl, executes_lane0 (by decide +kernel), by decide +kernel, by decide +kernel⟩

/-- Lanes that meet at one issue (CompletesAcross), and a mask that awaits a live lane (ArrivalsOpenAnInstance). -/
theorem witness_CrossLaneInstructions :
    let x : Instr := .xredAdd .always 0 0 3 2
    let e := (gang [lane, lane]).setMask 0 3
    (scene x 3 e).Issues x (issue x 3) e ∧ e.Executes (issue x 3) .always 3 ∧ e.Meets (issue x 3) (e.mask 0) 3 := by
  refine ⟨⟨rfl, rfl, _, rfl, by decide +kernel, by decide +kernel⟩, ?_, ?_⟩
  · have h : ((gang [lane, lane]).setMask 0 3).guarded .always 3 = 3 := by decide +kernel
    exact h ▸ Engine.executes_guarded _ (issue (.xredAdd .always 0 0 3 2) 3) .always
  · exact ⟨by decide, fun _ h => h, by decide +kernel, fun k h h' => absurd (h'.symm.trans h) (by decide), fun y hy => by cases hy⟩

theorem witness_ArrivalsOpenAnInstance :
    let x : Instr := .rcv .always 0
    let e := (gang [lane, lane]).setMask 0 3
    (scene x 1 e).Issues x (issue x 1) e ∧ e.Executes (issue x 1) .always 1 ∧ (∀ y ∈ e.open_, y.pc ≠ (issue x 1).pc ∧ y.complete e = false) ∧
      (e.mask 0).toNat < 2 ^ e.width ∧ (∀ k, (1 : Dword).getLsbD k = true → (e.mask 0).getLsbD k = true) ∧
      ((e.mask 0).getLsbD 1 = true ∧ (issue x 1).lanes.getLsbD 1 = false ∧ (e.lane 1).live = true) := by
  refine ⟨⟨rfl, rfl, _, rfl, by decide +kernel, by decide +kernel⟩, executes_lane0 (by decide +kernel), (fun y hy => by cases hy),
    by decide +kernel, ?_, by decide +kernel⟩
  intro k hk
  obtain rfl : k = 0 := by
    have h := BitVec.lt_of_getLsbD hk
    revert hk
    rcases k with _ | k
    · simp
    · intro hk
      have := Nat.testBit_lt_two_pow (x := 1) (i := k + 1) (by have := Nat.one_lt_two_pow (n := k + 1) (by omega); omega)
      simp [BitVec.getLsbD] at hk
      exact absurd (this.symm.trans hk) (by decide)
  decide +kernel

/-- A scene whose gang belongs to that block. -/
noncomputable def blockScene (x : Instr) (m : Dword) (e : Engine) : State :=
  let s := scene x m e
  { s with work := { s.work with blocks := [(1, block)] } }

/-- A gang of a block meets at its block barrier (Barriers), and one outside a block is refused. -/
theorem witness_Barriers :
    let x : Instr := .barSync .always 0 0
    let e := { (gang [lane]).setMask 0 1 with block := some 1 }
    (blockScene x 1 e).Issues x (issue x 1) e ∧ e.Executes (issue x 1) .always 1 ∧ e.Meets (issue x 1) (e.mask 0) 1 ∧ e.beats = [] ∧
      (blockScene x 1 e).barrierOf e none = some .fresh ∧ Barrier.fresh.mask = none ∧
      ((gang [lane]).block.isSome && ((none : Option Nat).map ((scene x 1 (gang [lane])).holdsCohort (gang [lane]))).getD true) = false :=
  ⟨⟨rfl, rfl, _, rfl, by decide +kernel, by decide +kernel⟩, executes_lane0 (by decide +kernel),
    ⟨by decide, fun _ h => h, by decide +kernel, fun k h h' => absurd (h'.symm.trans h) (by decide), fun y hy => by cases hy⟩,
    rfl, rfl, rfl, rfl⟩

/-- The lane of a gang with a region in h3. -/
theorem holder_lanes (r : Region) (vs : List Word) : (holder r vs).lanes = [(0, withRegs 4 vs lane)] := rfl

/-- A load of four bytes whose checks pass and which its core does not serve (LoadsTakeTheirBytes). -/
theorem witness_LoadsAndProbes :
    let x : Instr := .ldi .always 2 1 3 2
    let e := holder region []
    let s := memScene x region [] [1, 2, 3, 4, 5, 6, 7, 8]
    s.Issues x (issue x 1) e ∧ e.Executes (issue x 1) .always 1 ∧
      Spec.Allowed s e region .load 4 1 (fun _ => region.base + 4) ∧ spaceOf region.base ≠ 4 ∧ spaceOf region.base ≠ 6 ∧ s.repair.reads = [] ∧
      (∀ k l, (1 : Dword).getLsbD k = true → e.lanes.find? k = some l →
        ∃ loc p, resolve s (e.asker k) (s.scratchOf e) .load (region.base + 4) = .at_ loc 0 p ∧ loc < 2 ^ 63 ∧ s.unreachable loc = false ∧
          s.poisonAt loc 4 = none) ∧
      s.loadsHere 0 e region.obj region.version ⟨0, region.base + 4, 0x400004⟩ = false :=
  ⟨⟨rfl, rfl, _, rfl, by decide +kernel, by decide +kernel⟩, executes_lane0 (by decide +kernel),
    ⟨by decide +kernel, fun _ => by decide +kernel, by decide +kernel, ⟨rfl, rfl⟩,
      only_lane0 (P := fun _ _ => _ ∧ _ ∧ _ ∧ _) rfl ⟨by decide +kernel, by decide +kernel, by decide +kernel, by decide +kernel⟩⟩,
    by decide +kernel, by decide +kernel, rfl,
    only_lane0 (P := fun k _ => ∃ loc p, _ = _ ∧ _ ∧ _ ∧ _) rfl
      ⟨0x400004, none, by decide +kernel, by decide, by decide +kernel, by decide +kernel⟩, by decide +kernel⟩

/-- A load of the scratchpad, which its core serves. -/
theorem witness_LoadsAndProbes_here :
    let x : Instr := .ldi .always 2 1 3 2
    let e := scratchHolder []
    let s := scratchScene x [] [1, 2, 3, 4, 5, 6, 7, 8]
    s.Issues x (issue x 1) e ∧ e.Executes (issue x 1) .always 1 ∧
      Spec.Allowed s e scratch .load 4 1 (fun _ => scratch.base + 4) ∧
      (∀ k l, (1 : Dword).getLsbD k = true → e.lanes.find? k = some l →
        ∃ loc p, resolve s (e.asker k) (s.scratchOf e) .load (scratch.base + 4) = .at_ loc 0 p ∧ loc < 2 ^ 63 ∧ s.unreachable loc = false ∧
          s.poisonAt loc 4 = none) ∧
      s.loadsHere 0 e scratch.obj scratch.version ⟨0, scratch.base + 4, scratchLoc 0 4⟩ = true :=
  ⟨⟨rfl, rfl, _, rfl, by decide +kernel, by decide +kernel⟩, executes_lane0 (by decide +kernel),
    ⟨by decide +kernel, fun h => absurd h (by decide +kernel), by decide +kernel, ⟨rfl, rfl⟩,
      only_lane0 (P := fun _ _ => _ ∧ _ ∧ _ ∧ _) rfl ⟨by decide +kernel, by decide +kernel, by decide +kernel, by decide +kernel⟩⟩,
    only_lane0 (P := fun k _ => ∃ loc p, _ = _ ∧ _ ∧ _ ∧ _) rfl
      ⟨scratchLoc 0 4, none, by decide +kernel, by decide +kernel, by decide +kernel, by decide +kernel⟩, by decide +kernel⟩


/-! ### Helpers for witnesses -/

/-- A lane to which a mask of lane 0 alone refers. -/
theorem lane0_of_one {k : Nat} (h : (1 : Dword).getLsbD k = true) : k = 0 := by
  have hk := BitVec.lt_of_getLsbD h
  by_contra h0
  have : (1 : Dword).getLsbD k = false := by
    have := Nat.testBit_lt_two_pow (x := 1) (i := k) (by have := Nat.one_lt_two_pow (n := k) h0; omega)
    simpa [BitVec.getLsbD] using this
  exact absurd (this.symm.trans h) (by decide)

/-- A launch of id `id` whose grid and block are of one thread. -/
def launch1 (id : Nat) : Launch :=
  { id, order := 0, slot := 0, ctx := 0, det := false, start := none, startMet := true, binding := false, mbox := 0, run := false
    grid := (1, 1, 1), block := (1, 1, 1), prio := 24, queue := 0, seqMask := 0, donesig := 0, cbmap := 0
    kernel := ImageHeader.blank, seq := ImageHeader.blank, arglen := 0, args := [], cohorts := [], producers := [], low := 0, ahead := []
    since := none, reserved := none, reservedAt := 0, streamsStarted := true, streams := [], complete := [], announced := []
    failed := false, barred := false, err := false, reclaimed := false, detDrained := false, retired := false }

/-- A scene in which launch 0 runs. -/
noncomputable def launched (l : Launch) (x : Instr) (m : Dword) (e : Engine) : State :=
  let s := blockScene x m e
  { s with launch := { s.launch with launches := [(0, l)] } }

/-! ### Lanes, numbers and flags -/

theorem witness_GangRegistersAndSystemValues :
    let x : Instr := .sv .always 1 2
    (launched (launch1 0) x 1 (gang [lane])).Issues x (issue x 1) (gang [lane]) ∧ (gang [lane]).Executes (issue x 1) .always 1 ∧
      (1 : Dword) ≠ 0 ∧ (launched (launch1 0) x 1 (gang [lane])).launchOf 0 = some (launch1 0) :=
  ⟨issues_of rfl rfl rfl (by decide +kernel) (by decide +kernel), executes_lane0 (by decide +kernel), by decide,
    by decide +kernel⟩

/-- Finite terms and products whose exact sum is 0 with terms of both signs, and infinities of both signs. -/
theorem witness_SumsAreExactAndRoundedOnce :
    (∀ v ∈ [FloatVal.num true 3 0], ∃ n m e, v = .num n m e) ∧
    (∀ p ∈ [(FloatVal.num false 1 0, FloatVal.num false 3 0)], (∃ n m e, p.1 = .num n m e) ∧ ∃ n m e, p.2 = .num n m e) := by
  refine ⟨fun v hv => ?_, fun p hp => ?_⟩
  · exact ⟨true, 3, 0, by simpa using hv⟩
  · obtain rfl : p = _ := by simpa using hp
    exact ⟨⟨_, _, _, rfl⟩, _, _, _, rfl⟩

theorem witness_SpecialValuesOfFloats :
    FloatFmt.f32.hasInf = true ∧ FloatFmt.f32.decode 0x7F800001 = .nan true ∧ FloatFmt.f32.decode 0xFF800000 = .inf true ∧
      (∃ e, FloatFmt.f32.decode 0x80000000 = .num true 0 e) ∧ ∃ m e, FloatFmt.f32.decode 0xBF800000 = .num true m e ∧ m ≠ 0 :=
  ⟨rfl, by decide +kernel, by decide +kernel, ⟨_, rfl⟩, _, _, rfl, by decide +kernel⟩

theorem witness_QencEncodesABlock :
    let x : Instr := .qencE2m1 .always 3 4
    let e := gang [withRegs 3 [0x40400000] lane]
    (scene x 1 e).Issues x (issue x 1) e ∧ e.Executes (issue x 1) .always 1 ∧ e.tmode = 0 ∧ (1 : Dword).getLsbD 0 = true ∧
      e.lanes.find? 0 = some (withRegs 3 [0x40400000] lane) :=
  ⟨issues_of rfl rfl rfl (by decide +kernel) (by decide +kernel), executes_lane0 (by decide +kernel), rfl,
    by decide, rfl⟩

/-- `dflush` in a DET launch, all of whose gang's live lanes issue it (DflushMeets). -/
theorem witness_MeetingsAndBarriers :
    let x : Instr := .dflush .always
    let e := { gang [lane] with block := some 1 }
    let s := launched { launch1 0 with det := true } x 1 e
    s.Issues x (issue x 1) e ∧ e.Executes (issue x 1) .always 1 ∧ (s.isDet e && e.block.isSome) = true ∧ (1 : Dword) ≠ 0 ∧
      (∀ p ∈ e.lanes, p.2.live = true → p.1 < e.width) ∧ e.open_ = [] ∧ (∀ k, (e.lane k).live = true → (issue x 1).lanes.getLsbD k = true) := by
  refine ⟨issues_of rfl rfl rfl (by decide +kernel) (by decide +kernel), executes_lane0 (by decide +kernel),
    by decide +kernel, by decide, by decide +kernel, rfl, ?_⟩
  intro k hk
  rcases k with _ | k
  · rfl
  · exact absurd hk (by simp [Engine.lane, gang, Store.find?, List.zipIdx, Lane.empty, Lane.live])

/-! ### Memory -/

/-- An access past the extent by lane 0 (the third clause), and a region in a space that does not exist (the first). -/
theorem witness_AccessChecksInOrder :
    let x : Instr := .ld .always 2 0 0 4 3 2
    let e := holder region [4096]
    let s := memScene x region [4096] []
    s.Issues x (issue x 1) e ∧ e.Executes (issue x 1) .always 1 ∧ (1 : Dword).getLsbD 0 = true ∧
      e.lanes.find? 0 = some (withRegs 4 [4096] lane) ∧ spaceOf region.base = 15 ∧ s.privileged e = true ∧ region.permits .load = true ∧
      (region.frozenChild || region.frozenSelf) = false ∧
      ¬ (Spec.index 4 (withRegs 4 [4096] lane) + 4 ≤ region.extent) ∧ spaceOf 0x7000000000000000 = 7 :=
  ⟨issues_of rfl rfl rfl (by decide +kernel) (by decide +kernel), executes_lane0 (by decide +kernel), by decide,
    rfl, by decide +kernel, by decide +kernel, by decide +kernel, rfl, by decide +kernel, by decide +kernel⟩

/-- A store whose checks pass into an empty buffer, and a commit of one beat. -/
theorem witness_StoresAndCommits :
    let x : Instr := .sti .always 2 1 3 4
    let e := holder region []
    let s := memScene x region [] []
    s.Issues x (issue x 1) e ∧ e.Executes (issue x 1) .always 1 ∧ (1 : Dword) ≠ 0 ∧
      Spec.Allowed s e region .store 4 1 (fun _ => region.base + 4) ∧ spaceOf region.base ≠ 4 ∧
      (∀ k l, (1 : Dword).getLsbD k = true → e.lanes.find? k = some l →
        ∃ loc n p, resolve s (e.asker k) (s.scratchOf e) .store (region.base + 4) = .at_ loc n p) ∧
      e.beats.length + e.draining.length ≤ 192 :=
  ⟨issues_of rfl rfl rfl (by decide +kernel) (by decide +kernel), executes_lane0 (by decide +kernel), by decide,
    ⟨by decide +kernel, fun _ => by decide +kernel, by decide +kernel, ⟨rfl, rfl⟩,
      only_lane0 (P := fun _ _ => _ ∧ _ ∧ _ ∧ _) rfl ⟨by decide +kernel, by decide +kernel, by decide +kernel, by decide +kernel⟩⟩,
    by decide +kernel,
    only_lane0 (P := fun k _ => ∃ loc n p, _ = _) rfl ⟨0x400004, 0, none, by decide +kernel⟩, by decide +kernel⟩

/-- The beat of a commit, in space 1. -/
def beat : Beat := ⟨1, 0x1000000000400000, 5, 1, [(0x400002, 0x5A)], 0, false⟩

theorem witness_CommitPerformsTheBuffer :
    let e := { gang [lane] with beats := [beat] }
    let s := scene (.rgn .always) 1 e
    s.engine 0 = some e ∧ s.xlat.migrations = [] ∧ s.xlat.hostBias = [] ∧ s.xlat.flips = [] ∧
      ∀ b ∈ e.beats, (b.space = 1 ∨ b.space = 3) ∧ ∀ c ∈ b.cells, 2 ^ 21 ≤ c.1 ∧ c.1 < 2 ^ 63 := by
  refine ⟨rfl, rfl, rfl, rfl, ?_⟩
  decide +kernel

/-! ### Control and traps -/

/-- A jump to an odd address (ALIGN) and one to an even one. -/
theorem witness_ControlTransfers :
    let x : Instr := .jmp .always 3
    let e := gang [withRegs 3 [0x101] lane]
    (scene x 1 e).Issues x (issue x 1) e ∧ e.Executes (issue x 1) .always 1 ∧ e.lanes.find? 0 = some (withRegs 3 [0x101] lane) ∧
      ((withRegs 3 [0x101] lane).reg 3).getLsbD 0 = true ∧ ((withRegs 3 [0x100] lane).reg 3).getLsbD 0 = false :=
  ⟨issues_of rfl rfl rfl (by decide +kernel) (by decide +kernel), executes_lane0 (by decide +kernel), rfl,
    by decide +kernel, by decide +kernel⟩

/-- `brk` in a context with a debugger and without a trace. -/
theorem witness_TrapsStopsAndRegions :
    let x : Instr := .brk .always 5
    let s0 := scene x 1 (gang [lane])
    let s := { s0 with ctxs := { s0.ctxs with table := [(0, { placedContext with attached := true })] } }
    s.Issues x (issue x 1) (gang [lane]) ∧ (gang [lane]).Executes (issue x 1) .always 1 ∧ (1 : Dword) ≠ 0 ∧
      (s.context 0).attached = true ∧ (s.context 0).traceLen = 0 ∧ (s0.context 0).attached = false :=
  ⟨issues_of rfl rfl rfl (by decide +kernel) (by decide +kernel), executes_lane0 (by decide +kernel), by decide,
    by decide +kernel, by decide +kernel, by decide +kernel⟩

/-- A lane parks while another lane goes on; the kernel names g1 in its park set, and the pool is empty. -/
theorem witness_LanesLeave :
    let x : Instr := .park .always 8
    let e := { gang [lane, lane] with block := some 1 }
    let la := { launch1 0 with kernel := { ImageHeader.blank with park := [1] } }
    let s := launched la x 1 e
    s.Issues x (issue x 1) e ∧ e.Executes (issue x 1) .always 1 ∧ e.isSeq = false ∧ e.beats = [] ∧ e.open_ = [] ∧ e.sb = [] ∧
      ((1 : Dword).getLsbD 1 = false ∧ e.lanes.find? 1 = some lane ∧ lane.live = true) ∧ s.launchOf e.launch = some la ∧
      la.kernel.park ≠ [] ∧ la.det = false ∧ ((s.pool e.place.clusterId).records.length + (e.lanesOf 1).length ≤ 16384) ∧
      ((s.pool e.place.clusterId).binFor e.launch 0x10).isSome = true ∧ s.work.blocks.find? 1 = some block ∧ block.resident = true :=
  ⟨issues_of rfl rfl rfl (by decide +kernel) (by decide +kernel), executes_lane0 (by decide +kernel), rfl, rfl, rfl,
    rfl, ⟨by decide, rfl, by decide +kernel⟩, by decide +kernel, by decide, rfl, by decide +kernel, by decide +kernel, rfl, rfl⟩

/-- A trap taken by a gang with a handler and a mapped save slot (TrapEntry), and a nested one (NestedTrapStops). -/
theorem witness_TrapsAndReturns :
    let e := handled (gang [lane])
    let s := scene (.trap .always 5) 1 e
    let t : TrapReq := { eng := 0, cause := .trapi, lanes := 1, pc := 0, insn := 0, faddr := 0, detail := 5 }
    s.engine t.eng = some e ∧ e.inHandler = false ∧ e.tvec ≠ 0 ∧ e.beats = [] ∧ (s.context e.ctx).traceLen = 0 ∧ s.xlat.migrations = [] ∧
      s.trapQueued t.eng = false ∧ s.xlat.pending.all (·.eng != t.eng) = true ∧ s.agenda.all (·.eng != t.eng) = true ∧
      s.quietLoc e.ctx .store e.savep.toNat = some (2 ^ 30 + 0x8000) ∧ e.savep.toNat % 4096 + 64 ≤ 4096 :=
  ⟨rfl, rfl, by decide +kernel, rfl, by decide +kernel, rfl, by decide +kernel, rfl, rfl, by decide +kernel, by decide +kernel⟩

theorem witness_NestedTrapStops :
    let e := { handled (gang [{ lane with handler := true }]) with inHandler := true }
    let s := launched (launch1 0) (.trap .always 5) 1 e
    let t : TrapReq := { eng := 0, cause := .trapi, lanes := 1, pc := 0, insn := 0, faddr := 0, detail := 5 }
    s.engine t.eng = some e ∧ e.inHandler = true ∧ s.deferred t = false ∧ s.trapQueued t.eng = false ∧
      s.launchOf e.launch = some (launch1 0) :=
  ⟨rfl, rfl, by decide +kernel, by decide +kernel, by decide +kernel⟩

/-- A return to an even address (TrapReturns). -/
theorem witness_TrapReturns :
    let x : Instr := .tretSkip .always
    let e := { handled (gang [{ lane with handler := true }]) with inHandler := true }
    let frame := leBytes 8 0x4000D ++ leBytes 8 1 ++ leBytes 8 0x100 ++ leBytes 8 0x80000071 ++ leBytes 32 0
    let s0 := scene x 1 e
    let s := { s0 with mem := { s0.mem with cells := s0.mem.cells.writeBytes (2 ^ 30 + 0x8000) frame } }
    s.Issues x (issue x 1) e ∧ e.Executes (issue x 1) .always 1 ∧ e.inHandler = true ∧ e.beats = [] ∧ e.haltPend = false ∧
      s.readVa e.ctx e.savep.toNat 64 = some frame :=
  ⟨issues_of rfl rfl rfl (by decide +kernel) (by decide +kernel), executes_lane0 (by decide +kernel), rfl, rfl, rfl,
    by decide +kernel⟩

/-- `mtsr` of SRESUME in a sequencer's handler (SystemRegisterWrites), and `ecall` with no buffered store (SystemServices). -/
theorem witness_SystemInstructions :
    let x : Instr := .mtsr .always 0x031 4
    let e := { sequencer (withRegs 4 [0x200] lane) with inHandler := true }
    let y : Instr := .ecall .always 3 4
    (scene x 1 e).Issues x (issue x 1) e ∧ e.Executes (issue x 1) .always 1 ∧ e.inHandler = true ∧ e.haltPend = false ∧
      ((withRegs 4 [0x200] lane).reg 4).getLsbD 0 = false ∧
      (scene y 1 (gang [lane])).Issues y (issue y 1) (gang [lane]) ∧ (gang [lane]).beats = [] :=
  ⟨issues_of rfl rfl rfl (by decide +kernel) (by decide +kernel), executes_lane0 (by decide +kernel), rfl, rfl,
    by decide +kernel, issues_of rfl rfl rfl (by decide +kernel) (by decide +kernel), rfl⟩

/-! ### Far operations, posts and borrows -/

/-- A scene whose context has a tensor table. -/
noncomputable def tensorScene (x : Instr) (e : Engine) (tensors : Store Byte) : State :=
  let s := scene x 1 e
  { s with ctxs := { s.ctxs with table := [(0, { placedContext with tensors, slotCount := 4, model := true })] } }

/-- Tensor record 0 of 16 words of f32 at an address of space 0xF, as object 5. -/
def record0 (base : Nat) : Store Byte :=
  ((Context.blank.writeTensors (cellsAt 0 (leBytes 8 base))).writeTensors
    (cellsAt 24 (leBytes 4 5 ++ [0, 1] ++ leBytes 2 3 ++ leBytes 4 16))).tensors

/-- A waiting operation of lane 0 of engine 0. -/
def wait0 (commit : Bool) (kind : WaitKind) : Wait := { id := 7, eng := 0, lanes := 1, pc := 0, insn := 0, len := 4, commit, kind }

/-- A lane that sleeps for it. -/
def sleeper : Lane := { lane with status := .sleeping 7 }

/-- A request of engine 0 for object 5. -/
def request (stage : BorrowStage) (exclusive try_ : Bool) : BorrowReq :=
  { id := 3, who := .eng 0, pkg := none, obj := 5, exclusive, try_, tensor := 0, base := 0x400000, extent := 64, dest := 2, parent := none
    pred := 1, layer := none, order := 0, stage, version := 1, wait := 7 }

theorem witness_FarOperationsAtTheirHome :
    State.reset.xlat.migrations = [] ∧ 2 ^ 21 ≤ (partOf .sigTest).loc ∧ (partOf .sigTest).loc + 8 ≤ 2 ^ 63 :=
  ⟨rfl, by decide, by decide⟩

/-- A far addition by an exclusive region outside DET launches, the same in one, and a fence (FarOperationsIssue,
DetOrderForbidsReturns, Fences). -/
theorem witness_FarOperationsAndFences :
    let x : Instr := .farAddS32 .always 1 0 3 4
    let y : Instr := .fenceRel .always 0 0
    let e := holder region []
    let s := scene x 1 e
    let d := launched { launch1 0 with det := true } x 1 { e with block := some 1 }
    s.Issues x (issue x 1) e ∧ e.Executes (issue x 1) .always 1 ∧ (1 : Dword) ≠ 0 ∧
      Spec.Allowed s e region .far 4 1 (fun l => region.base + Spec.index 0 l) ∧ s.isDet e = false ∧ e.beats = [] ∧
      s.outstanding 0 1 false s.nextId = false ∧ spaceOf region.base ≠ 4 ∧
      (∀ k l, (1 : Dword).getLsbD k = true → e.lanes.find? k = some l →
        ∃ loc n p, resolve s (e.asker k) (s.scratchOf e) .far (region.base + Spec.index 0 l) = .at_ loc n p) ∧
      d.isDet { e with block := some 1 } = true ∧ (scene y 1 e).Issues y (issue y 1) e :=
  ⟨issues_of rfl rfl rfl (by decide +kernel) (by decide +kernel), executes_lane0 (by decide +kernel), by decide,
    ⟨by decide +kernel, fun _ => by decide +kernel, by decide +kernel, ⟨rfl, rfl⟩,
      only_lane0 (P := fun _ _ => _ ∧ _ ∧ _ ∧ _) rfl ⟨by decide +kernel, by decide +kernel, by decide +kernel, by decide +kernel⟩⟩,
    by decide +kernel, rfl, by decide +kernel, by decide +kernel,
    only_lane0 (P := fun k l => ∃ loc n p, resolve _ (Engine.asker _ k) _ .far (region.base + Spec.index 0 l) = _) rfl ⟨0x400000, 0, none, by decide +kernel⟩, by decide +kernel,
    issues_of rfl rfl rfl (by decide +kernel) (by decide +kernel)⟩

/-- A post to a bound mailbox, a spawn of a free slot of the context and a take from a queue that holds an entry. -/
theorem witness_MailboxesSpawnAndHandOff :
    let x : Instr := .mbpost .always 8 4
    let y : Instr := .spawn .always 4 6
    let z : Instr := .hqtake .always 4 6
    let s0 := scene x 1 (gang [lane])
    let s := { s0 with launch := { s0.launch with mailboxes := [(0, ⟨0, [], none⟩)] } }
    let u := tensorScene y (gang [lane]) []
    let v0 := scene z 1 (gang [lane])
    let v := { v0 with work := { v0.work with handoff := [(0, [9])] } }
    s.Issues x (issue x 1) (gang [lane]) ∧ (gang [lane]).Executes (issue x 1) .always 1 ∧ s.launch.mailboxes.find? 0 = some ⟨0, [], none⟩ ∧
      u.Issues y (issue y 1) (gang [lane]) ∧ (u.context 0).slotFirst ≤ 0 ∧ 0 < (u.context 0).slotFirst + (u.context 0).slotCount ∧
      u.holdsSlot (gang [lane]) 0 = false ∧ (∀ n, u.spawnWaits 0 (gang [lane]) 0 n = false) ∧ u.xlat.migrations = [] ∧
      v.Issues z (issue z 1) (gang [lane]) ∧ Store.get [] v.work.handoff 0 = [9] ∧ v.taker 0 = none :=
  ⟨issues_of rfl rfl rfl (by decide +kernel) (by decide +kernel), executes_lane0 (by decide +kernel), rfl,
    issues_of rfl rfl rfl (by decide +kernel) (by decide +kernel), by decide +kernel, by decide +kernel, by decide +kernel,
    fun _ => rfl, rfl, issues_of rfl rfl rfl (by decide +kernel) (by decide +kernel), by decide +kernel, by decide +kernel⟩

/-- A request that may be granted, and an answer that has come to a lane that sleeps for it. -/
theorem witness_BorrowGrantsAndAnswers :
    let e := gang [sleeper]
    let s0 := scene (.nop .always) 1 e
    let s := { s0 with own := { s0.own with requests := [request .queued true false] } }
    let a0 := { s0 with work := { s0.work with waits := [wait0 true (.borrow 3)] } }
    let a := { a0 with own := { a0.own with requests := [request (.answered 0 0) true true] } }
    s.engine 0 = some e ∧ s.grantDue = some (request .queued true false) ∧ e.place.die = objDie 5 ∧ (s.entry 5).kind ≠ .offered ∧
      s.isDet e = false ∧ a.answerDue = some (request (.answered 0 0) true true, 0) ∧ e.ended = false ∧
      a.waitOf 7 = some (wait0 true (.borrow 3)) ∧
      ∀ k l, (wait0 true (.borrow 3)).lanes.getLsbD k = true → e.lanes.find? k = some l → l.status = .sleeping 7 :=
  ⟨rfl, by decide +kernel, by decide +kernel, by decide +kernel, by decide +kernel, by decide +kernel, rfl, by decide +kernel,
    only_lane0 (P := fun _ l => l.status = _) rfl rfl⟩

/-- A borrow of a sound record by a privileged context, and a reborrow that fits. -/
theorem witness_BorrowsAndReborrows :
    let x : Instr := .borrowX .always 4 2 2
    let y : Instr := .reborrowX .always 4 3 2
    let e := gang [lane]
    let s := tensorScene x e (record0 0x400000)
    let r := s.tensor 0 0
    let h := holder region [128, 256]
    Spec.Lowest s x .always (issue x 1) e 1 0 lane ∧ (e.region 2).kind = .none ∧ r.valid = true ∧ r.object = true ∧ r.malformed = none ∧
      r.obj / 2 ^ 18 = 0 ∧ footprintOk r.base r.span = true ∧ spaceOf r.base ≠ 15 ∧
      Spec.Lowest (scene y 1 h) y .always (issue y 1) h 1 0 (withRegs 4 [128, 256] lane) ∧ (h.region 2).kind = .none ∧
      ¬ (region.kind = .none ∨ (true = true ∧ region.kind = .shared) ∨ region.extent < 128 + 256 ∨ 255 ≤ region.children) ∧
      ¬ (region.frozenChild = true ∨ region.frozenSelf = true ∨ (true = true ∧ region.readOnly = true)) :=
  ⟨lowest_of (issues_of rfl rfl rfl (by decide +kernel) (by decide +kernel)) (by decide +kernel) rfl rfl, by decide +kernel,
    by decide +kernel, by decide +kernel, by decide +kernel, by decide +kernel, by decide +kernel, by decide +kernel,
    lowest_of (issues_of rfl rfl rfl (by decide +kernel) (by decide +kernel)) (by decide +kernel) rfl rfl, by decide +kernel,
    by decide, by decide⟩

/-- A gang whose block holds it as gang 0, with an exclusive region of 4 KiB: `split.2` to itself in h4 and h5, `give` of the region, and
the return of a shared one whose entry counts two holders. -/
theorem witness_SplitsGiftsAndReturns :
    let x : Instr := .split2 .always 4 3 4
    let y : Instr := .returnDev .always 3
    let e := { holder region [0] with block := some 1 }
    let s := blockScene x 1 e
    let f := holder { region with kind := .shared } []
    let u := (scene y 1 f).setEntry 5 { OwnEntry.blank with kind := .shared, holders := 2, version := 1 }
    Spec.Lowest s x .always (issue x 1) e 1 0 (withRegs 4 [0] lane) ∧ e.isSeq = false ∧ region.kind = .exclusive ∧
      ¬ (region.frozenChild || region.frozenSelf) = true ∧ region.readOnly = false ∧ region.extent % (128 * 2) = 0 ∧
      s.gangOfBlock e 0 = some 0 ∧ (e.region 4).kind = .none ∧ (e.region 5).kind = .none ∧
      Spec.Lowest u y .always (issue y 1) f 1 0 (withRegs 4 [] lane) ∧ (f.region 3).kind = .shared ∧ (f.region 3).children = 0 ∧
      objPkg region.base = none ∧ objDie region.obj = f.place.die ∧ (u.entry 5).retired = 0 :=
  ⟨lowest_of (issues_of rfl rfl rfl (by decide +kernel) (by decide +kernel)) (by decide +kernel) rfl rfl, rfl, rfl, by decide, rfl,
    by decide, by decide +kernel, by decide +kernel, by decide +kernel,
    lowest_of (issues_of rfl rfl rfl (by decide +kernel) (by decide +kernel)) (by decide +kernel) rfl rfl, by decide +kernel,
    by decide +kernel, by decide +kernel, by decide +kernel, by decide +kernel⟩

/-! ### Distributions, copies and layers -/

/-- Two registers that share a tag, with DEP enabled (the trap), points of which one is a NaN, and a quotient of nonzero values. -/
theorem witness_DistributionArithmetic :
    let x : Instr := .dadd .always 1 0 2
    let a := { third 0 0x3F800000 0x40000000 with tags := 1 }
    let e := { gang [distLane [a, a]] with tmode := 0x20 }
    (scene x 1 e).Issues x (issue x 1) e ∧ e.Executes (issue x 1) .always 1 ∧ e.tmode.getLsbD 5 = true ∧
      e.lanes.find? 0 = some (distLane [a, a]) ∧ ¬ (a.lineage = a.lineage ∧ a.lineage ≠ 0) ∧ Nat.land a.tags a.tags ≠ 0 ∧
      (∀ p ∈ [((0x7FC00000 : Nat), (0x3F800000 : Nat))], p.1 < 2 ^ 32 ∧ p.2 < 2 ^ 32) ∧
      ∃ m k, FloatFmt.f32.decode 0x40400000 = .num false m k ∧ m ≠ 0 :=
  ⟨issues_of rfl rfl rfl (by decide +kernel) (by decide +kernel), executes_lane0 (by decide +kernel), by decide +kernel, rfl,
    by decide +kernel, by decide +kernel, by decide, _, _, rfl, by decide +kernel⟩

/-- A store of a distribution into a mapped region (the second clause), and a region in space 6 (the third). -/
theorem witness_DistributionMemory :
    let x : Instr := .dst .always 0 0 3 1
    let e := holder region []
    let s := memScene x region [] []
    s.Issues x (issue x 1) e ∧ e.Executes (issue x 1) .always 1 ∧ (1 : Dword) ≠ 0 ∧
      Spec.Allowed s e region .store 128 1 (fun l => region.base + Spec.index 0 l) ∧ spaceOf region.base ≠ 4 ∧ spaceOf region.base ≠ 6 ∧
      (∀ k l, (1 : Dword).getLsbD k = true → e.lanes.find? k = some l →
        ∃ loc n p, resolve s (e.asker k) (s.scratchOf e) .store (region.base + Spec.index 0 l) = .at_ loc n p) ∧
      e.beats.length + e.draining.length ≤ 192 ∧ spaceOf 0x6000000000400000 = 6 :=
  ⟨issues_of rfl rfl rfl (by decide +kernel) (by decide +kernel), executes_lane0 (by decide +kernel), by decide,
    ⟨by decide +kernel, fun _ => by decide +kernel, by decide +kernel, ⟨rfl, rfl⟩,
      only_lane0 (P := fun _ _ => _ ∧ _ ∧ _ ∧ _) rfl ⟨by decide +kernel, by decide +kernel, by decide +kernel, by decide +kernel⟩⟩,
    by decide +kernel, by decide +kernel,
    only_lane0 (P := fun k l => ∃ loc n p, resolve _ (Engine.asker _ k) _ .store (region.base + Spec.index 0 l) = _) rfl ⟨0x400000, 0, none, by decide +kernel⟩, by decide +kernel,
    by decide +kernel⟩

/-- A copy of kind 0 of 256 bytes between two objects. -/
def copyHolder : Engine :=
  (holder region [256]).setRegion 4 { region with base := 0xF000000000500000, obj := 6 }

/-- A copy whose checks pass, a publish that waits and one that has come, a `cpwait` whose cycle has come, and a copy in flight. -/
theorem witness_CopiesAndPublishes :
    let x : Instr := .copy .always 0 4 3 4
    let y : Instr := .publish .always 3
    let s := scene x 1 copyHolder
    let f := holder { region with kind := .shared } []
    let u := (scene y 1 f).setEntry 5 { OwnEntry.blank with kind := .shared, holders := 1, version := 1, shadow := true }
    let w0 := scene (.nop .always) 1 (gang [sleeper])
    let w := { w0 with work := { w0.work with waits := [wait0 false (.copies 0)] } }
    let c : Copy := { id := 9, eng := 0, pc := 0, cluster := 0, core := 0, src := region, dest := region, destReg := 4, shadow := false, moves := []
                      bytes := 0, moved := 0, promise := 0, slots := [], finish := 0, status := .inFlight, bad := false, data := [] }
    let v := { w0 with work := { w0.work with copies := [c] } }
    Spec.Lowest s x .always (issue x 1) copyHolder 1 0 (withRegs 4 [256] lane) ∧ (copyHolder.region 3).kind ≠ .none ∧
      (copyHolder.region 4).kind = .exclusive ∧ s.tilesBusy (copyHolder.region 4).base (copyHolder.region 4).extent = false ∧
      256 ≤ (copyHolder.region 3).extent ∧ (copyHolder.region 3).obj ≠ (copyHolder.region 4).obj ∧
      Spec.Lowest u y .always (issue y 1) f 1 0 (withRegs 4 [] lane) ∧ (u.entry 5).shadow = true ∧ (u.entry 5).kind ≠ .excl ∧
      u.work.copies = [] ∧ w.cpwaitDue = some (wait0 false (.copies 0), 0) ∧ v.copyDue = some c := by
  refine ⟨lowest_of (issues_of rfl rfl rfl (by decide +kernel) (by decide +kernel)) (by decide +kernel) rfl rfl, by decide +kernel,
    by decide +kernel, by decide +kernel, by decide +kernel, by decide +kernel,
    lowest_of (issues_of rfl rfl rfl (by decide +kernel) (by decide +kernel)) (by decide +kernel) rfl rfl, by decide +kernel,
    by decide +kernel, rfl, by decide +kernel, by decide +kernel⟩

/-- A layer with one object, in some state. -/
def layer (state : Nat) (failed : Option Nat) : Layer :=
  { src := 0, len := 0, cls := 0, objs := [0], state, failed, attempt := 1, pins := 0, lastBorrow := 0, holders := 0, early := false
    frames := 0, evictAt := 0, retrying := false, frame := none }

/-- A word of a tensor record in its write, `lbrw` of a resident layer of a model context, and a layer whose eviction ends. -/
theorem witness_TensorsAndLayers :
    let x : Instr := .tset .always 5 4
    let y : Instr := .lbrw .always 4 2
    let e := gang [lane]
    let s := tensorScene x e (record0 0x400000)
    let v0 := tensorScene (.nop .always) (gang [sleeper]) []
    let v := { v0 with work := { v0.work with waits := [wait0 false (.tensorWrite 0 [(0, 1)])] } }
    let m0 := tensorScene y e (record0 0x400000)
    let c := { m0.context 0 with layers := [layer 2 none] }
    let m := { m0 with ctxs := { m0.ctxs with table := [(0, c)] } }
    let n := { m0 with ctxs := { m0.ctxs with table := [(0, { c with layers := [layer 3 none] })] } }
    Spec.Lowest s x .always (issue x 1) e 1 0 lane ∧ v.ttabDue = some (wait0 false (.tensorWrite 0 [(0, 1)]), [(0, 1)]) ∧
      v.engine 0 = some (gang [sleeper]) ∧ (v.ctxs.table.find? 0).isSome = true ∧
      Spec.Lowest m y .always (issue y 1) e 1 0 lane ∧ (m.context 0).model = true ∧ (m.context 0).layers[0]? = some (layer 2 none) ∧
      (e.region 2).kind = .none ∧ m.judgeLayer e [0] = .ok ∧ n.evictDue = some (0, 0) ∧ n.layer 0 0 = some (layer 3 none) ∧
      (∀ w ∈ n.work.waits, ∀ l k d, w.kind ≠ .layer l k d) :=
  ⟨lowest_of (issues_of rfl rfl rfl (by decide +kernel) (by decide +kernel)) (by decide +kernel) rfl rfl, by decide +kernel, rfl,
    by decide +kernel, lowest_of (issues_of rfl rfl rfl (by decide +kernel) (by decide +kernel)) (by decide +kernel) rfl rfl,
    by decide +kernel, by decide +kernel, by decide +kernel, by decide +kernel, by decide +kernel, by decide +kernel,
    fun w hw => by cases hw⟩

/-! ### The matrix engine and maintenance -/

/-- A booted device at cycle 2^24, with a lane that sleeps for wait 7. -/
noncomputable def calm : State :=
  let s := scene (.nop .always) 1 (gang [sleeper])
  { s with clock := { s.clock with cyc := 2 ^ 24, wall := 2 ^ 24, kick := 2 ^ 24 - 5 } }

/-- The same with one wait in progress. -/
noncomputable def waiting (kind : WaitKind) : State := { calm with work := { calm.work with waits := [wait0 false kind] } }

/-- A sequencer that issues a matrix instruction, with the words of a list from c4 on, and its staged and its active words. -/
def feeder (vs : List Word) (w0 w1 : Word) (committed : Bool) : Engine :=
  { sequencer (withRegs 4 vs lane) with staged := [(0, w0), (1, w1)], tcb := [(0, w0), (1, w1)], committed }

/-- An operation at the head of cluster 0's queue. -/
def headOp (kind : EngineOpKind) (began : Option Nat) (step : Nat) : EngineOp :=
  { id := 1, kind, eng := 0, pc := 0, insn := 0, recA := [], recB := [], holdA := (0, 0), holdB := (0, 0), cfg := (0x01010001, 0x11000000)
    tiles := 1, issue := 0, began, fill := 4, extra := 0, step, hand := [], pend := [], asked := [], stale := [], sick := [], met := none
    group := none, data := [] }

/-- A device whose cluster 0 has that operation. -/
noncomputable def withHead (o : EngineOp) : State :=
  { calm with work := { calm.work with engines := [(0, sequencer lane)], matrix := [(0, { Matrix.idle with queue := [o] })] } }

/-- An instruction of a sequencer whose lane holds words from c4 on: its lane is the lowest, its cluster 0. -/
theorem feeder_lowest {x : Instr} {g : Guard} {vs : List Word} {w0 w1 : Word} {c : Bool}
    (hi : (scene x 1 (feeder vs w0 w1 c)).Issues x (issue x 1) (feeder vs w0 w1 c)) (hg : (feeder vs w0 w1 c).guarded g 1 = 1) :
    Spec.Lowest (scene x 1 (feeder vs w0 w1 c)) x g (issue x 1) (feeder vs w0 w1 c) 1 0 (withRegs 4 vs lane) :=
  lowest_of hi hg rfl rfl

/-- `mcommit` with words that are valid and words that are not, an `mma` before any `mcommit`, and `mzero`, `mwait` and `mchain`. -/
theorem witness_MatrixInstructions :
    let e := feeder [0x1, 0x1] 0x01010001 0x11000000 true
    let bad := feeder [] 0 0 false
    let x : Instr := .mcommit .always
    let y : Instr := .mma .always 5 4
    Spec.Lowest (scene x 1 e) x .always (issue x 1) e 1 0 (withRegs 4 [0x1, 0x1] lane) ∧ tcbDetail 0 e.stagedWords = none ∧
      (scene x 1 e).tilesHeld 0 0xFF = false ∧
      Spec.Lowest (scene x 1 bad) x .always (issue x 1) bad 1 0 (withRegs 4 [] lane) ∧ tcbDetail 0 bad.stagedWords = some 1 ∧
      ((scene x 1 bad).matrix 0).queue = [] ∧
      Spec.Lowest (scene y 1 bad) y .always (issue y 1) bad 1 0 (withRegs 4 [] lane) ∧ bad.committed = false ∧
      Spec.Lowest (scene (.mzero .always 4) 1 e) (.mzero .always 4) .always (issue (.mzero .always 4) 1) e 1 0 (withRegs 4 [0x1, 0x1] lane) ∧
      Spec.Lowest (scene (.mwait .always 4) 1 e) (.mwait .always 4) .always (issue (.mwait .always 4) 1) e 1 0 (withRegs 4 [0x1, 0x1] lane) ∧
      Spec.Lowest (scene (.mchain .always 4) 1 e) (.mchain .always 4) .always (issue (.mchain .always 4) 1) e 1 0 (withRegs 4 [0x1, 0x1] lane) ∧
      (Tcb.of e.tcbWords).span = 0 ∧ ((scene x 1 e).matrix 0).psnMet = none ∧ e.place.clusterId = 0 ∧ (scene x 1 e).xlat.migrations = [] :=
  ⟨feeder_lowest (issues_of rfl rfl rfl (by decide +kernel) (by decide +kernel)) (by decide +kernel), by decide +kernel, by decide +kernel,
    feeder_lowest (issues_of rfl rfl rfl (by decide +kernel) (by decide +kernel)) (by decide +kernel), by decide +kernel, by decide +kernel,
    feeder_lowest (issues_of rfl rfl rfl (by decide +kernel) (by decide +kernel)) (by decide +kernel), rfl,
    feeder_lowest (issues_of rfl rfl rfl (by decide +kernel) (by decide +kernel)) (by decide +kernel),
    feeder_lowest (issues_of rfl rfl rfl (by decide +kernel) (by decide +kernel)) (by decide +kernel),
    feeder_lowest (issues_of rfl rfl rfl (by decide +kernel) (by decide +kernel)) (by decide +kernel), by decide +kernel, by decide +kernel,
    by decide +kernel, rfl⟩

/-- An operation that begins, one whose lines have come, one that completes, and an `mcommit` that is due with sound and with unsound
words. -/
theorem witness_EngineOperations :
    (withHead (headOp (.zero 1) none 0)).beginDue = some [0] ∧
    (withHead (headOp (.zero 1) (some 5) 0)).fetchDue = none ∧ (withHead (headOp (.zero 1) (some 5) 0)).scaleDue = none ∧
    (withHead (headOp (.zero 1) (some 5) 0)).stepDue = some [(0, headOp (.zero 1) (some 5) 0, sequencer lane)] ∧
    (withHead (headOp (.zero 1) (some 5) 1)).completeDue = some (0, headOp (.zero 1) (some 5) 1) ∧
    (withHead (headOp (.zero 1) (some 5) 1)).work.waits = [] ∧
    (Tcb.of (headOp (.mma 0 1 0) (some 5) 1).cfg).base + (Tcb.of (headOp (.mma 0 1 0) (some 5) 1).cfg).tileCount ≤ 8 ∧
    (∀ w, ((waiting .commitTcb).setEngine 0 (feeder [] 0x01010001 0x11000000 false)).commitDue = some w → w.1 = wait0 false .commitTcb) ∧
    ((waiting .commitTcb).setEngine 0 (feeder [] 0x01010001 0x11000000 false)).commitDue.isSome = true ∧
    ((waiting .commitTcb).setEngine 0 (feeder [] 0 0 false)).commitDue.isSome = true ∧ tcbDetail 0 (feeder [] 0 0 false).stagedWords = some 1 := by
  refine ⟨?_, ?_, ?_, ?_, ?_, rfl, ?_, ?_, ?_, ?_, ?_⟩ <;> decide +kernel

/-- A `tlbi` of a page, and one that is refused; an `l2wb` of nothing; an `l2cfg` that is refused; a counter read, and one past the last; a
bias command for a page that has the bias. -/
theorem witness_MaintenanceInstructions :
    let e := gang [withRegs 4 [0x40400000, 0, 0, 0x1F, 0x20, 3, 0xFFFF] lane]
    let l := withRegs 4 [0x40400000, 0, 0, 0x1F, 0x20, 3, 0xFFFF] lane
    let s := fun (x : Instr) => scene x 1 e
    Spec.Lowest (s (.tlbi .always 6 4)) (.tlbi .always 6 4) .always (issue (.tlbi .always 6 4) 1) e 1 0 l ∧ (l.reg 6).toNat % 4 = 0 ∧
      (∀ kv ∈ (s (.tlbi .always 6 4)).work.engines, kv.2.beats = []) ∧ (l.reg 9).toNat % 4 = 3 ∧
      Spec.Lowest (s (.l2wb .always 6 4 1)) (.l2wb .always 6 4 1) .always (issue (.l2wb .always 6 4 1) 1) e 1 0 l ∧
      (l.pair 4).toNat % 128 = 0 ∧
      Spec.Lowest (s (.l2cfg .always 6 10)) (.l2cfg .always 6 10) .always (issue (.l2cfg .always 6 10) 1) e 1 0 l ∧
      (l.reg 10).toNat % 2 ^ 16 ≠ 0 ∧
      Spec.Lowest (s (.owalk .always 0 6 5)) (.owalk .always 0 6 5) .always (issue (.owalk .always 0 6 5) 1) e 1 0 l ∧
      Spec.Lowest (s (.bias .always 1 4)) (.bias .always 1 4) .always (issue (.bias .always 1 4) 1) e 1 0 l ∧
      Spec.Lowest (s (.pcnt .always 6 7 10)) (.pcnt .always 6 7 10) .always (issue (.pcnt .always 6 7 10) 1) e 1 0 l ∧
      (l.reg 7).toNat % 256 = 31 ∧ (l.reg 8).toNat % 256 = 32 :=
  ⟨lowest_of (issues_of rfl rfl rfl (by decide +kernel) (by decide +kernel)) (by decide +kernel) rfl rfl, by decide +kernel, by decide +kernel,
    by decide +kernel,
    lowest_of (issues_of rfl rfl rfl (by decide +kernel) (by decide +kernel)) (by decide +kernel) rfl rfl, by decide +kernel,
    lowest_of (issues_of rfl rfl rfl (by decide +kernel) (by decide +kernel)) (by decide +kernel) rfl rfl, by decide +kernel,
    lowest_of (issues_of rfl rfl rfl (by decide +kernel) (by decide +kernel)) (by decide +kernel) rfl rfl,
    lowest_of (issues_of rfl rfl rfl (by decide +kernel) (by decide +kernel)) (by decide +kernel) rfl rfl,
    lowest_of (issues_of rfl rfl rfl (by decide +kernel) (by decide +kernel)) (by decide +kernel) rfl rfl, by decide +kernel, by decide +kernel⟩

/-- A migration of a page of 4 KiB. -/
def migration (pulling : List (Nat × Nat)) (valid : List Nat) (cursor : Nat) : Migration :=
  { ctx := 0, va := 0, old := 2 ^ 30, new := 2 ^ 31, size := 4096, valid, written := [], pulling, cursor, nextTick := 3, sweeping := false }

/-- A sweep that has reached every core. -/
def swept (for_ : SweepFor) : Sweep := { ctx := none, page := none, reach := 100, before := 0, for_ }

/-- Sweeps, a write-back, a reconfiguration, a walk, an L1 invalidation, a flip and a migration that are due. -/
theorem witness_MaintenanceCompletes :
    let w (k : Nat) : WaitKind := .maint k 9 0 0 2
    let sweep (f : SweepFor) : State := { waiting (w 0) with xlat := { Xlat.reset with sweeps := [swept f] } }
    let cfg (due : Option Nat) : State :=
      { waiting (w 2) with repair := { Repair.reset with cfgs := [{ die := 0, domains := [(1, 1)], due, wait := 7 }] } }
    let walk : Walk := { for_ := .owalk 0 7 false, start := 0, next := 256, count := 3 }
    let flip : BiasFlip := { page := 512, toHost := true, due := 9, pending := [], wait := none, cmd := none }
    let mig (m : Migration) : State := { calm with xlat := { Xlat.reset with migrations := [m] } }
    (sweep (.tlbi 7)).sweepDue = some (swept (.tlbi 7)) ∧ (sweep (.tlbi 7)).waitOf 7 = some (wait0 false (w 0)) ∧
      (sweep (.ats 0 4096)).sweepDue = some (swept (.ats 0 4096)) ∧
      (waiting (w 1)).l2wbDue = some (wait0 false (w 1), 9, 0, 0, 2) ∧
      (cfg none).l2cfgDue.isSome = true ∧ (cfg (some 9)).l2cfgDue.isSome = true ∧ (cfg none).waitOf 7 = some (wait0 false (w 2)) ∧
      ({ waiting (w 3) with own := { Own.reset with walks := [walk] } } : State).owalkDue = some (walk, wait0 false (w 3)) ∧
      walk.for_.reclaims = false ∧ (waiting (w 6)).invl1Due = some (wait0 false (w 6), 9, 0, 0, 2) ∧
      (waiting (w 6)).tagsMissing ((waiting (w 6)).tagsOf 0 2 0) = [] ∧
      ({ calm with xlat := { Xlat.reset with flips := [flip] } } : State).flipDue = some flip ∧
      (mig (migration [] [] 0)).tickDue = some (migration [] [] 0) ∧
      (mig (migration [(3, 9)] [] 0)).pullDue = some (migration [(3, 9)] [] 0, 3) ∧
      ((mig (migration [(3, 9)] [] 0)).pullLine (migration [(3, 9)] [] 0) 3).migrated = none ∧
      (mig (migration [] (List.range 32) 32)).pullDue = none ∧
      (mig (migration [] (List.range 32) 32)).migrated = some (migration [] (List.range 32) 32) := by
  decide +kernel

/-! ### Cores, mesh, waits and registers -/

/-- A line on its way to an instruction cache, a gang whose lanes all wait, and a trap to be taken. -/
theorem witness_CoreEvents :
    let w : Lane := { lane with status := .waiting }
    let inst : Instance := { pc := 0, len := 4, insn := 0, op := .rcv, mask := 3, absent := 0, arrived := [(0, ⟨0, 0⟩)], tag := 0 }
    let other : Instance := { inst with pc := 4, arrived := [(1, ⟨0, 0⟩)] }
    let e : Engine := { gang [w, w] with open_ := [inst, other] }
    let t : TrapReq := { eng := 0, cause := .trapi, lanes := 1, pc := 0, insn := 0, faddr := 0, detail := 5 }
    ({ calm with mem := { calm.mem with icachePending := [(0, 3, 9)] } } : State).icacheDue = some (0, 3, 9) ∧
      (calm.setEngine 0 e).deadlockDue = some (0, e) ∧ calm.xlat.pending = [] ∧ calm.xlat.snoopWrites = [] ∧
      ({ calm with work := { calm.work with traps := [t] } } : State).handlerDue = some t := by
  decide +kernel

/-- A load of lane 0 of one word at device address 0x400000, at a stage of its way. -/
def meshLoad (eng : Nat) (stage : MeshStage) (value : Option (List Byte)) : MeshReq :=
  { id := 4, eng, pc := 0, dest := 2, home := 0, hops := 2, crossings := 0, order := 0, stage, due := 9, wait := 7
    parts := [⟨0, 0x400000, 0x400000, .load 2 false ⟨5, 1, false, []⟩, value, value.isSome⟩] }

/-- Requests that travel, that were turned away, that wait at their home, whose line comes and whose value returns; and a load that
waits for its translation. -/
theorem witness_MeshEvents :
    let s (q : MeshReq) : State := { calm with mem := { calm.mem with mesh := [(4, q)] }, work := { calm.work with engines := [(3, gang [lane])] } }
    let q (st : MeshStage) : MeshReq := { meshLoad 3 st none with home := homeOf calm 0 0x400000 }
    let r : MeshReq := meshLoad 3 .returning (some [1, 2, 3, 4])
    let p : PendingXlat := { id := 4, eng := 3, pc := 0, insn := 0, len := 4, work := .load 2 2 false, obj := 5, version := 1
                             parts := [(0, 0x400000)], due := some 9 }
    let t : State := { s (q .queued) with xlat := { Xlat.reset with pending := [p] } }
    (s (q .travelling)).meshIn .travelling = some (q .travelling) ∧
      (∀ p ∈ (q .travelling).parts, p.done = false → homeOf (s (q .travelling)) ((q .travelling).home / 16) p.loc = (q .travelling).home) ∧
      (s (q .replayed)).meshIn .replayed = some (q .replayed) ∧ (s (q .queued)).engine 3 = some (gang [lane]) ∧
      (s (q .queued)).serveDue = some (q .queued) ∧ (∀ p ∈ (q .queued).parts, (s (q .queued)).partReady (q .queued) p = true ∧
        (s (q .queued)).unreachable p.loc = false ∧ (s (q .queued)).pullCycles p.loc = 0 ∧ isHost p.loc = false ∧
        p.op.plain = true ∧ p.op.reads = true ∧ isDram p.loc = true) ∧ (s (q .queued)).mem.l2 = [] ∧
      (s (q .dram)).meshIn .dram = some (q .dram) ∧
      (s r).meshIn .returning = some r ∧ (s r).returnPoison r = none ∧ (s r).repair.reads = [] ∧ lane.status = .ready ∧
      t.xlatDue = some p ∧ p.work ≠ .fetch := by
  decide +kernel

/-- Waits whose cycle has come, an entry that may be posted, a `dflush` of a block whose operations are at hand, and the end of a DET
launch. -/
theorem witness_WaitsEnd :
    let d : DetHeld := { core := 0, eng := 0, pc := 0, ctx := 0, obj := 5, launch := 0, block := 0, gang := 0, lane := 0, seq := 0, atEnd := false, loc := 0x400000, op := 0, v := 1, w := 0 }
    let la : Launch := { launch1 0 with det := true }
    let s0 : State := waiting .dflush
    let s : State := { s0 with
      launch := { s0.launch with launches := [(0, la)] }, mem := { s0.mem with held := [d] }
      work := { s0.work with blocks := [(1, block)], engines := [(0, { gang [sleeper] with block := some 1 })] } }
    let u : State := { s with launch := { s0.launch with launches := [(0, { la with complete := [0] })] } }
    (waiting (.until_ 9)).wakeDue = some (wait0 false (.until_ 9)) ∧
      (waiting (.hqPost 3 8)).postDue = some (wait0 false (.hqPost 3 8), 3, 8) ∧ (waiting (.hqPost 3 8)).taker 3 = none ∧
      s.flushDue = some (1, block) ∧ s.heldReady (s.blockHeld block) = true ∧ s.blockHeld block = [d] ∧
      u.detEndDue = some { la with complete := [0] } ∧ u.heldReady (u.mem.held.filter fun d => d.launch == 0) = true ∧
      s.unreachable d.loc = false ∧ isHost d.loc = false ∧ s.xlat.migrations = [] := by
  decide +kernel

/-- A sequencer in its handler, a register write, and an `ecall` of each service. -/
theorem witness_RegisterWritesAndServices :
    let e : Engine := { sequencer lane with inHandler := true }
    let s (n : Nat) : State := { waiting (.reten n 0 2) with host := { HostIf.reset with ecalls := [7] } }
    (calm.setEngine 0 e).engine 0 = some e ∧ e.isSeq = true ∧ e.inHandler = true ∧ (sequencer lane).inHandler = false ∧ e.haltPend = false ∧
      (calm.ctxs.table.find? e.ctx).isSome = true ∧
      (∀ n ∈ [0, 1, 2, 3, 4], (s n).ecallDue = some (wait0 false (.reten n 0 2), n, 0, 2)) ∧ (s 1).host.nqHeld = [] ∧ (s 1).host.nqLen = 0 := by
  decide +kernel

/-! ### Launches and placement -/

/-- An image header of a kernel of width 16 with 8 registers and two bytes of code. -/
def headerBytes : List Byte :=
  leBytes 4 0x5A450001 ++ [16, 8, 0, 0] ++ leBytes 4 0 ++ leBytes 4 2 ++ leBytes 8 0x20000 ++ leBytes 4 0xFFFFFFFF ++ List.replicate 36 0

/-- The record of a launch of one block of one thread, whose image stands at virtual address 0x10000. -/
def recordBytes : List Byte :=
  leBytes 8 0x10000 ++ List.replicate 24 0 ++ leBytes 4 1 ++ leBytes 4 1 ++ leBytes 4 1 ++ [1, 0, 1, 0, 1, 0] ++ List.replicate 10 0

/-- A context that is granted slots, gang and block slots and core 0. -/
def granted : Context := { placedContext with slotCount := 4, ngslot := 4, nbslot := 4, cores := 1 }

/-- The calm device with that context and a change of the launch unit. -/
noncomputable def launching (l : Launching) : State :=
  { calm with ctxs := { Contexts.reset with table := [(0, granted)] }, launch := l, work := Work.reset }

/-- A slot that has been triggered. -/
def slot1 : Slot := { busy := true, latchedId := 0, latchedStatus := 0, launch := 1, order := 1, pending := true }

/-- Launch 1 of a kernel of width 16 with 8 registers. -/
def launchA : Launch :=
  { launch1 1 with kernel := { ImageHeader.blank with regs := 8 }, cohorts := [], low := 1 }

/-- A sealed slot; a record that is accepted, one with a latched id and one without an image; a start time, a message for a handler run, an
unbound mailbox and a complete launch. -/
theorem witness_LaunchesAndMailboxes :
    let parse (bs : List Byte) (x : Slot) : State :=
      let s := launching { Launching.reset with slots := [(0, x)] }
      { s with mem := { s.mem with cells := (s.mem.cells.writeBytes 0 bs).writeBytes (2 ^ 30 + 0x10000) headerBytes } }
    let record := fun (x : Slot) => (parse recordBytes slot1).recordOf 0 x
    let m : Mailbox := ⟨1, [[1, 2]], none⟩
    let bound : State := launching { Launching.reset with
      launches := [(1, { launchA with binding := true })], mailboxes := [(0, m)], slots := [(0, slot1)], unsealed := [0] }
    let done : State := launching { Launching.reset with launches := [(1, { launchA with complete := [0] })], slots := [(0, slot1)] }
    let late : Launch := { launchA with start := some 0, startMet := false }
    (launching { Launching.reset with sealed := [0] }).launch.sealed.contains 0 = true ∧
      (launching { Launching.reset with sealed := [0] }).launch.nextId = 1 ∧
      (parse recordBytes slot1).parseDue = some (0, slot1) ∧
      (parse recordBytes slot1).parseMissing 0 slot1 (record slot1) = [] ∧ slot1.raw = [] ∧
      (parse recordBytes slot1).judgeLaunch 0 slot1 (record slot1) =
        .accept { kernel := ⟨16, 8, 0, 0, 0, 2, 0x20000, 0xFFFFFFFF, []⟩, seq := .blank, cohorts := [], producers := [], args := [] } ∧
      (parse recordBytes slot1).judgeLaunch 0 { slot1 with latchedId := 1 } (record slot1) = .reject 1 ∧
      (parse [] slot1).judgeLaunch 4 slot1 ((parse [] slot1).recordOf 0 slot1) = .reject 2 ∧
      (parse [] slot1).judgeLaunch 0 slot1 ((parse [] slot1).recordOf 0 slot1) = .reject 3 ∧
      (launching { Launching.reset with launches := [(1, late)] }).startDue = some late ∧
      bound.runDue = some (0, m) ∧ bound.launch.unsealed.contains 0 = true ∧ (bound.launchOf 1).map Launch.binding = some true ∧
      (Store.get .idle bound.launch.slots 0).launch = 1 ∧ bound.mailbox 0 = some m ∧
      done.launchDone = some { launchA with complete := [0] } := by
  decide +kernel

/-- The bind record of launch 1's one block, on core 0. -/
def bind1 : BindRecord :=
  { die := 0, launch := 1, first := 0, count := 1, stride := 1, coreset := 1, prio := 0, state := 1, group := 1, cohort := none, barhome := 0
    next := 0, armcyc := 0, ended := 0 }

/-- A thread record of launch 1 that has waited in its bin. -/
def record1 : PoolRecord :=
  { number := 0, launch := 1, block := 0, thread := 0, pc := 8, preds := 1, fx := 0, arrive := 0, regs := [], dists := [] }

/-- The timer, a pass, a block that may start, a notice, a bin past its deadline, a formed gang that finds a core and one that is ready. -/
theorem witness_PlacementAndPoolGangs :
    let f (h : Option (Nat × Nat)) : Formed := { bin := 0, launch := 1, pc := 8, records := [record1], hosted := h }
    let one : Launching := { Launching.reset with launches := [(1, launchA)] }
    let pool (p : Pool) : State := { launching one with work := { Work.reset with pools := [(0, p)], engines := [(3, gang [lane])] } }
    let start : State := launching { one with binds := [(0, bind1)] }
    (launching one).passTimerDue = true ∧ (launching one).resumeDue = none ∧
      (launching { one with passPending := true }).launch.passPending = true ∧
      (start.blockStartDue.map fun x => (x.1, x.2.1, x.2.2.1, x.2.2.2.1)) = some (launchA, 0, bind1, 0) ∧
      (launching { one with notices := [(9, 1, 1, 1)] }).noticeDue = some (9, 1, 1, 1) ∧
      (pool { bins := [(0, ⟨1, 8, [record1]⟩)], formed := [] }).flushDeadline = some (0, 0) ∧
      (((pool { bins := [], formed := [f none] }).hostDue).map fun x => (x.1, x.2.1, x.2.2.2.1, x.2.2.2.2.1)) = some (0, 0, launchA, 0) ∧
      (pool { bins := [], formed := [f (some (3, 9))] }).readyDue = some (0, 0, 3) := by
  decide +kernel

/-! ### Commands, contexts, boot and records -/

/-- A device whose command ring holds one entry, given as its bytes by offset. -/
noncomputable def ring (s : State) (b : Store Byte) : State := { s with host := { s.host with ring := b, cmdHead := 0, cmdTail := 1 } }

/-- Whether the bytes of an entry are 0 that the layout or its command leaves 0. -/
def clean (b : List Byte) (named : Bool) (used : List (Nat × Nat)) : Bool :=
  (List.range 0x3C).all fun i => i == 0 || (decide (4 ≤ i) && decide (i < 8)) || (named && (i == 2 || i == 3)) ||
    used.any (fun u => decide (u.1 ≤ i) && decide (i < u.1 + u.2)) || entryField b i 1 == 0

/-- What `Zeros` asks of an entry whose bytes are so. -/
theorem zeros_of {b : List Byte} {named : Bool} {used : List (Nat × Nat)} (hc : entryCtx b < 1024) (hz : clean b named used = true) :
    Spec.Zeros b named used := by
  refine ⟨fun i h0 hi h4 hn hu => ?_, hc⟩
  have h := List.all_eq_true.mp hz i (List.mem_range.mpr hi)
  simp only [Bool.or_eq_true, Bool.and_eq_true, beq_iff_eq, decide_eq_true_eq, List.any_eq_true] at h
  rcases h with (((h | h) | h) | ⟨u, hm, h⟩) | h
  · omega
  · exact absurd h h4
  · exact absurd h hn
  · exact absurd h (hu u hm)
  · exact h

/-- What `Commanded` asks of a ring whose entry is at hand. -/
theorem commanded_of {s : State} {b : List Byte} {op : Nat} {named : Bool} {used : List (Nat × Nat)} (h : s.commandDue = some b)
    (ho : entryOp b = op) (hm : s.boot.mode = .running) (hc : entryCtx b < 1024) (hz : clean b named used = true) :
    Spec.Commanded s b op named used := ⟨h, ho, hm, zeros_of hc hz⟩

/-- A running device and one in recovery with a command, with an opcode that is not listed, and with a byte that should be 0. -/
theorem witness_CommandsRefused :
    let rec_ : State := { calm with boot := { calm.boot with mode := .recovery } }
    (ring calm [(0, 0x02)]).commandDue = some (ring calm [(0, 0x02)]).ringEntry ∧ entryOp (ring calm [(0, 0x02)]).ringEntry = 0x02 ∧
      (ring calm [(0, 0x02)]).boot.mode = .running ∧ (ring rec_ [(0, 0x02)]).boot.mode ≠ .running ∧
      (ring rec_ [(0, 0x02)]).commandDue = some (ring rec_ [(0, 0x02)]).ringEntry ∧
      entryField (ring calm [(0, 0x02), (9, 1)]).ringEntry 9 1 ≠ 0 ∧ 0x16 < entryOp (ring calm [(0, 0x17)]).ringEntry ∧
      entryOp (ring calm []).ringEntry = 0 ∧ (ring calm [(0, 0x02), (2, 1)]).ctxs.table.find? 1 = none := by
  decide +kernel

/-- A device whose context 0 is in a state. -/
noncomputable def inState (st : CtxState) (done : Nat) : State :=
  let s := scene (.nop .always) 1 (gang [lane])
  { s with clock := calm.clock, ctxs := { Contexts.reset with table := [(0, { placedContext with state := st, saveDone := done })] }, work := Work.reset }

/-- A context that is created, suspended, resumed and killed, and whose suspension or resumption ends. -/
theorem witness_ContextsComeAndGo :
    let s := ring (inState .active 0) [(0, 0x02)]
    let u := ring (inState .suspended 0) [(0, 0x03)]
    Spec.Named s s.ringEntry 0x02 [] { placedContext with state := .active, saveDone := 0 } ∧
      Spec.Named u u.ringEntry 0x03 [] { placedContext with state := .suspended, saveDone := 0 } ∧ u.restorable 0 = true ∧
      (inState .suspending 0).suspendDue = some (0, { placedContext with state := .suspending, saveDone := 0 }) ∧
      (inState .suspending 9).suspendDue = some (0, { placedContext with state := .suspending, saveDone := 9 }) ∧
      (inState .resuming 9).resumeDue = some (0, { placedContext with state := .resuming, saveDone := 9 }) ∧
      (inState .active 0).freeContext = some 1 := by
  refine ⟨⟨commanded_of (by decide +kernel) (by decide +kernel) rfl (by decide +kernel) (by decide +kernel), by decide +kernel, by decide, by decide⟩,
    ⟨commanded_of (by decide +kernel) (by decide +kernel) rfl (by decide +kernel) (by decide +kernel), by decide +kernel, by decide, by decide⟩,
    by decide +kernel, by decide +kernel, by decide +kernel, by decide +kernel, by decide +kernel⟩

/-- Walks at their first and last group, and a launch that has failed and whose borrows are to be walked. -/
theorem witness_ReclaimWalks :
    let walk (f : WalkFor) (n : Nat) : State := { launching { Launching.reset with launches := [(1, launchA)] } with
      own := { Own.reset with walks := [{ for_ := f, start := 0, next := n, count := 0 }] } }
    let failed : Launch := { launchA with failed := true }
    ((walk (.kill 0) 0).walkDue.map Walk.next) = some 0 ∧ ((walk (.kill 0) 319).walkDue.map Walk.next) = some 319 ∧
      ((walk (.launch 1) 319).walkDue.map Walk.for_) = some (.launch 1) ∧ (walk (.launch 1) 319).launchOf 1 = some launchA ∧
      (launching { Launching.reset with launches := [(1, failed)] }).walkDue = none ∧
      (launching { Launching.reset with launches := [(1, failed)] }).orphansDue = some failed := by
  decide +kernel

/-- A device whose watchdog is due, a commanded reset, and RECOVER in recovery. -/
theorem witness_BootAndResets :
    let bark : State := { calm with clock := { calm.clock with kick := 0 } }
    let s := ring calm [(0, 0x16)]
    let rec_ : State := { calm with boot := { calm.boot with mode := .recovery } }
    let r := ring rec_ [(0, 0x14)]
    bark.watchdogDue = true ∧ calm.watchdogDue = false ∧ Spec.Commanded s s.ringEntry 0x16 false [] ∧ r.commandDue = some r.ringEntry ∧
      entryOp r.ringEntry = 0x14 ∧ Spec.Zeros r.ringEntry false [(8, 1)] ∧ entryField r.ringEntry 8 1 < 4 ∧ r.boot.mode = .recovery := by
  refine ⟨by decide +kernel, by decide +kernel,
    commanded_of (by decide +kernel) (by decide +kernel) rfl (by decide +kernel) (by decide +kernel), by decide +kernel, by decide +kernel,
    zeros_of (by decide +kernel) (by decide +kernel), by decide +kernel, rfl⟩

/-- A commanded read of the crash record, an evaluation that is due and a window that starts. -/
theorem witness_RecordsAttestationAndThrottle :
    let s := ring calm [(0, 0x15)]
    Spec.Commanded s s.ringEntry 0x15 false [(8, 8)] ∧ entryField s.ringEntry 8 8 % 64 = 0 ∧ calm.throttleDue = true ∧ calm.windowDue = true :=
  ⟨commanded_of (by decide +kernel) (by decide +kernel) rfl (by decide +kernel) (by decide +kernel), by decide +kernel, by decide +kernel,
    by decide +kernel⟩

/-- An answer to a fault report that no longer stands, one that does, and a bias command for a page that has the bias. -/
theorem witness_PageAnswersAndBias :
    let rep : FaultReport := { ctx := 0, seq := 0, page := 4, kind := 1, access := .load, va := 0x4000, perm := false }
    let u := ring calm [(0, 0x05)]
    let s : State := { u with xlat := { u.xlat with reports := [rep] } }
    let d := ring calm [(0, 0x06), (10, 0x20), (16, 1)]
    Spec.Named s s.ringEntry 0x05 [(8, 5)] { placedContext with } ∧ entryField s.ringEntry 12 1 = 0 ∧
      s.reportOf (entryCtx s.ringEntry) (entryField s.ringEntry 8 4) = some rep ∧ s.heldFor 0 0 = [] ∧ s.inboundFor 0 0 = [] ∧
      s.work.copies = [] ∧ s.work.matrix = [] ∧ s.ctxs.swapIns = [] ∧
      u.reportOf (entryCtx u.ringEntry) (entryField u.ringEntry 8 4) = none ∧
      Spec.Commanded d d.ringEntry 0x06 false [(8, 9)] ∧ entryField d.ringEntry 8 8 = 2 ^ 21 ∧ d.flipOf 512 = none ∧
      d.xlat.hostBias.contains 512 = false :=
  ⟨⟨commanded_of (by decide +kernel) (by decide +kernel) rfl (by decide +kernel) (by decide +kernel), by decide +kernel, by decide, by decide⟩,
    by decide +kernel, by decide +kernel, by decide +kernel, by decide +kernel, rfl, rfl, rfl, by decide +kernel,
    commanded_of (by decide +kernel) (by decide +kernel) rfl (by decide +kernel) (by decide +kernel), by decide +kernel, by decide +kernel,
    by decide +kernel⟩

/-! ### Debug, repair, issue and decode -/

/-- Each of the debugger's commands, with operands in their ranges and outside them. -/
theorem witness_DebugCommands :
    let r (b : Store Byte) : State := ring calm b
    (∀ op ∈ [(0x0D : Byte), 0x0E], Spec.Named (r [(0, op)]) (r [(0, op)]).ringEntry op.toNat [] { placedContext with }) ∧
      Spec.Named (r [(0, 0x0F)]) (r [(0, 0x0F)]).ringEntry 0x0F [(8, 1), (12, 4)] { placedContext with } ∧
      entryField (r [(0, 0x0F)]).ringEntry 8 1 = 0 ∧ entryField (r [(0, 0x0F), (8, 3)]).ringEntry 8 1 = 3 ∧
      Spec.Named (r [(0, 0x10)]) (r [(0, 0x10)]).ringEntry 0x10 [(8, 2), (12, 4), (16, 8)] { placedContext with } ∧
      Spec.Named (r [(0, 0x11)]) (r [(0, 0x11)]).ringEntry 0x11 [(8, 8), (16, 4)] { placedContext with } ∧
      entryField (r [(0, 0x11), (8, 1)]).ringEntry 8 8 % 64 = 1 ∧
      Spec.Commanded (r [(0, 0x12), (16, 3)]) (r [(0, 0x12), (16, 3)]).ringEntry 0x12 false [(8, 8), (16, 1)] ∧
      entryField (r [(0, 0x12), (16, 3)]).ringEntry 16 1 = 3 ∧
      Spec.Named (r [(0, 0x13)]) (r [(0, 0x13)]).ringEntry 0x13 [(8, 8), (16, 8), (24, 1)] { placedContext with } ∧
      entryField (r [(0, 0x13)]).ringEntry 16 8 = 0 ∧ entryField (r [(0, 0x13), (24, 16)]).ringEntry 24 1 = 16 := by
  refine ⟨?_, ⟨?_, by decide +kernel, by decide, by decide⟩, by decide +kernel, by decide +kernel, ⟨?_, by decide +kernel, by decide, by decide⟩,
    ⟨?_, by decide +kernel, by decide, by decide⟩, by decide +kernel, ?_, by decide +kernel, ⟨?_, by decide +kernel, by decide, by decide⟩,
    by decide +kernel, by decide +kernel⟩
  · intro op h
    have h : op = 0x0D ∨ op = 0x0E := by simpa using h
    rcases h with rfl | rfl <;>
      exact ⟨commanded_of (by decide +kernel) (by decide +kernel) rfl (by decide +kernel) (by decide +kernel), by decide +kernel, by decide, by decide⟩
  all_goals exact commanded_of (by decide +kernel) (by decide +kernel) rfl (by decide +kernel) (by decide +kernel)

/-- A rebuild at its first and at its last word, and a row's copy. -/
theorem witness_RebuildAndRowSparing :
    let unit : MemoryUnit := { mem := 1, die := 0, cluster := 0, core := 0 }
    let b (n : Nat) : BankState :=
      { unit, failed := [2], spareUsed := true, replaced := 0, lasting := [], rebuild := some (n, 9), retired := false }
    let s (n : Nat) : State := { calm with repair := { Repair.reset with banks := [b n] } }
    let r : RowSpare := { die := 0, bank := 0, row := 0, word := 0, nextAt := 9, done := false }
    (s 0).rebuildDue = some (b 0) ∧ (s 0).retireReady (b 0) = false ∧ 0 + 1 < memoryWords 1 ∧
      (s (memoryWords 1 - 1)).rebuildDue = some (b (memoryWords 1 - 1)) ∧
      ({ calm with repair := { Repair.reset with rows := [r] } } : State).rowDue = some r := by
  decide +kernel

/-- A device with one engine. -/
theorem witness_IssueArbitration : (Store.keys calm.work.engines).Nodup ∧ calm.engine 0 = some (gang [sleeper]) := by
  decide +kernel

/-- A well-formed instruction of each length. -/
theorem witness_DecodeInvertsEncode :
    (Instr.add16 1 2).wf = true ∧ (Instr.add16 1 2).encoding = some (2, 0x0440) ∧ (Instr.movl .always 0x1234 7).wf = true ∧
      (Instr.movl .always 0x1234 7).encoding = some (4, 0x1234380F) ∧ decode (leBytes 2 0x0440 ++ [7]) = .ok (.add16 1 2, 2) := by
  decide +kernel

/-- A device that has booted, in which nothing of the wall cycle is due. -/
noncomputable def settled (throttle : Nat) : State :=
  { calm with clock := { cyc := 2 ^ 24 + 20, wall := 2 ^ 24 + 20, ptime := 0, throttle, throttleNext := throttle, window := 2 ^ 24
                         kick := 2 ^ 24, evaluated := 2 ^ 24 } }

/-- Issues that decode and that do not; a wall event, a bubble, a work event, and a cycle that holds nothing more. -/
theorem witness_StepRunsTheDecodedInstruction :
    (∃ i n, (State.reset.withFetchWord 32 0x1234380F).agenda = [i] ∧ decode (leBytes i.len i.insn.toNat) = .ok (.movl .always 0x1234 7, n)) ∧
      (∃ i r e, (State.reset.withFetchWord 16 0).agenda = [i] ∧ decode (leBytes i.len i.insn.toNat) = .error r ∧
        (State.reset.withFetchWord 16 0).engine i.eng = some e) ∧
      State.reset.wallEvent = some .coldReset ∧ State.reset.agenda = [] ∧ (settled 0).agenda = [] ∧ (settled 0).wallEvent = none ∧
      (settled 48).wallEvent = none ∧ (settled 48).bubble = true ∧ (settled 0).bubble = false ∧ (settled 0).arbitrated = true ∧
      (settled 0).settleEnds.endEvent = none ∧
      ((waiting (.until_ 9)).workEvent = some .sleepUntilWake) ∧
      ({ settled 0 with arbitrated := false } : State).workEvent = none := by
  refine ⟨⟨_, 4, rfl, by decide +kernel⟩, ⟨_, .badHalfword, _, rfl, by decide +kernel, rfl⟩, by decide +kernel, rfl, rfl, by decide +kernel,
    by decide +kernel, by decide +kernel, by decide +kernel, rfl, by decide +kernel, by decide +kernel, by decide +kernel⟩

/-- The first step from reset. -/
theorem witness_StepsKeepMemoryCanonical : State.reset.memoryOk ∧ ∃ t, step State.reset = .next t := by
  refine ⟨rfl, ?_⟩
  have h : (match step State.reset with
    | .next _ => true
    | _ => false) = true := by decide +kernel
  revert h
  cases step State.reset with
  | next t => exact fun _ => ⟨t, rfl⟩
  | fault f => exact fun h => by cases h
  | refused r => exact fun h => by cases h

/-! ### Dies, packages, links and the host's memory -/

/-- A message about object 5 with the tag of request 3. -/
def message (srcPkg srcDie dstDie : Nat) : OwnMsg :=
  { type := 1, status := 0, tag := 3, srcPkg, srcDie, dstPkg := 0, dstDie, obj := 5, version := 1, lease := 100, key := 9 }

/-- The request of engine 0 for object 5, for an object of die 1, and for one of another package without a key and under a lease. -/
theorem witness_RequestsArrive :
    let r0 : BorrowReq := request .issued true false
    let far : BorrowReq := { r0 with obj := 2 ^ 16 }
    let out : BorrowReq := { r0 with pkg := some 2 }
    let lent : BorrowReq := { far with exclusive := false }
    let p : Proxy := { die := 0, pkg := none, obj := 2 ^ 16, holders := 1, exclusive := false, version := 1, expiry := some (2 ^ 25)
                       recalled := false, renewSent := false, grants := 1, offered := false }
    let s (r : BorrowReq) (ps : List Proxy) : State := { calm with own := { Own.reset with requests := [r], proxies := ps } }
    (∀ r ∈ [r0, far, out, lent], (s r []).requestDue = some r ∧ r.who = .eng 0) ∧ (s r0 []).engine 0 = some (gang [sleeper]) ∧
      objDie r0.obj = 0 ∧ (gang [sleeper]).place.die = 0 ∧ (s r0 []).windowGrants 0 (gang [sleeper]) true r0.obj r0.base r0.extent = true ∧
      objDie far.obj = 1 ∧ (s out []).importKey 0 2 5 = none ∧ (s lent [p]).proxyOf 0 none (2 ^ 16) = some p ∧
      (s lent [p]).clock.cyc < 2 ^ 25 ∧ (s lent [p]).requestDue = some lent := by
  decide +kernel

/-- A request that was sent, and its answer; a lease; a proxy whose lease still runs; and requests of this and of another package. -/
theorem witness_OwnershipMessages :
    let r : BorrowReq := request .sent true false
    let m := message 0 1 0
    let p : Proxy := { die := 0, pkg := none, obj := 5, holders := 0, exclusive := false, version := 1, expiry := some (2 ^ 25), recalled := false
                       renewSent := false, grants := 1, offered := false }
    let k : ExportKey := { key := 9, ctx := 0, rights := 3, obj := 5, offset := 0, len := 64 }
    let s : State := { calm with
      own := { Own.reset with
        requests := [r], leases := [(5, [⟨0, 1, 0, false, 1⟩])], proxies := [p], entries := [(5, { OwnEntry.blank with kind := .idle })] }
      host := { HostIf.reset with keys := [(0, k)] } }
    s.requestOf m = some r ∧ r.who = .eng 0 ∧ s.engine 0 = some (gang [sleeper]) ∧
      (Store.get [] s.own.leases 5).findIdx? (fun l => l.pkg == m.srcPkg && l.die == m.srcDie) = some 0 ∧ m.srcPkg = s.pkgId ∧
      m.dstPkg = s.pkgId ∧ s.waitingAt 5 = [] ∧ s.proxyOf m.dstDie none 5 = some p ∧ p.expiry ≠ none ∧
      s.requestOf { m with tag := 4 } = none ∧ r.withdrawn = false ∧ (message 2 1 0).srcPkg ≠ s.pkgId ∧ s.exportKey 9 = some k ∧
      s.exportKey 8 = none ∧ (s.entry 5).kind ≠ .free ∧ (s.entry 5).ctx = k.ctx := by
  decide +kernel

/-- Write-backs that end and that fail, and leases to be renewed, that run out and whose holder is lost. -/
theorem witness_WriteBacksAndLeases :
    let w (fail : Nat) (origin : Option (Nat × Nat × Word)) : WriteBack :=
      { obj := 5, version := 1, core := 0, scope := 3, due := 9, origin, away := none, fail, lines := [], cells := [], blame := origin.map fun o => (o.1, o.2.2, 1) }
    let p (c : Nat) (n : Nat) : Proxy := { die := 0, pkg := none, obj := 2 ^ 16, holders := n, exclusive := false, version := 1, expiry := some c
                                           recalled := false, renewSent := false, grants := 1, offered := false }
    let s (o : Own) : State := { calm with own := o }
    (s { Own.reset with writeBacks := [w 0 none] }).writeBackDue = some (w 0 none) ∧
      (s { Own.reset with writeBacks := [w 0 none] }).writeBackMissing (w 0 none) = [] ∧
      (s { Own.reset with writeBacks := [w 1 none] }).writeBackFailed = some (w 1 none) ∧
      (s { Own.reset with writeBacks := [w 1 (some (0, 3, 8))] }).writeBackFailed = some (w 1 (some (0, 3, 8))) ∧
      (s { Own.reset with proxies := [p (2 ^ 24 + 1024) 1] }).renewDue = some (p (2 ^ 24 + 1024) 1) ∧
      (s { Own.reset with proxies := [p (2 ^ 24 + 1025) 1] }).renewDue = none ∧
      (s { Own.reset with proxies := [p (2 ^ 24) 1] }).expiryDue = some (p (2 ^ 24) 1) ∧
      (s { Own.reset with leases := [(5, [⟨0, 1, 2 ^ 23, false, 1⟩])] }).lostDue = some (5, ⟨0, 1, 2 ^ 23, false, 1⟩) ∧
      (s { Own.reset with leases := [(5, [⟨0, 1, 2 ^ 23 + 1, false, 1⟩])] }).lostDue = none := by
  decide +kernel

/-- A packet for a package. -/
def packet (dst : Nat) : Packet :=
  { port := 0, src := 2, dst, id := 4, addr := 0x400000, len := 4, op := 0, key := 9, obj := 5, count := 1, reason := 0, poison := false
    data := [some 1, some 2, some 3, some 4] }

/-- A request of lane 0 to package 2. -/
def remote (kind : Nat) (resendAt : Option Nat) : RemoteReq :=
  { id := 4, pkg := 2, port := 0, sent := 0, kind, eng := 0, pc := 0, lane := 0, dest := 2, size := if kind = 0 then 2 else 4, signed := false
    addr := 0x4002000000400000, wait := 7, resendAt, packet := packet 2 }

/-- Packets that leave with and without credit, that arrive for this package and for another, a bound mailbox, an access with a key and without
one, and answers to a read and to a far operation. -/
theorem witness_PacketsOfOtherPackages :
    let up (n : Nat) : Link := { Link.down with trained := true, credits := [(1, n), (2, n), (3, n)] }
    let s (h : HostIf) : State := { calm with host := h, work := { calm.work with engines := [(0, gang [lane])] } }
    let link (n : Nat) : HostIf := { HostIf.reset with routes := [(2, [0])], ports := [(0, up n)] }
    let k : ExportKey := { key := 9, ctx := 0, rights := 3, obj := 5, offset := 0, len := 64 }
    let keyed : State := { s { link 1 with keys := [(0, k)] } with
      own := { Own.reset with entries := [(5, { OwnEntry.blank with kind := .excl, xblock := 2, base := 0x400000, span := 64 })] } }
    let late : HeldInbound := { id := 1, acc := ⟨.read, packet 0⟩, arrived := 2 ^ 24 - 8192, ctx := 0, seq := some 1 }
    (s (link 1)).routePort 2 1 = some 0 ∧ (s (link 1)).credit 0 1 = 1 ∧ packetFlits 0 = 1 ∧ (s (link 0)).credit 0 1 = 0 ∧
      (s { link 1 with wire := [.readRequest (packet 0)] }).receivable = some 0 ∧ (packet 0).dst = (s (link 1)).pkgId ∧
      (packet 2).dst ≠ (s (link 1)).pkgId ∧ Store.get 0 (s (link 1)).host.performed 2 < (packet 0).count ∧
      keyed.exportKey 9 = some k ∧ keyed.inboundAllowed ⟨.read, packet 0⟩ k = true ∧ keyed.inboundAllowed ⟨.far, packet 0⟩ k = false ∧
      (match resolve keyed { last := none, core := none, cluster := portCluster 0, ctx := 0 } none .inbound 0x400000 with
        | .at_ _ _ (some _) => true
        | _ => false) = true ∧
      ({ s (link 1) with launch := { Launching.reset with mailboxes := [(0x400000, ⟨1, [], none⟩)] } } : State).mailbox 0x400000 =
        some ⟨1, [], none⟩ ∧
      ({ s (link 1) with xlat := { Xlat.reset with inbound := [late] } } : State).inboundLate = some late ∧
      (s { link 1 with remote := [remote 0 none] }).remoteOf (packet 0) [0, 8] = some (remote 0 none) ∧
      (s { link 1 with remote := [remote 1 none] }).remoteOf (packet 0) [1, 2] = some (remote 1 none) ∧
      (s (link 1)).engine 0 = some (gang [lane]) ∧ (gang [lane]).lanes.find? 0 = some lane ∧ lane.status = .ready ∧
      (s { link 1 with remote := [remote 1 (some 9)] }).resendDue = some (remote 1 (some 9)) := by
  and_intros <;> decide +kernel

/-- A configuration record that enables port 0 and CXL link 1, ports at 7 and at 8 failed flits, a link whose request is late, and LINKRESET. -/
theorem witness_LinksTrainAndFail :
    let on : State := { calm with boot := { calm.boot with config := List.replicate 0x1C 0 ++ [1, 0, 2, 0] } }
    let flits (n : Nat) : State := { calm with host := { HostIf.reset with ports := [(0, { Link.down with flits := n })] } }
    let s (b : Store Byte) : State := ring calm b
    on.enabled (.port 0) = true ∧ on.enabled (.port 1) = false ∧ on.enabled (.cxl 1) = true ∧ on.enabled (.cxl 2) = false ∧
      (Store.get Link.down (flits 7).host.ports 0).flits = 7 ∧ (Store.get Link.down (flits 8).host.ports 0).flits = 8 ∧
      ({ calm with host := { HostIf.reset with remote := [remote 0 none] } } : State).linkTimeout = some (.port 0) ∧
      Spec.Commanded (s [(0, 0x0C), (9, 1)]) (s [(0, 0x0C), (9, 1)]).ringEntry 0x0C false [(8, 2)] ∧
      entryField (s [(0, 0x0C), (9, 1)]).ringEntry 9 1 = 1 ∧
      Spec.Commanded (s [(0, 0x0C), (8, 1), (9, 15)]) (s [(0, 0x0C), (8, 1), (9, 15)]).ringEntry 0x0C false [(8, 2)] ∧
      entryField (s [(0, 0x0C), (8, 1), (9, 15)]).ringEntry 9 1 = 15 ∧ entryField (s [(0, 0x0C), (8, 1), (9, 16)]).ringEntry 9 1 = 16 := by
  refine ⟨by decide +kernel, by decide +kernel, by decide +kernel, by decide +kernel, by decide +kernel, by decide +kernel, by decide +kernel, ?_,
    by decide +kernel, ?_, by decide +kernel, by decide +kernel⟩
  all_goals exact commanded_of (by decide +kernel) (by decide +kernel) rfl (by decide +kernel) (by decide +kernel)

/-- The commands for routes, keys and ranges, at the last values that they take and past them. -/
theorem witness_RoutesKeysAndRanges :
    let s (b : Store Byte) : State := ring calm b
    let route := s [(0, 0x07), (8, 2), (10, 1), (11, 15)]
    let key := s [(0, 0x08), (16, 9), (26, 7), (28, 5)]
    let rkey := s [(0, 0x0A), (10, 0xFF), (11, 0x0F), (12, 5), (16, 9)]
    let range := s [(0, 0x0B), (8, 63), (9, 1), (17, 0x10), (25, 0x10)]
    Spec.Commanded route route.ringEntry 0x07 false [(8, 19)] ∧ entryField route.ringEntry 10 1 = 1 ∧ entryField route.ringEntry 11 1 = 15 ∧
      entryField (s [(0, 0x07), (9, 0x10)]).ringEntry 8 2 = 2 ^ 12 ∧
      Spec.Commanded key key.ringEntry 0x08 false [(8, 2), (16, 32)] ∧ entryField key.ringEntry 16 8 = 9 ∧ entryField key.ringEntry 26 1 = 7 ∧
      entryField (s [(0, 0x08)]).ringEntry 16 8 = 0 ∧
      Spec.Commanded (s [(0, 0x09)]) (s [(0, 0x09)]).ringEntry 0x09 false [(8, 2)] ∧
      entryField (s [(0, 0x09), (9, 0x10)]).ringEntry 8 2 = 4096 ∧
      Spec.Named rkey rkey.ringEntry 0x0A [(8, 1), (10, 2), (12, 4), (16, 8)] { placedContext with } ∧ entryField rkey.ringEntry 10 2 = 2 ^ 12 - 1 ∧
      Spec.Commanded range range.ringEntry 0x0B false [(8, 2), (16, 16)] ∧ entryField range.ringEntry 8 1 = 63 ∧
      entryField range.ringEntry 16 8 = 4096 ∧ entryField range.ringEntry 24 8 = 4096 := by
  refine ⟨?_, by decide +kernel, by decide +kernel, by decide +kernel, ?_, by decide +kernel, by decide +kernel, by decide +kernel, ?_,
    by decide +kernel, ⟨?_, by decide +kernel, by decide, by decide⟩, by decide +kernel, ?_, by decide +kernel, by decide +kernel,
    by decide +kernel⟩
  all_goals exact commanded_of (by decide +kernel) (by decide +kernel) rfl (by decide +kernel) (by decide +kernel)

/-- Accesses that end at the last byte of the device's memory and of its windows, and an unsealed slot. -/
theorem witness_HostAccesses :
    let rec_ : State := { calm with boot := { calm.boot with mode := .recovery } }
    2 ^ 40 - 1 + ([7] : List Byte).length ≤ 2 ^ 40 ∧ 2 ^ 40 < 2 ^ 40 + ([7] : List Byte).length ∧ calm.xlat.migrations = [] ∧
      512 * 4095 + 511 + 1 ≤ 2 ^ 40 ∧ (Store.get .idle calm.launch.slots 4095).busy = false ∧ 4095 + ([7] : List Byte).length ≤ 4096 ∧
      calm.boot.mode ≠ .recovery ∧ rec_.boot.mode = .recovery ∧ 262143 + ([7] : List Byte).length ≤ 262144 := by
  decide +kernel

/-- A line that has been asked for, one that is dirty and one that is not, and a translation in an invalidated range. -/
theorem witness_HostLinesAndTranslations :
    let q : CxlReq := { hpa := 0x1000, sent := 0, own := true, waiters := [] }
    let line : Nat := (2 ^ 60 + 0x1000) / 128
    let s : State := { calm with
      host := { HostIf.reset with cxlReqs := [q], lines := [(0, [(line, .m)])] }, mem := { calm.mem with l2 := [(line, true)] }
      xlat := { Xlat.reset with ats := [(0x2000, ⟨0x5000, true, true⟩)] } }
    s.host.cxlReqs.find? (fun r => r.hpa == 0x1000) = some q ∧ 0x1000 % 128 = 0 ∧ s.lineDirty line = true ∧ s.lineHeld line = true ∧
      calm.lineDirty line = false ∧ (∀ kv ∈ s.work.engines, kv.2.beats = []) ∧ (0x2000, ⟨0x5000, true, true⟩) ∈ s.xlat.ats := by
  decide +kernel

/-! ### Further clauses -/

/-- A tensor table whose record 0 is an operand of 128 rows of 32 elements of format 1, as object 5. -/
def operand : Store Byte :=
  ((Context.blank.writeTensors (cellsAt 0 (leBytes 8 0xF000000000400000))).writeTensors
    (cellsAt 24 (leBytes 4 5 ++ [1, 2] ++ leBytes 2 3 ++ leBytes 4 32 ++ leBytes 4 128 ++ List.replicate 24 0 ++ leBytes 8 64))).tensors

/-- An `mma` of that operand with itself, whose checks pass. -/
theorem witness_MatrixInstructions_mma :
    let e := (feeder [0, 0] 0x01010001 0x11000000 true).setRegion 3 { region with extent := 8192 }
    let s := tensorScene (.mma .always 5 4) e operand
    e.mmaCheck (s.tensor 0 0) (s.tensor 0 0) 0 = .ok ((5, 1), (5, 1)) ∧ (Tcb.of e.tcbWords).span = 0 ∧
      s.bandGo e (5, 1) [] (s.tensor 0 0) ((Tcb.of e.tcbWords).operandRows true) = .ok ∧
      s.bandGo e (5, 1) [] (s.tensor 0 0) ((Tcb.of e.tcbWords).operandRows false) = .ok := by
  decide +kernel

/-- A load whose translation has come and whose byte is at hand. -/
theorem witness_MeshEvents_translated :
    let p : PendingXlat := { id := 4, eng := 3, pc := 0, insn := 0, len := 4, work := .load 2 2 false, obj := 5, version := 1
                             parts := [(0, 0x400000)], due := some 9 }
    let t : State := { calm with work := { calm.work with engines := [(3, gang [lane])] }, xlat := { Xlat.reset with pending := [p] } }
    t.xlatDue = some p ∧ t.loadGo (gang [lane]) .load p.parts = .go [⟨0, 0x400000, 2 ^ 30 + 0x400000⟩] ∧
      t.poisoned [⟨0, 0x400000, 2 ^ 30 + 0x400000⟩] p.work.size = none := by
  decide +kernel

/-- A context whose block on cluster 0 runs at a worse level than a launch that has waited 2^20 cycles for that cluster. -/
theorem witness_ContextsComeAndGo_priority :
    let o : Launch := { launchA with ctx := 1, low := 0, reserved := some 0, reservedAt := 0, prio := 0 }
    let s : State := { calm with
      ctxs := { Contexts.reset with table := [(0, granted), (1, granted)] }
      work := { calm.work with blocks := [(1, block)] }
      launch := { Launching.reset with launches := [(0, launch1 0), (1, o)], binds := [(0, { bind1 with launch := 0, prio := 20 })] } }
    s.priorityDue = some 0 := by
  decide +kernel

/-- A lane that has issued since its restart point, which an abort moves back. -/
theorem witness_TrapsStopsAndRegions_abort :
    let e := gang [{ lane with pc := 8, restart := 4, issued := true }]
    let s := scene (.nop .always) 1 e
    s.engine 0 = some e ∧ s.movedLanes e = 1 ∧ s.farUnderWay 0 0 4 = false := by
  decide +kernel

/-- A store to space 0x6 that its home has yet to perform: a gang that arrives at its barrier waits for it. -/
theorem witness_Barriers_waits :
    let x : Instr := .barSync .always 0 0
    let e := { (gang [lane]).setMask 0 1 with block := some 1 }
    let q : MeshReq := { meshLoad 0 .travelling none with parts := [⟨0, 0x400000, 0x400000, .store [1], none, false⟩] }
    let s := { blockScene x 1 e with mem := { Mem.reset with mesh := [(4, q)] }, nextId := 5 }
    (∀ n, (blockScene x 1 e).outstanding 0 1 true n = false) ∧ s.outstanding 0 1 true s.nextId = true :=
  ⟨fun _ => rfl, by decide +kernel⟩

/-- A load that has yet to return and a buffered store of space 0x6, for which a release fence holds later accesses. -/
theorem witness_Fences :
    let e := { gang [lane] with sb := [{ key := .load 1, due := some 9, tag := 3 }], beats := [{ beat with space := 6 }] }
    (∃ y ∈ e.sb, y.key = .load 1) ∧ (1 : Dword) &&& 1 ≠ 0 ∧ ∃ c ∈ e.beats, c.space = 6 := by
  decide +kernel

/-- An object with a retired version, whose frames a region of that version reads. -/
theorem witness_LoadsAndProbes_retired :
    let s := (scene (.nop .always) 1 (gang [lane])).setEntry 5 { OwnEntry.blank with retired := 1, retiredFrames := [(0x400000, 7)] }
    (∀ b ∈ (gang [lane]).beats, Store.find? b.cells 0x400000 = none) ∧ cachedSpace 15 = false ∧ (s.entry 5).retired ≠ 0 ∧
      (s.entry 5).retired = 1 ∧ (s.entry 5).retiredFrames.find? 0x400000 = some 7 := by
  decide +kernel

/-- A spawn while an access of its gang is still to be performed, and a post with nothing pending. -/
theorem witness_MailboxesSpawnAndHandOff_waits :
    let q : MeshReq := { meshLoad 0 .travelling none with parts := [⟨0, 0x400000, 0x400000, .store [1], none, false⟩] }
    let s := { scene (.nop .always) 1 (gang [lane]) with mem := { Mem.reset with mesh := [(4, q)] } }
    s.narrowObjects 0 0 = [] ∧ (∀ n, 5 ≤ n → s.spawnWaits 0 (gang [lane]) 0 n = true) ∧
      ∀ n, (scene (.nop .always) 1 (gang [lane])).outstanding 0 1 false n = false := by
  refine ⟨by decide +kernel, ?_, fun _ => rfl⟩
  intro n hn
  have h : decide (4 < n) = true := decide_eq_true (by omega)
  simp [State.spawnWaits, State.outstanding, meshLoad, MeshReq.unperformed, h]

/-- A borrow whose parent does not hold the record's bytes, and the return of an exclusive borrow of space 0x6. -/
theorem witness_SplitsGiftsAndReturns_sync :
    let x : Instr := .borrowX .always 4 3 2
    let h := holder region []
    let r := (tensorScene x h (record0 0xF000000000800000)).tensor 0 0
    let y : Instr := .returnDev .always 3
    let f := holder { region with base := 0x6000000000400000 } []
    let u := (scene y 1 f).setEntry 5 { OwnEntry.blank with kind := .excl, version := 1 }
    Spec.Lowest (tensorScene x h (record0 0xF000000000800000)) x .always (issue x 1) h 1 0 lane ∧
      ¬ (region.base ≤ r.base ∧ r.base + r.span ≤ region.base + region.extent) ∧ (h.region 2).kind = .none ∧
      Spec.Lowest u y .always (issue y 1) f 1 0 lane ∧ (f.region 3).children = 0 ∧ objPkg (f.region 3).base = none ∧
      spaceOf (f.region 3).base = 6 ∧ u.waitingAt 5 = [] := by
  refine ⟨lowest_of (issues_of rfl rfl rfl (by decide +kernel) (by decide +kernel)) (by decide +kernel) rfl rfl, by decide +kernel,
    by decide +kernel, lowest_of (issues_of rfl rfl rfl (by decide +kernel) (by decide +kernel)) (by decide +kernel) rfl rfl, ?_⟩
  and_intros <;> decide +kernel

/-- A `dld` of an image whose line its core does not hold. -/
theorem witness_DistributionMemory_dld :
    let x : Instr := .dld .always 0 0 3 1
    let e := holder region []
    let s := memScene x region [] []
    s.Issues x (issue x 1) e ∧ Spec.Allowed s e region .load 128 1 (fun l => region.base + Spec.index 0 l) ∧ s.repair.reads = [] ∧
      (∀ k l, (1 : Dword).getLsbD k = true → e.lanes.find? k = some l → ∃ loc p,
        resolve s (e.asker k) (s.scratchOf e) .load (region.base + Spec.index 0 l) = .at_ loc 0 p ∧ loc < 2 ^ 63 ∧
          s.unreachable loc = false ∧ s.poisonAt loc 128 = none) ∧
      s.loadsHere 0 e region.obj region.version ⟨0, region.base, 0x400000⟩ = false :=
  ⟨issues_of rfl rfl rfl (by decide +kernel) (by decide +kernel),
    ⟨by decide +kernel, fun _ => by decide +kernel, by decide +kernel, ⟨rfl, rfl⟩,
      only_lane0 (P := fun _ _ => _ ∧ _ ∧ _ ∧ _) rfl ⟨by decide +kernel, by decide +kernel, by decide +kernel, by decide +kernel⟩⟩, rfl,
    only_lane0 (P := fun k l => ∃ loc p, resolve _ (Engine.asker _ k) _ .load (region.base + Spec.index 0 l) = _ ∧ _ ∧ _ ∧ _) rfl
      ⟨0x400000, none, by decide +kernel, by decide, by decide +kernel, by decide +kernel⟩, by decide +kernel⟩

/-- A copy of 8,192 bytes to an aligned destination that has moved its first slot. -/
theorem witness_CopiesAndPublishes_moves :
    let c : Copy := { id := 9, eng := 0, pc := 0, cluster := 0, core := 0, src := region, dest := region, destReg := 4, shadow := false
                      moves := [(0x400000, 0x500000, 8192)], bytes := 8192, moved := 4096, promise := 9, slots := [9], finish := 9
                      status := .inFlight, bad := false, data := [] }
    c.moves = [(0x400000, 0x500000, c.bytes)] ∧ 0x500000 % 4 = 0 ∧ c.moved % 4096 = 0 ∧ c.reach = 8192 := by
  decide +kernel

/-- A feed whose line DRAM holds, and a chunk beyond the K extent of empty operands. -/
theorem witness_MatrixEngine_fetch :
    let o : EngineOp := { headOp (.feed 0) (some 5) 0 with
      recA := leBytes 8 0xF000000000400000 ++ List.replicate 16 0 ++ leBytes 4 5 ++ [0, 2] ++ leBytes 2 3 ++ leBytes 4 128 ++ leBytes 4 128 ++
        List.replicate 24 0 ++ leBytes 8 512 }
    (match (withHead o).fetchDue with
      | some (c, p, e, l, g) => c == 0 && p == o && e == sequencer lane && l.1 == 0xF000000000400000 && g == .dram
      | none => false) = true ∧ (withHead o).scaleDue = none ∧ (TRec.ofBytes []).ext.getD 0 0 ≤ 32 * 1 := by
  decide +kernel

/-- A chained `mma` in a span whose members all have streams on their clusters. -/
theorem witness_MatrixEngine_span :
    let e := { feeder [0, 0] 0x02010001 0x11000010 true with chained := true }
    (Tcb.of e.tcbWords).span ≠ 0 ∧ e.chained = true ∧ (scene (.mma .always 5 4) 1 e).spanStreams [9] = none := by
  decide +kernel

/-- A region that a gift gives in this cycle, and a child's return that its parent counts now. -/
theorem witness_EventsOfCores_moving :
    let s (o : Own) : State := { calm with own := o }
    (s { Own.reset with moving := [(9, 0, 3, region)] }).own.childReturns = [] ∧ 9 ≤ calm.clock.cyc ∧ (gang [sleeper]).ended = false ∧
      (s { Own.reset with childReturns := [(9, 0, 3)] }).own.moving = [] ∧ calm.engine 0 = some (gang [sleeper]) := by
  decide +kernel

/-- A release that waits in its core for nothing, a load of host memory at its home, and a load whose line DRAM has supplied too late. -/
theorem witness_MeshEvents_leaves :
    let s (q : MeshReq) : State := { calm with
      mem := { calm.mem with mesh := [(4, q)] }
      work := { calm.work with engines := [(3, gang [lane])] }
      host := { HostIf.reset with ranges := [(0, { link := 1, base := 0, len := 8192 })] } }
    let p : MeshPart := ⟨0, 0x400000, 0x400000, .faro 0 1 1 0 4, none, false⟩
    let rel : MeshReq := { meshLoad 3 .after none with parts := [p], rel := true }
    let host : MeshReq := { meshLoad 3 .queued none with
      home := homeOf calm 0 (2 ^ 60 + 0x1000), parts := [⟨0, 0x5000000000001000, 2 ^ 60 + 0x1000, .load 2 false ⟨5, 1, false, []⟩, none, false⟩] }
    (s rel).leaver = some rel ∧ (∃ p ∈ rel.parts, p.loc < 2 ^ 61 ∨ 2 ^ 62 ≤ p.loc) ∧
      (s (meshLoad 3 .travelling none)).leaver = none ∧ (s (meshLoad 3 .travelling none)).departer = none ∧
      (s host).serveDue = some host ∧ (∀ p ∈ host.parts, isHost p.loc = true ∧ (s host).partReady host p = false ∧
        (s host).unreachable p.loc = false) := by
  decide +kernel

/-- A gang outside a privileged context. -/
theorem witness_RegisterWritesAndServices_unprivileged :
    let s : State := { calm with ctxs := { Contexts.reset with table := [(0, Context.blank)] } }
    s.engine 0 = some (gang [sleeper]) ∧ s.privileged (gang [sleeper]) = false ∧ ∀ w ∈ s.xlat.pending, w.eng ≠ 0 := by
  decide +kernel

/-- A slot that is idle when its seal is written, a busy one, and a record whose image stands in unmapped memory. -/
theorem witness_LaunchesAndMailboxes_seal :
    let s := launching { Launching.reset with slots := [(0, slot1)] }
    let t : State := { s with mem := { s.mem with cells := s.mem.cells.writeBytes 0 (leBytes 8 0x5000000000001000) } }
    (Store.get .idle s.launch.slots 1).busy = false ∧ (Store.get .idle s.launch.slots 0).busy = true ∧
      (s.recordRefused 4 slot1 (s.recordOf 4 slot1)).isSome = true ∧ slot1.raw = [] ∧
      (s.recordOf 0 slot1).kimg % 64 = 0 ∧ (Rec.ofBytes [1]).kimg % 64 ≠ 0 ∧ t.parseDue = some (0, slot1) := by
  decide +kernel

/-- A record without MAGIC, and one with a reserved byte. -/
theorem witness_BootAndResets_config :
    fieldAt [] 0 4 ≠ 0x43464701 ∧ (∃ i, i < 32 ∧ (List.replicate 0x21 (1 : Byte)).getD (0x20 + i) 0 ≠ 0) := by
  exact ⟨by decide +kernel, 0, by decide, by decide +kernel⟩

/-- A shared request for an object of die 1 under a lease, whose entry another context holds; and an exclusive one for an object that the die
has offered. -/
theorem witness_BorrowsBetweenDies_lease :
    let far : BorrowReq := { request .issued false false with obj := 2 ^ 16 }
    let p : Proxy := { die := 0, pkg := none, obj := 2 ^ 16, holders := 1, exclusive := false, version := 1, expiry := some (2 ^ 25)
                       recalled := false, renewSent := false, grants := 1, offered := false }
    let s (x : OwnEntry) (r : BorrowReq) (p : Proxy) : State := { calm with
      own := { Own.reset with requests := [r], proxies := [p], entries := [(2 ^ 16, x)] } }
    let mine : OwnEntry := { OwnEntry.blank with kind := .shared, holders := 1, base := 0x400000, span := 64 }
    (s { mine with ctx := 7 } far p).entryRefuses far { mine with ctx := 7 } = some 5 ∧ (s mine far p).entryRefuses far mine = none ∧
      (s mine far p).proxyOf 0 none (2 ^ 16) = some p ∧ (s mine far p).requestDue = some far ∧
      (s mine far p).tilesBusy far.base far.extent = false ∧ ((s mine far p).party far).det = false ∧
      (s mine { far with exclusive := true } { p with offered := true }).requestDue = some { far with exclusive := true } ∧
      (calm.own.tabled.filter fun x => x == (0, calm.clock.cyc)).length < 4 := by
  decide +kernel

/-- A packet in the buffers for another package, outside a bubble, and an answer to a load part of whose bytes the gang had given. -/
theorem witness_PacketsOfOtherPackages_transit :
    let s : State := { calm with host := { HostIf.reset with inbox := [.readRequest (packet 5)] } }
    let r : RemoteReq := { remote 0 none with given := [(1, 9)] }
    s.transit = some (0, .readRequest (packet 5)) ∧ (packet 5).dst ≠ s.pkgId ∧ s.bubble = false ∧
      ({ calm with host := { HostIf.reset with remote := [r] } } : State).remoteOf (packet 0) [0, 8] = some r := by
  decide +kernel

/-- A request to host memory that has waited 2^20 cycles on the link of its range. -/
theorem witness_LinksRoutesAndKeys_cxl :
    let q : CxlReq := { hpa := 0x1000, sent := 2 ^ 24 - 2 ^ 20, own := true, waiters := [] }
    ({ calm with host := { HostIf.reset with cxlReqs := [q], ranges := [(0, { link := 1, base := 0, len := 4096 * 2 })] } } : State).linkTimeout =
      some (.cxl 1) := by
  decide +kernel

/-- A cycle whose issues are chosen and in which a request may be granted. -/
theorem witness_StepRunsTheDecodedInstruction_end :
    let s : State := { settled 0 with own := { Own.reset with requests := [request .queued true false] } }
    s.wallEvent = none ∧ s.bubble = false ∧ s.arbitrated = true ∧ s.settleEnds.endEvent.map Prod.fst = some .borrowGrant := by
  decide +kernel

/-- R252, R253: the image of an OFFERED entry with a shadow and two waiting readers of its retired version. -/
theorem test_entry_image :
    let s := State.reset.setEntry 5 { OwnEntry.blank with
      kind := .offered, shadow := true, base := 0x400000, span := 64, version := 2, retired := 1, rholders := 2, scope := 6, ctx := 3 }
    let b := s.entryImage 5
    b.length = 64 ∧ fieldAt b 0 8 = 0x400000 ∧ fieldAt b 0x10 4 = 2 ∧ fieldAt b 0x14 4 = 1 ∧ fieldAt b 0x1A 1 = 0x44 ∧ fieldAt b 0x1B 1 = 6 ∧
      fieldAt b 0x1C 2 = 3 ∧ fieldAt b 0x34 2 = 2 := by
  decide +kernel

end Sys2Proof.Tests
end

section
/-! PROOFS. The decoder reads back what the encoder writes, and the other way round (R39 to R58).

A word's low eleven bits carry its guard and its major (`tail`), and each format places its fields above them; so the fields
of a format read back what was packed (`packA_fields` and its like), the major selects the row (`candidate_of_formatted`), and
the row gives the instruction (`candidate_of_encoding`). -/

namespace Sys2Proof.DecodeEncode

open Machine (bits leValue leBytes Info infoOf)

/-! ## Fields of a word -/

theorem fin_eq {n v : Nat} [NeZero n] {a : Fin n} (h : v % n = a.val) : fin v = a := Fin.ext h

/-- A field at least as wide as the operand that it carries is read back as the operand. -/
theorem fin_mod_of_le {n k : Nat} [NeZero n] (a : Fin n) (h : n ≤ k) : (fin (a.val % k) : Fin n) = a :=
  fin_eq (by rw [Nat.mod_eq_of_lt (lt_of_lt_of_le a.isLt h), Nat.mod_eq_of_lt a.isLt])

/-- The code above an operand's bits is 0 where the field carries the operand alone. -/
theorem mod_div_eq_zero {n k : Nat} (a : Fin n) (h : n ≤ k) : a.val % k / n = 0 := by
  rw [Nat.mod_eq_of_lt (by omega), Nat.div_eq_of_lt a.isLt]

/-- The code above an operand's bits, where the field carries a code `c` and the operand. -/
theorem add_mod_div {n c k : Nat} (a : Fin n) (hc : c % n = 0) (h : c + n ≤ k) : (a.val + c) % k / n = c / n := by
  obtain ⟨q, rfl⟩ := Nat.dvd_of_mod_eq_zero hc
  have hn : 0 < n := by have := a.isLt; omega
  rw [Nat.mod_eq_of_lt (by omega), Nat.add_mul_div_left _ _ hn, Nat.div_eq_of_lt a.isLt, Nat.mul_div_cancel_left _ hn,
    Nat.zero_add]

/-- The operand below a code in one field. -/
theorem fin_add_mod {n c k : Nat} [NeZero n] (a : Fin n) (hc : c % n = 0) (h : c + n ≤ k) :
    (fin ((a.val + c) % k) : Fin n) = a := by
  have := a.isLt
  apply fin_eq
  rw [Nat.mod_eq_of_lt (show a.val + c < k by omega), Nat.add_mod, hc, Nat.add_zero, Nat.mod_mod, Nat.mod_eq_of_lt a.isLt]

theorem tail_lt (g : Guard) (maj : Nat) : tail g maj < 2 ^ 11 := by
  have := g.p.isLt
  unfold tail; split <;> omega

/-- A word that carries a guard and a major has them in its low eleven bits (R42). -/
theorem bits_major_of_tail {w : Nat} {g : Guard} {maj : Nat} (h : w % 2 ^ 11 = tail g maj) : bits w 6 1 = maj % 64 := by
  have := g.p.isLt
  unfold tail at h
  unfold bits
  split at h <;> omega

theorem guardOf_of_tail {w : Nat} {g : Guard} {maj : Nat} (h : w % 2 ^ 11 = tail g maj) : guardOf w = g := by
  obtain ⟨n, p⟩ := g
  have hp := p.isLt
  have hgp : bits w 9 7 = p.val := by
    unfold tail at h
    unfold bits
    cases n <;> simp at h <;> omega
  have hgn : bits w 10 10 = n.toNat := by
    unfold tail at h
    unfold bits
    cases n <;> simp at h ⊢ <;> omega
  rw [guardOf, hgp, hgn]
  cases n <;> simp [fin]

/-! ## The formats (R45) -/

/-- A 32-bit word of one of the formats, with its guard and its major. -/
inductive Formatted (g : Guard) (maj : Nat) : Nat → Prop
  | a (m b a d : Nat) : Formatted g maj (packA g maj m b a d)
  | i (i a d : Nat) : Formatted g maj (packI g maj i a d)
  | k (i d : Nat) : Formatted g maj (packK g maj i d)
  | p (c u b a k d : Nat) : Formatted g maj (packP g maj c u b a k d)
  | x (o m b a d : Nat) : Formatted g maj (packX g maj o m b a d)
  | mx (m x h d : Nat) : Formatted g maj (packMX g maj m x h d)
  | mi (z i h d : Nat) : Formatted g maj (packMI g maj z i h d)
  | b (o : Nat) : Formatted g maj (packB g maj o)
  | q (k m x s h : Nat) : Formatted g maj (packQ g maj k m x s h)
  | s (m r d : Nat) : Formatted g maj (packS g maj m r d)
  | d (f m x b a d : Nat) : Formatted g maj (packD g maj f m x b a d)

/-- Every format keeps the guard and the major in the low eleven bits, and its fields above them. -/
theorem Formatted.tail_and_lt {g : Guard} {maj w : Nat} (h : Formatted g maj w) : w % 2 ^ 11 = tail g maj ∧ w < 2 ^ 32 := by
  have := tail_lt g maj
  cases h
  case a => unfold packA; omega
  case i => unfold packI; omega
  case k => unfold packK; omega
  case p => unfold packP; omega
  case x => unfold packX; omega
  case mx => unfold packMX; omega
  case mi => unfold packMI; omega
  case b => unfold packB; omega
  case q => unfold packQ; omega
  case s => unfold packS; omega
  case d => unfold packD; omega

theorem Formatted.major {g : Guard} {maj w : Nat} (h : Formatted g maj w) : bits w 6 1 = maj % 64 :=
  bits_major_of_tail h.tail_and_lt.1

theorem Formatted.guard {g : Guard} {maj w : Nat} (h : Formatted g maj w) : guardOf w = g := guardOf_of_tail h.tail_and_lt.1

/-- The fields of format A (R45). -/
@[simp] theorem packA_fields (g : Guard) (maj m b a d : Nat) :
    bits (packA g maj m b a d) 6 1 = maj % 64 ∧ guardOf (packA g maj m b a d) = g ∧
    bits (packA g maj m b a d) 31 29 = m % 8 ∧ bits (packA g maj m b a d) 28 23 = b % 64 ∧
    bits (packA g maj m b a d) 22 17 = a % 64 ∧ bits (packA g maj m b a d) 16 11 = d % 64 := by
  refine ⟨(Formatted.a ..).major, (Formatted.a ..).guard, ?_⟩
  have := tail_lt g maj
  unfold packA bits
  omega

/-- The fields of format I (R45). -/
@[simp] theorem packI_fields (g : Guard) (maj i a d : Nat) :
    bits (packI g maj i a d) 6 1 = maj % 64 ∧ guardOf (packI g maj i a d) = g ∧
    bits (packI g maj i a d) 31 23 = i % 512 ∧ bits (packI g maj i a d) 22 17 = a % 64 ∧
    bits (packI g maj i a d) 16 11 = d % 64 := by
  refine ⟨(Formatted.i ..).major, (Formatted.i ..).guard, ?_⟩
  have := tail_lt g maj
  unfold packI bits
  omega

/-- The fields of format K (R45). -/
@[simp] theorem packK_fields (g : Guard) (maj i d : Nat) :
    bits (packK g maj i d) 6 1 = maj % 64 ∧ guardOf (packK g maj i d) = g ∧ bits (packK g maj i d) 31 16 = i % 65536 ∧
    bits (packK g maj i d) 15 11 = d % 32 := by
  refine ⟨(Formatted.k ..).major, (Formatted.k ..).guard, ?_⟩
  have := tail_lt g maj
  unfold packK bits
  omega

/-- The fields of format P (R45). -/
@[simp] theorem packP_fields (g : Guard) (maj c u b a k d : Nat) :
    bits (packP g maj c u b a k d) 6 1 = maj % 64 ∧ guardOf (packP g maj c u b a k d) = g ∧
    bits (packP g maj c u b a k d) 31 30 = c % 4 ∧ bits (packP g maj c u b a k d) 29 29 = u % 2 ∧
    bits (packP g maj c u b a k d) 28 23 = b % 64 ∧ bits (packP g maj c u b a k d) 22 17 = a % 64 ∧
    bits (packP g maj c u b a k d) 16 14 = k % 8 ∧ bits (packP g maj c u b a k d) 13 11 = d % 8 := by
  refine ⟨(Formatted.p ..).major, (Formatted.p ..).guard, ?_⟩
  have := tail_lt g maj
  unfold packP bits
  omega

/-- The fields of format X (R45). -/
@[simp] theorem packX_fields (g : Guard) (maj o m b a d : Nat) :
    bits (packX g maj o m b a d) 6 1 = maj % 64 ∧ guardOf (packX g maj o m b a d) = g ∧
    bits (packX g maj o m b a d) 31 30 = o % 4 ∧ bits (packX g maj o m b a d) 29 28 = m % 4 ∧
    bits (packX g maj o m b a d) 27 23 = b % 32 ∧ bits (packX g maj o m b a d) 22 17 = a % 64 ∧
    bits (packX g maj o m b a d) 16 11 = d % 64 := by
  refine ⟨(Formatted.x ..).major, (Formatted.x ..).guard, ?_⟩
  have := tail_lt g maj
  unfold packX bits
  omega

/-- The fields of format MX (R45). -/
@[simp] theorem packMX_fields (g : Guard) (maj m x h d : Nat) :
    bits (packMX g maj m x h d) 6 1 = maj % 64 ∧ guardOf (packMX g maj m x h d) = g ∧
    bits (packMX g maj m x h d) 31 27 = m % 32 ∧ bits (packMX g maj m x h d) 26 21 = x % 64 ∧
    bits (packMX g maj m x h d) 20 17 = h % 16 ∧ bits (packMX g maj m x h d) 16 11 = d % 64 := by
  refine ⟨(Formatted.mx ..).major, (Formatted.mx ..).guard, ?_⟩
  have := tail_lt g maj
  unfold packMX bits
  omega

/-- The fields of format MI (R45). -/
@[simp] theorem packMI_fields (g : Guard) (maj z i h d : Nat) :
    bits (packMI g maj z i h d) 6 1 = maj % 64 ∧ guardOf (packMI g maj z i h d) = g ∧
    bits (packMI g maj z i h d) 31 29 = z % 8 ∧ bits (packMI g maj z i h d) 28 21 = i % 256 ∧
    bits (packMI g maj z i h d) 20 17 = h % 16 ∧ bits (packMI g maj z i h d) 16 11 = d % 64 := by
  refine ⟨(Formatted.mi ..).major, (Formatted.mi ..).guard, ?_⟩
  have := tail_lt g maj
  unfold packMI bits
  omega

/-- The fields of format B (R45). -/
@[simp] theorem packB_fields (g : Guard) (maj o : Nat) :
    bits (packB g maj o) 6 1 = maj % 64 ∧ guardOf (packB g maj o) = g ∧ bits (packB g maj o) 31 11 = o % 2097152 := by
  refine ⟨(Formatted.b ..).major, (Formatted.b ..).guard, ?_⟩
  have := tail_lt g maj
  unfold packB bits
  omega

/-- The fields of format Q (R45). -/
@[simp] theorem packQ_fields (g : Guard) (maj k m x s h : Nat) :
    bits (packQ g maj k m x s h) 6 1 = maj % 64 ∧ guardOf (packQ g maj k m x s h) = g ∧
    bits (packQ g maj k m x s h) 31 29 = k % 8 ∧ bits (packQ g maj k m x s h) 28 25 = m % 16 ∧
    bits (packQ g maj k m x s h) 24 19 = x % 64 ∧ bits (packQ g maj k m x s h) 18 15 = s % 16 ∧
    bits (packQ g maj k m x s h) 14 11 = h % 16 := by
  refine ⟨(Formatted.q ..).major, (Formatted.q ..).guard, ?_⟩
  have := tail_lt g maj
  unfold packQ bits
  omega

/-- The fields of format S (R45). -/
@[simp] theorem packS_fields (g : Guard) (maj m r d : Nat) :
    bits (packS g maj m r d) 6 1 = maj % 64 ∧ guardOf (packS g maj m r d) = g ∧ bits (packS g maj m r d) 31 29 = m % 8 ∧
    bits (packS g maj m r d) 28 17 = r % 4096 ∧ bits (packS g maj m r d) 16 11 = d % 64 := by
  refine ⟨(Formatted.s ..).major, (Formatted.s ..).guard, ?_⟩
  have := tail_lt g maj
  unfold packS bits
  omega

/-- The fields of format D (R45). -/
@[simp] theorem packD_fields (g : Guard) (maj f m x b a d : Nat) :
    bits (packD g maj f m x b a d) 6 1 = maj % 64 ∧ guardOf (packD g maj f m x b a d) = g ∧
    bits (packD g maj f m x b a d) 31 29 = f % 8 ∧ bits (packD g maj f m x b a d) 28 26 = m % 8 ∧
    bits (packD g maj f m x b a d) 25 20 = x % 64 ∧ bits (packD g maj f m x b a d) 19 17 = b % 8 ∧
    bits (packD g maj f m x b a d) 16 14 = a % 8 ∧ bits (packD g maj f m x b a d) 13 11 = d % 8 := by
  refine ⟨(Formatted.d ..).major, (Formatted.d ..).guard, ?_⟩
  have := tail_lt g maj
  unfold packD bits
  omega

/-! ## The rows of the opcode map -/

/-- The rows of the opcode map, each with its major (R49). -/
inductive MajorRow : Nat → (Nat → Option Instr) → Prop
  | r00 : MajorRow 0 cand00 | r01 : MajorRow 1 cand01 | r02 : MajorRow 2 cand02 | r03 : MajorRow 3 cand03
  | r04 : MajorRow 4 cand04 | r05 : MajorRow 5 cand05 | r06 : MajorRow 6 cand06 | r07 : MajorRow 7 cand07
  | r08 : MajorRow 8 cand08 | r09 : MajorRow 9 cand09 | r0A : MajorRow 10 cand0A | r0B : MajorRow 11 cand0B
  | r0C : MajorRow 12 cand0C | r0D : MajorRow 13 cand0D | r0E : MajorRow 14 cand0E | r0F : MajorRow 15 cand0F
  | r10 : MajorRow 16 cand10 | r11 : MajorRow 17 cand11 | r12 : MajorRow 18 cand12 | r13 : MajorRow 19 cand13
  | r14 : MajorRow 20 cand14 | r18 : MajorRow 24 cand18 | r19 : MajorRow 25 cand19 | r1A : MajorRow 26 cand1A
  | r1B : MajorRow 27 cand1B | r1C : MajorRow 28 cand1C | r1D : MajorRow 29 cand1D | r1E : MajorRow 30 cand1E
  | r20 : MajorRow 32 cand20 | r21 : MajorRow 33 cand21 | r22 : MajorRow 34 cand22 | r23 : MajorRow 35 cand23
  | r24 : MajorRow 36 cand24 | r25 : MajorRow 37 cand25 | r26 : MajorRow 38 cand26 | r27 : MajorRow 39 cand27
  | r28 : MajorRow 40 cand28 | r29 : MajorRow 41 cand29 | r2A : MajorRow 42 cand2A | r2B : MajorRow 43 cand2B
  | r2C : MajorRow 44 cand2C | r2D : MajorRow 45 cand2D | r2E : MajorRow 46 cand2E | r2F : MajorRow 47 cand2F
  | r30 : MajorRow 48 cand30 | r31 : MajorRow 49 cand31 | r32 : MajorRow 50 cand32 | r33 : MajorRow 51 cand33
  | r34 : MajorRow 52 cand34 | r35 : MajorRow 53 cand35 | r36 : MajorRow 54 cand36 | r37 : MajorRow 55 cand37
  | r38 : MajorRow 56 cand38 | r39 : MajorRow 57 cand39 | r3A : MajorRow 58 cand3A | r3B : MajorRow 59 cand3B
  | r3C : MajorRow 60 cand3C | r3D : MajorRow 61 cand3D | r3E : MajorRow 62 cand3E

/-- A word of a format selects the row of its major. -/
theorem candidate_of_formatted {g : Guard} {maj w : Nat} {row : Nat → Option Instr} {c : Option Instr}
    (hw : Formatted g maj w) (hr : MajorRow maj row) (hc : row w = c) : candidate w = c := by
  have hmaj := hw.major
  rw [← hc]
  cases hr
  all_goals
    rw [candidate, hmaj]
    rfl

/-- The row of the opcode map that an encoded instruction's word selects is the instruction, operand for operand. -/
theorem candidate_of_encoding {x : Instr} {w : Nat} (h : x.encoding = some (4, w)) :
    (∃ z m, x = .guardNop z m) ∨ candidate w = some x := by
  cases x
  case guardNop z m => exact .inl ⟨z, m, rfl⟩
  all_goals cases h
  all_goals
    right
    apply candidate_of_formatted
    case hw => with_reducible constructor
    case hr => with_reducible constructor
  case ld g z s q x h d =>
    have hz : (fin ((z.val * 4 + s.val * 2 + q.val) % 32 / 4) : Fin 8) = z := fin_eq (by omega)
    have hs : (fin ((z.val * 4 + s.val * 2 + q.val) % 32 / 2) : Fin 2) = s := fin_eq (by omega)
    have hq : (fin ((z.val * 4 + s.val * 2 + q.val) % 32) : Fin 2) = q := fin_eq (by omega)
    simp [cand20, fin_mod_of_le, hz, hs, hq]
  case ldv g z v x h d =>
    have hz : (fin ((z.val * 4 + v.val * 2) % 32 / 4) : Fin 8) = z := fin_eq (by omega)
    have hv : (fin ((z.val * 4 + v.val * 2) % 32 / 2) : Fin 2) = v := fin_eq (by omega)
    simp [cand22, fin_mod_of_le, hz, hv]
  case st g z r x h d =>
    have hz : (fin ((z.val * 4 + r.val) % 32 / 4) : Fin 8) = z := fin_eq (by omega)
    have hr : (fin ((z.val * 4 + r.val) % 32) : Fin 2) = r := fin_eq (by omega)
    simp [cand23, fin_mod_of_le, hz, hr]
  case fcvt g r e s a d =>
    have he : (fin ((e.val * 8 + s.val) % 64 / 8) : Fin 8) = e := fin_eq (by omega)
    have hs : (fin ((e.val * 8 + s.val) % 64) : Fin 8) = s := fin_eq (by omega)
    simp [cand1C, fin_mod_of_le, he, hs]
  all_goals simp [fin_mod_of_le, mod_div_eq_zero, add_mod_div, fin_add_mod,
    cand00, cand01, cand02, cand03, cand04, cand05, cand06, cand07, cand08, cand09, cand0A, cand0B, cand0C, cand0D, cand0E,
    cand0F, cand10, cand11, cand12, cand13, cand14, cand18, cand19, cand1A, cand1B, cand1D, cand1E, cand21, cand24, cand25,
    cand26, cand27, cand28, cand29, cand2A, cand2B, cand2C, cand2D, cand2E, cand2F, cand30, cand31, cand32, cand33, cand34,
    cand35, cand36, cand37, cand38, cand39, cand3A, cand3B, cand3C, cand3D, cand3E]

theorem exists_formatted {g g' : Guard} {maj w : Nat} (hw : Formatted g maj w) (hg : g' = g) : ∃ maj, Formatted g' maj w :=
  ⟨maj, hg ▸ hw⟩

/-- An encoded instruction other than the no-op has a word of one of the formats, with its own guard. -/
theorem formatted_of_encoding {x : Instr} {f : Info} {w : Nat} (hf : infoOf x = some f) (h : x.encoding = some (4, w)) :
    (∃ z m, x = .guardNop z m) ∨ ∃ maj, Formatted f.guard maj w := by
  cases x
  case guardNop z m => exact .inl ⟨z, m, rfl⟩
  all_goals cases h
  all_goals
    cases hf
    right
    apply exists_formatted
    case hw => with_reducible constructor
    case hg => rfl

/-! ## Bytes of a word (R9, R39) -/

theorem leValue_leBytes {n w : Nat} (h : w < 256 ^ n) : leValue (leBytes n w) = w := by
  induction n generalizing w with
  | zero => simp at h; subst h; rfl
  | succ n ih =>
    have hw : w / 256 < 256 ^ n := Nat.div_lt_of_lt_mul (by rwa [← Nat.pow_succ'])
    rw [leBytes, leValue, ih hw, BitVec.toNat_ofNat]
    omega

/-- The first halfword of a little-endian value. -/
theorem leValue_two (w : Nat) : leValue [BitVec.ofNat 8 w, BitVec.ofNat 8 (w / 256)] = w % 65536 := by
  simp only [leValue, BitVec.toNat_ofNat]
  omega

theorem leValue_quad (b0 b1 b2 b3 : Byte) :
    leValue [b0, b1, b2, b3] < 2 ^ 32 ∧ leValue [b0, b1, b2, b3] % 2 = leValue [b0, b1] % 2 := by
  simp only [leValue]
  omega

/-- The bytes of an even halfword decode as a halfword. -/
theorem decode_half {w : Nat} (rest : List Byte) (h : w < 65536) (heven : w % 2 = 0) :
    decode (leBytes 2 w ++ rest) = (decodeHalf w).map (·, 2) := by
  simp [leBytes, decode, leValue_two, wordLength, Nat.mod_eq_of_lt h, heven]

/-- The bytes of an odd 32-bit word decode as a word. -/
theorem decode_word {w : Nat} (rest : List Byte) (h : w < 2 ^ 32) (hodd : w % 2 = 1) :
    decode (leBytes 4 w ++ rest) = (decodeWord w).map (·, 4) := by
  have hv : leValue (leBytes 4 w) = w := leValue_leBytes h
  have hlen : w % 65536 % 2 = 1 := by omega
  simp only [leBytes, List.cons_append, List.nil_append, decode, leValue_two, wordLength, hlen] at hv ⊢
  simp [hv]

/-! ## Acceptance -/

theorem accept_some {len w : Nat} {x : Instr} (hwf : x.wf = true) (he : x.encoding = some (len, w)) :
    accept len w (some x) = .ok x := by
  simp [accept, hwf, he]

theorem accept_ok {len w : Nat} {c : Option Instr} {x : Instr} (h : accept len w c = .ok x) :
    x.wf = true ∧ x.encoding = some (len, w) := by
  unfold accept at h
  split at h
  · split at h
    · obtain rfl := Except.ok.inj h
      simp_all
    · cases h
  · cases h

/-! ## Decoding what was encoded -/

theorem wf_guard {x : Instr} {f : Info} (h : x.wf = true) (hf : infoOf x = some f) : f.guard ≠ Guard.never := by
  simp [Instr.wf, hf] at h
  exact h.2

theorem wf_infoOf {x : Instr} (h : x.wf = true) : ∃ f, infoOf x = some f := by
  unfold Instr.wf at h
  split at h
  · cases h
  · exact ⟨_, ‹_›⟩

/-- Bits [10:7] of a word are 8 just where the guard is !p0 (R44). -/
theorem bits_guard_of_tail {w : Nat} {g : Guard} {maj : Nat} (h : w % 2 ^ 11 = tail g maj) (hg : g ≠ Guard.never) :
    bits w 10 7 ≠ 8 := by
  obtain ⟨n, p⟩ := g
  have hp := p.isLt
  unfold tail at h
  unfold bits
  cases n with
  | false => simp at h; omega
  | true =>
    have : p.val ≠ 0 := fun h0 => hg (by rw [Guard.never]; congr; exact Fin.ext h0)
    simp at h; omega

/-- No row stands at a reserved major (R59). -/
theorem candidate_of_reserved {w : Nat} (h : reservedMajor (bits w 6 1) = true) : candidate w = none := by
  simp only [reservedMajor, List.contains_iff_mem, List.mem_cons, List.not_mem_nil, or_false] at h
  rcases h with h | h | h | h | h
  all_goals
    rw [candidate, h]
    rfl

theorem not_reserved_of_candidate {w : Nat} {x : Instr} (h : candidate w = some x) : reservedMajor (bits w 6 1) = false := by
  rw [← Bool.not_eq_true]
  intro hr
  rw [candidate_of_reserved hr] at h
  cases h

/-- The fields of a halfword (R40). -/
@[simp] theorem pack16_fields (op s d : Nat) :
    bits (pack16 op s d) 4 1 = op % 16 ∧ bits (pack16 op s d) 14 10 = s % 32 ∧ bits (pack16 op s d) 9 5 = d % 32 := by
  unfold pack16 bits
  omega

theorem pack16_range (op s d : Nat) : pack16 op s d < 2 ^ 15 ∧ pack16 op s d % 2 = 0 := by
  unfold pack16
  omega

theorem pack16_eq_zero {op s d : Nat} : pack16 op s d = 0 ↔ op % 16 = 0 ∧ s % 32 = 0 ∧ d % 32 = 0 := by
  unfold pack16
  omega

/-- The row that a halfword selects is the instruction; the one with no bit set is `add g0, g0` (R41). -/
theorem candidate16_of_encoding {x : Instr} {len w : Nat} (h : x.encoding = some (len, w)) (hlen : len = 2) :
    candidate16 w = some x ∧ (w < 2 ^ 15 ∧ w % 2 = 0) ∧ (w = 0 → x = .add16 0 0) := by
  cases x
  all_goals cases h
  all_goals cases hlen
  all_goals refine ⟨by simp [candidate16, fin_mod_of_le], pack16_range _ _ _, ?_⟩
  case add16.refl s d =>
    rw [pack16_eq_zero]
    rintro ⟨-, hs, hd⟩
    rw [show s = 0 by omega, show d = 0 by omega]
  all_goals
    rw [pack16_eq_zero]
    rintro ⟨hop, -⟩
    cases hop

/-- An encoding has two bytes or four. -/
theorem encoding_length {x : Instr} {len w : Nat} (h : x.encoding = some (len, w)) : len = 2 ∨ len = 4 := by
  cases x
  all_goals cases h
  all_goals decide

theorem decodeHalf_of_encoding {x : Instr} {w : Nat} (hwf : x.wf = true) (h : x.encoding = some (2, w)) :
    w < 65536 ∧ w % 2 = 0 ∧ decodeHalf w = .ok x := by
  obtain ⟨hc, ⟨hlt, heven⟩, hzero⟩ := candidate16_of_encoding h rfl
  have hw : w ≠ 0 := by
    intro h0
    rw [hzero h0] at hwf
    exact absurd hwf (by decide)
  have h15 : bits w 15 15 ≠ 1 := by
    unfold bits
    omega
  refine ⟨by omega, heven, ?_⟩
  rw [decodeHalf, if_neg (by simp [hw, h15]), hc, accept_some hwf h]

/-- The word of the no-op reads back as the no-op (R44). -/
theorem decodeWord_packNop (z : Fin 2097152) (m : Fin 64) :
    packNop z m < 2 ^ 32 ∧ packNop z m % 2 = 1 ∧ decodeWord (packNop z m) = .ok (.guardNop z m) := by
  have hg : bits (packNop z m) 10 7 = 8 ∧ bits (packNop z m) 31 11 = z.val % 2097152 ∧ bits (packNop z m) 6 1 = m.val % 64 := by
    unfold packNop tail bits
    simp only [if_true]
    omega
  obtain ⟨hg, hz, hm⟩ := hg
  refine ⟨?_, ?_, ?_⟩
  · unfold packNop tail
    simp only [if_true]
    omega
  · unfold packNop tail
    simp only [if_true]
    omega
  · rw [decodeWord, if_pos hg, hz, hm, fin_mod_of_le z le_rfl, fin_mod_of_le m le_rfl]

theorem decodeWord_of_encoding {x : Instr} {w : Nat} (hwf : x.wf = true) (h : x.encoding = some (4, w)) :
    w < 2 ^ 32 ∧ w % 2 = 1 ∧ decodeWord w = .ok x := by
  obtain ⟨f, hf⟩ := wf_infoOf hwf
  rcases candidate_of_encoding h with ⟨z, m, rfl⟩ | hc
  · cases h
    exact decodeWord_packNop z m
  rcases formatted_of_encoding hf h with ⟨z, m, rfl⟩ | ⟨maj, hform⟩
  · cases h
    exact decodeWord_packNop z m
  obtain ⟨htail, hlt⟩ := hform.tail_and_lt
  have hodd : w % 2 = 1 := by
    unfold tail at htail
    omega
  refine ⟨hlt, hodd, ?_⟩
  rw [decodeWord, if_neg (bits_guard_of_tail htail (wf_guard hwf hf)), not_reserved_of_candidate hc, if_neg Bool.false_ne_true, hc,
    accept_some hwf h]

theorem decode_encoding {x : Instr} {len w : Nat} (rest : List Byte) (hwf : x.wf = true) (h : x.encoding = some (len, w)) :
    decode (leBytes len w ++ rest) = .ok (x, len) := by
  rcases encoding_length h with rfl | rfl
  · obtain ⟨hlt, heven, hx⟩ := decodeHalf_of_encoding hwf h
    rw [decode_half rest hlt heven, hx]
    rfl
  · obtain ⟨hlt, hodd, hx⟩ := decodeWord_of_encoding hwf h
    rw [decode_word rest hlt hodd, hx]
    rfl

/-! ## Encoding what was decoded -/

theorem decodeHalf_ok {w : Nat} {x : Instr} (h : decodeHalf w = .ok x) : x.wf = true ∧ x.encoding = some (2, w) := by
  unfold decodeHalf at h
  split at h
  · cases h
  · exact accept_ok h

theorem guardNop_wf (z : Fin 2097152) (m : Fin 64) : (Instr.guardNop z m).wf = true := by
  simp [Instr.wf, infoOf, Machine.infoGuardNop, Info.legal]
  decide

theorem decodeWord_ok {w : Nat} {x : Instr} (hlt : w < 2 ^ 32) (hodd : w % 2 = 1) (h : decodeWord w = .ok x) :
    x.wf = true ∧ x.encoding = some (4, w) := by
  unfold decodeWord at h
  split at h
  · rename_i h8
    obtain rfl := Except.ok.inj h
    refine ⟨guardNop_wf _ _, ?_⟩
    have hw : packNop (bits w 31 11) (bits w 6 1) = w := by
      unfold packNop tail
      simp only [if_true]
      unfold bits at *
      omega
    show some (4, packNop (bits w 31 11 % 2097152) (bits w 6 1 % 64)) = _
    rw [Nat.mod_eq_of_lt, Nat.mod_eq_of_lt, hw]
    all_goals
      unfold bits
      omega
  · split at h
    · cases h
    · exact accept_ok h

/-- What decodes has as many bytes as its length says, and they are its encoding. -/
theorem decode_ok {x : Instr} {n : Nat} {bs : List Byte} (h : decode bs = .ok (x, n)) :
    x.wf = true ∧ n ≤ bs.length ∧ x.encoding = some (n, leValue (bs.take n)) := by
  unfold decode at h
  split at h
  · rename_i b0 b1 rest
    dsimp only at h
    split at h
    · cases hd : decodeHalf (leValue [b0, b1]) with
      | error r => rw [hd] at h; cases h
      | ok y =>
        rw [hd] at h
        cases h
        obtain ⟨hwf, he⟩ := decodeHalf_ok hd
        exact ⟨hwf, by simp, by simpa using he⟩
    · rename_i hlen
      split at h
      · rename_i b2 b3 rest'
        obtain ⟨hlt, hpar⟩ := leValue_quad b0 b1 b2 b3
        have hodd : leValue [b0, b1, b2, b3] % 2 = 1 := by
          unfold wordLength at hlen
          split at hlen
          · exact absurd rfl hlen
          · omega
        cases hd : decodeWord (leValue [b0, b1, b2, b3]) with
        | error r => rw [hd] at h; cases h
        | ok y =>
          rw [hd] at h
          cases h
          obtain ⟨hwf, he⟩ := decodeWord_ok hlt hodd hd
          exact ⟨hwf, by simp, by simpa using he⟩
      · cases h
  · cases h

end Sys2Proof.DecodeEncode

/-- Settles O57: the row that an encoding's word selects is the instruction, and the decoder accepts only a well-formed instruction whose
encoding is the word that was read. -/
theorem decodeInvertsEncode : Obligations.DecodeInvertsEncode :=
  ⟨fun _ _ _ rest hwf h => Sys2Proof.DecodeEncode.decode_encoding rest hwf h, fun _ _ _ h => Sys2Proof.DecodeEncode.decode_ok h⟩
end
section
/-! PROOFS. Control transfers (O22) and no-ops (O3). -/

namespace Sys2Proof.Transfers

open Sys2Proof.Machine

/-! ## Engines whose lanes alone have changed -/

theorem Engine.LanesOf.congr {base after : Engine} {f g : Nat → Lane → Lane} (h : base.LanesOf after f)
    (hfg : ∀ k l, f k l = g k l) : base.LanesOf after g := by
  obtain rfl : f = g := funext fun k => funext fun l => hfg k l
  exact h

theorem lanesOf_mapLanes {base after : Engine} {f : Nat → Lane → Lane} (h : base.LanesOf after f) (m : Dword)
    (op : Nat → Lane → Lane) :
    base.LanesOf (after.mapLanes m op) fun k l => if m.getLsbD k then op k (f k l) else f k l := by
  constructor
  · show (after.mapLanes m op) = base.withLanes (after.mapLanes m op).lanes after.sb
    conv_lhs => rw [h.rest]
    rfl
  · intro k
    rw [Engine.find?_mapLanes, h.lane, Option.map_map]
    rfl

theorem lanesOf_self (e : Engine) : e.LanesOf e fun _ l => l := ⟨rfl, fun k => by simp⟩

theorem lanesOf_advance (e : Engine) (i : Issue) :
    e.LanesOf (e.advance i) fun k l => if i.lanes.getLsbD k then l.goneOn i else l :=
  lanesOf_mapLanes (lanesOf_self e) i.lanes _

/-- A lane that executes an instruction issues it. -/
theorem Executes.issues {e : Engine} {i : Issue} {g : Guard} {live : Dword} (h : e.Executes i g live) {k : Nat}
    (hk : live.getLsbD k = true) : i.lanes.getLsbD k = true := by
  have := h k
  rw [hk] at this
  exact (Bool.and_eq_true_iff.mp this.symm).1

/-- Lanes that execute a jump stand at the target that `t` gives them; the other lanes that issue it have gone on. -/
theorem lanesOf_jump {e : Engine} {i : Issue} {g : Guard} {live : Dword} (h : e.Executes i g live) (t : Lane → Word) :
    e.LanesOf (e.jump i live t) fun k l =>
      if live.getLsbD k then { l with pc := t (l.goneOn i), issued := true }
      else if i.lanes.getLsbD k then l.goneOn i else l := by
  refine Engine.LanesOf.congr (lanesOf_mapLanes (lanesOf_advance e i) live _) fun k l => ?_
  by_cases hk : live.getLsbD k = true
  · simp [hk, Executes.issues h hk, Lane.goneOn]
  · simp [hk]

/-! ## Branch and call -/

/-- Twice a branch's offset, as `Issue.target` adds it, is twice its sign extension (R46). -/
theorem target_eq (i : Issue) (o : Nat) : i.target o = i.pc + 2 * (BitVec.ofNat 21 o).signExtend 32 := by
  rw [Issue.target, BitVec.signExtend]
  congr 1
  rw [BitVec.ofInt_mul]
  rfl

theorem bra_jumps (g : Guard) (o : Fin 2097152) (s : State) (i : Issue) (e : Engine) (live : Dword) :
    Spec.Jumps (.bra g o) g s i e live fun l => { l with pc := i.target o } := by
  intro h hl
  refine ⟨e.jump i live fun _ => i.target o, ?_, lanesOf_jump hl _⟩
  show execBra g o s = _
  rw [execBra, gated_spec h rfl hl]
  rfl

/-- The engine after a call: its lanes hold the return address in g63, the guard's other lanes have gone on. -/
theorem lanesOf_callRetire {e : Engine} {i : Issue} {g : Guard} {live : Dword} (f : Info) (cyc : Nat) (ret target : Word)
    (h : e.Executes i g live) :
    e.LanesOf (((e.mapLanes live fun _ l => l.setReg 63 ret).retire f i live cyc).mapLanes live fun _ l =>
        { l with pc := target }) fun k l =>
      if live.getLsbD k then { l.setReg 63 ret with pc := target, issued := true }
      else if i.lanes.getLsbD k then l.goneOn i else l := by
  have hret := Engine.lanesOf_retire e (e.mapLanes live fun _ l => l.setReg 63 ret) f i live cyc
    (fun k l => if live.getLsbD k then l.setReg 63 ret else l) rfl (fun k => Engine.find?_mapLanes _ _ _ _)
  refine Engine.LanesOf.congr (lanesOf_mapLanes hret live _) fun k l => ?_
  by_cases hk : live.getLsbD k = true
  · simp [hk, Executes.issues h hk, Lane.goneOn]
  · simp [hk]

theorem call_jumps (g : Guard) (o : Fin 2097152) (s : State) (i : Issue) (e : Engine) (live : Dword) :
    Spec.Jumps (.call g o) g s i e live fun l => { l.setReg 63 (i.pc + 4) with pc := i.target o } := by
  intro h hl
  refine ⟨_, ?_, lanesOf_callRetire (infoCall g o) s.clock.cyc (i.pc + 4) (i.target o) hl⟩
  show execCall g o s = _
  rw [execCall, gated_spec h rfl hl]
  rfl

/-! ## Jumps to the address in a register -/

/-- Where no executing lane's target is odd, each goes to its own. -/
theorem jumpReg_even {x : Instr} {f : Info} {a : Nat} {s : State} {i : Issue} {e : Engine} {live : Dword}
    (hf : infoOf x = some f) (hx : exec x s = jumpReg f s a)
    (heven : ∀ k l, live.getLsbD k = true → e.lanes.find? k = some l → (l.reg a).getLsbD 0 = false) :
    Spec.Jumps x f.guard s i e live fun l => { l with pc := l.reg a } := by
  intro h hl
  refine ⟨e.jump i live fun l => l.reg a, ?_, lanesOf_jump hl _⟩
  have hnone : ((e.lanesOf live).find? fun kl => (kl.2.reg a).getLsbD 0) = none := by
    rw [List.find?_eq_none]
    rintro ⟨k, l⟩ hkl
    obtain ⟨hk, hfind⟩ := (Engine.mem_lanesOf e live k l).mp hkl
    simpa only [Bool.not_eq_true] using heven k l hk hfind
  rw [hx, jumpReg, gated_spec h hf hl]
  simp only [hnone]
  rfl

/-- The lanes of a mask stand in ascending order, so the first of them with a property is the lowest one. -/
theorem find?_lanesOf {e : Engine} {live : Dword} {p : Lane → Bool} {k : Nat} {l : Lane} (hk : live.getLsbD k = true)
    (hfind : e.lanes.find? k = some l) (hp : p l = true)
    (hmin : ∀ j l', j < k → live.getLsbD j = true → e.lanes.find? j = some l' → p l' = false) :
    (e.lanesOf live).find? (fun kl => p kl.2) = some (k, l) := by
  have hk64 : k < 64 := BitVec.lt_of_getLsbD hk
  have hrange : (List.range 64).find? (fun j => (if live.getLsbD j then (e.lanes.find? j).map fun l => (j, l) else none).any
      fun kl => p kl.2) = some k := by
    refine List.find?_range_eq_some.mpr ⟨by simp [hk, hfind, hp], by simpa using hk64, fun j hj => ?_⟩
    by_cases hj' : live.getLsbD j = true
    · cases hfj : e.lanes.find? j with
      | none => simp [hj']
      | some l' => simp [hj', hmin j l' hj hj' hfj]
    · simp [hj']
  rw [Engine.lanesOf, List.find?_filterMap, hrange]
  simp [hk, hfind]

/-- The lowest executing lane with an odd target gives FADDR. -/
theorem jumpReg_odd {x : Instr} {f : Info} {a : Nat} {s : State} {i : Issue} {e : Engine} {live : Dword} {k : Nat} {l : Lane}
    (hf : infoOf x = some f) (hx : exec x s = jumpReg f s a) (h : s.Issues x i e) (hl : e.Executes i f.guard live)
    (hk : live.getLsbD k = true) (hfind : e.lanes.find? k = some l) (hodd : (l.reg a).getLsbD 0 = true)
    (hmin : ∀ j l', j < k → live.getLsbD j = true → e.lanes.find? j = some l' → (l'.reg a).getLsbD 0 = false) :
    exec x s = .next (s.trap { i with away := i.lanes &&& ~~~live } .align live (l.reg a).toNat 0) := by
  have hfirst := find?_lanesOf (p := fun l => (l.reg a).getLsbD 0) hk hfind hodd hmin
  rw [hx, jumpReg, gated_spec h hf hl]
  simp only [hfirst]

/-! ## No-ops -/

/-- An instruction without effect completes in its lanes, which stay as they are but for going on. -/
theorem noEffect_completes {x : Instr} {f : Info} (hf : infoOf x = some f) (hx : ∀ s, exec x s = noEffect f s) :
    CompletesInLanes x f.guard fun _ _ _ _ l => l := by
  intro s i e live h hl
  refine ⟨e.advance i, ?_, fun loc hloc => State.setEngine_readHome _ _ _ hloc, ?_⟩
  · rw [hx, noEffect, gated_spec h hf hl]
    rfl
  · simpa using lanesOf_advance e i

end Sys2Proof.Transfers

open Sys2Proof Sys2Proof.Machine Sys2Proof.Transfers

/-- Settles O22: a jump maps the lanes that execute it, which are the first to have gone on, and the lowest odd target is the first that the
ascending list of those lanes holds. -/
theorem controlTransfers : Obligations.ControlTransfers := by
  intro g o a s i e live
  refine ⟨?_, ?_, fun x hx => ?_⟩
  · rw [← target_eq]
    exact bra_jumps g o s i e live
  · rw [← target_eq]
    exact call_jumps g o s i e live
  · obtain ⟨f, rfl, hf, hexec⟩ : ∃ f, f.guard = g ∧ infoOf x = some f ∧ ∀ s, exec x s = jumpReg f s a := by
      obtain rfl | hret := List.mem_cons.mp hx
      · exact ⟨infoJmp g a, rfl, rfl, fun _ => rfl⟩
      · obtain rfl := List.mem_singleton.mp hret
        exact ⟨infoRet g a, rfl, rfl, fun _ => rfl⟩
    exact ⟨fun heven => jumpReg_even hf (hexec s) heven,
      fun k l h hl hk hfind hodd hmin => jumpReg_odd hf (hexec s) h hl hk hfind hodd hmin⟩

/-- Settles O3: both are `noEffect`, and the guard under which a word with the guard !p0 is decoded holds in every lane. -/
theorem nopsOnlyGoOn : Obligations.NopsOnlyGoOn :=
  ⟨fun z m => noEffect_completes (f := infoGuardNop z m) rfl fun _ => rfl, fun g => noEffect_completes (f := infoNop g) rfl fun _ => rfl⟩

end

section
/-! PROOFS. The spec's own words (O56). -/

/-- Settles O56: the decoder evaluates each word. -/
theorem decodesSpecWords : Obligations.DecodesSpecWords := by
  unfold Obligations.DecodesSpecWords
  dsimp only
  refine ⟨?_, ?_, ?_, ?_, ?_, ?_, ?_, ?_, ?_, ?_, ?_, ?_, ?_, ?_, ?_, ?_, ?_, ?_⟩ <;> decide +kernel

end
section
/-! PROOFS. The decode checks (O2). -/

namespace Sys2Proof.DecodeChecking

open Sys2Proof.Machine

/-! ## What an instruction that the decode checks refuse does

Every instruction runs through `gated`, by one of the operand forms below; the forms differ in what they do after the checks. -/

/-- An instruction's outcome is ILLEGAL where its words do not pass the decode checks, and PRIV where they do but the context is not
privileged enough. -/
def Refuses (f : Info) (s : State) (o : Out) : Prop :=
  ∀ (i : Issue) (e : Engine), s.cur = some i → s.engine i.eng = some e →
    (f.legal e.isSeq e.regCount = false → o = .next (s.trap i .illegal (e.standing i.lanes) 0 0)) ∧
    (f.legal e.isSeq e.regCount = true → f.priv = true → s.privileged e = false →
      o = .next (s.trap i .priv (e.standing i.lanes) 0 0))

theorem refuses_gated (f : Info) (s : State) (k : Issue → Engine → Dword → Out) : Refuses f s (gated f s k) := by
  intro i e hcur heng
  constructor
  · intro hlegal
    simp [gated, hcur, heng, hlegal]
  · intro hlegal hpriv hctx
    simp [gated, hcur, heng, hlegal, hpriv, hctx]

section Forms

variable (f : Info) (s : State)

theorem refuses_lanes (op : Lane → Lane) : Refuses f s (lanes f s op) := refuses_gated _ _ _

theorem refuses_lanesFx (op : Engine → Dword → Nat → Lane → Lane × Fx) (post : Engine → Engine) :
    Refuses f s (lanesFx f s op post) := refuses_gated _ _ _

theorem refuses_once (op : Engine → Dword → Engine) : Refuses f s (once f s op) := refuses_gated _ _ _

theorem refuses_gang (k : Issue → Engine → Dword → Out) : Refuses f s (gang f s k) := refuses_gated _ _ _

theorem refuses_noEffect : Refuses f s (noEffect f s) := refuses_gated _ _ _

theorem refuses_jumpReg (a : Nat) : Refuses f s (jumpReg f s a) := refuses_gated _ _ _

theorem refuses_farAny (h x d : Nat) (form : FarForm) : Refuses f s (farAny f s h x d form) := refuses_gated _ _ _

theorem refuses_crossLane (m : Option Nat) (op : CrossOp) (src : Lane → Arrived) :
    Refuses f s (crossLane f s m op src) := refuses_gated _ _ _

theorem refuses_toDist (d : Nat) (op : Lane → Dist × Fx) : Refuses f s (toDist f s d op) := refuses_lanesFx _ _ _ _

theorem refuses_toReg (x : Nat) (op : Lane → FloatRes) : Refuses f s (toReg f s x op) := refuses_lanesFx _ _ _ _

theorem refuses_dbin (n a b d : Nat) : Refuses f s (dbin f s n a b d) := refuses_gated _ _ _

theorem refuses_returnForm (scope h : Nat) : Refuses f s (returnForm f s scope h) := refuses_gang _ _ _

theorem refuses_layerForm (a : Nat) (withObj : Bool) (k : Issue → Engine → Dword → Nat → Layer → Out) :
    Refuses f s (layerForm f s a withObj k) := refuses_gang _ _ _

theorem refuses_borrow (exclusive : Bool) (try_ : Option Nat) (x hs hd : Nat) :
    Refuses f s (borrow f s exclusive try_ x hs hd) := refuses_gang _ _ _

theorem refuses_loadAny (h x d z imm : Nat) (signed acq stream : Bool) :
    Refuses f s (loadAny f s h x d z imm signed acq stream) := refuses_gated _ _ _

theorem refuses_split (n x hs hd : Nat) : Refuses f s (split f s n x hs hd) := refuses_gang _ _ _

theorem refuses_fence (rel : Bool) (b a : Nat) : Refuses f s (fence f s rel b a) := refuses_gated _ _ _

theorem refuses_barrier (form m c : Nat) : Refuses f s (barrier f s form m c) := refuses_gated _ _ _

theorem refuses_storeAny (h : Nat) (offs : Engine → Dword → List (Nat × Nat)) (size : Nat) (rel merge : Bool)
    (bytes : Lane → List Byte) : Refuses f s (storeAny f s h offs size rel merge bytes) := refuses_gated _ _ _

theorem refuses_reborrow (exclusive : Bool) (x hs hd : Nat) :
    Refuses f s (reborrow f s exclusive x hs hd) := refuses_gang _ _ _

theorem refuses_copyAny (shadow : Bool) (kind x hs hd : Nat) :
    Refuses f s (copyAny f s shadow kind x hs hd) := refuses_gang _ _ _

theorem refuses_distSpace (x h : Nat) (k : Out) : Refuses f s (distSpace f s x h k) := refuses_gated _ _ _

end Forms

/-- A gang instruction with a further condition on the state, where it is not privileged: `park` and the returns from a handler. -/
theorem refuses_okGang (f : Info) (s : State) (ok : Bool) (k : Issue → Engine → Dword → Out) (hok : f.ok = true)
    (hpriv : f.priv = false) : Refuses f s (gang { f with ok } s k) := by
  intro i e hcur heng
  refine ⟨fun hlegal => (refuses_gang { f with ok } s k i e hcur heng).1 ?_, fun _ h => absurd h (by simp [hpriv])⟩
  simp only [Info.legal, hok, Bool.and_true] at hlegal
  cases ok <;> simp_all [Info.legal]

theorem refuses_trapReturnForm (f : Info) (s : State) (skip : Bool) (hok : f.ok = true) (hpriv : f.priv = false) :
    Refuses f s (trapReturnForm f s skip) := refuses_okGang f s _ _ hok hpriv

/-- Every encoded instruction runs through one of the forms, with its own decode checks.  The dispatch of `exec` is opened before the
case split, so that each case stands at its own arm. -/
theorem refuses_exec (x : Instr) (s : State) (f : Info) (hf : infoOf x = some f) : Refuses f s (exec x s) := by
  delta exec
  cases x
  all_goals cases hf
  case add16 | sub16 | and16 | or16 | xor16 | shl16 | shr16 | sar16 | mov16 | movi5 | addi5 | add | sub | addc | subb | minS32 |
      maxS32 | minN32 | maxN32 | mul | mulhiS32 | mulhiN32 | mad | divS32 | divN32 | remS32 | remN32 | and | or | xor | andn | orn |
      xnor | not | mov | shl | shr | sar | rotl | rotr | bfeN32 | bfeS32 | bfi | popc | clz | ctz | brev | bperm | abs | neg | sext
      | addi | shlImm | shrImm | sarImm | rotlImm | movl | movh | add64 | sub64 | mul64lo | mulwS32 | mulwN32 | shl64 | shr64 |
      sar64 | icmpEq | icmpNe | icmpLt | icmpLe | icmpGt | icmpGe | pand | por | pxor | pandn | pnot | p2g | g2p | pset | fxrd |
      fxclr | fxor | fxtest | fabs | fneg | idot4S8 | idot4N8 | fclass | fcopysign =>
    apply refuses_lanes
  case fadd16 | fsub16 | fmul16 | fmin16 | fmax16 | fcmpEq | fcmpNe | fcmpLt | fcmpLe | fcmpGt | fcmpGe | fadd | fsub | fmul | ffma
      | fmin | fmax | faddBf16x2 | fmulBf16x2 | ffmaBf16x2 | faddF16x2 | fmulF16x2 | ffmaF16x2 | fmaxBf16x2 | fminBf16x2 | dot2Bf16
      | dot2F16 | dot4E4m3 | dot4E5m2 | dot8E2m1 | rcp | rsq | sqrt | exp2 | log2 | sin | cos | tanh | fcvt | qencE2m1 | qdecE2m1 |
      pk2Bf16 | pk2F16 | pk4E4m3 | pk4E5m2 | unpkE4m3 | unpkE5m2 | frnd | fgetexp | fscale | fsat =>
    apply refuses_lanesFx
  case guardNop | nop =>
    apply refuses_noEffect
  case voteAnyP | voteAllP | voteCountP | voteBallotP | voteAnyFx | voteAllFx | voteCountFx | voteBallotFx | shflIdx | shflUp |
      shflDown | shflXor | xredAdd | xredMin | xredMax | xredLogic | xscanAddInc | xscanAddExc | xscanMaxInc | xscanMaxExc | rcv =>
    apply refuses_crossLane
  case sadd | ssub | sand | sor | sshl | sshr | s2g | g2s | mset | mand | mor | mfromp =>
    apply refuses_once
  case sv | mget | pref | touch | probe | dflush | mbpost | sleepUntil | bra | call | mfsr =>
    apply refuses_gated
  case ld | ldi | ldv =>
    apply refuses_loadAny
  case st | sti =>
    apply refuses_storeAny
  case farAddS32 | farAddF32 | farAddBf16x2 | farMinS32 | farMaxS32 | farMinN32 | farMaxN32 | farMinF32 | farMaxF32 | farAnd | farOr
      | farXor | farExch | farCas | farIncWrap | farDecWrap | faroAddS32 | faroExchB32 | faroCasB32 | faroAddN64 | faroExchB64 |
      faroCasB64 | faroMinN64 | faroMaxN64 | sigAdd | sigMax | sigWaitGe | sigWaitEq | sigTest =>
    apply refuses_farAny
  case borrowX | borrowS | borrowXTry | borrowSTry =>
    apply refuses_borrow
  case reborrowX | reborrowS =>
    apply refuses_reborrow
  case split2 | split4 | split8 =>
    apply refuses_split
  case join | give | freeze | thaw | bstat | bdrop | publish | cpwait | cpstat | cpcancel | spawn | hqpost | hqtake | hqpeek | yield
      | exit | rgn | brk | trap | halt | tset | tget | tbind | tdrop | tchk | lpref | lret | mcfg | mcommit | mma | mzero | mfeed |
      mdrain | mwait | mchain | mtsr | haltCtx | ecall | dbgmark | tlbi | l2wb | l2cfg | owalk | bias | migr | invl1 | pcnt =>
    apply refuses_gang
  case park =>
    exact refuses_okGang _ _ _ _ rfl rfl
  case returnBlk | returnCore | returnDie | returnDev | returnSys =>
    apply refuses_returnForm
  case fenceAcq | fenceRel | fenceAcqrel =>
    apply refuses_fence
  case barSync | barArrive | barWait =>
    apply refuses_barrier
  case copy | copyShadow =>
    apply refuses_copyAny
  case dadd | dsub | dmul | ddiv | dmin | dmax =>
    apply refuses_dbin
  case dmix | dscale | dshift | dmap | dneg | dmov | dcond | dtag | dnorm | dsrc | dpush | dpushw =>
    apply refuses_toDist
  case dld | dst =>
    apply refuses_distSpace
  case dselV | dselW | dmass | dmom1 | dmom2c | dmom3c | dmom4c | dqnt | dcdf | dlo | dhi =>
    apply refuses_toReg
  case jmp | ret =>
    apply refuses_jumpReg
  case lbrw | lstat | lretry | lpin | lunpin =>
    apply refuses_layerForm
  case tret | tretSkip =>
    exact refuses_trapReturnForm _ _ _ rfl rfl

/-! ## What the decode checks ask -/

theorem legal_iff (f : Info) (seq : Bool) (n : Nat) :
    f.legal seq n = true ↔ ((if seq then f.seqOk else f.laneOk) = true ∧ f.ok = true) ∧ ∀ r ∈ f.refs, r.fits n = true := by
  simp only [Info.legal, Bool.and_eq_true, List.all_eq_true]

theorem fits_iff (n : Nat) (r : Ref) :
    r.fits n = true ↔ r.len = 0 ∨ (r.num + r.len ≤ r.cls.count n ∧ r.num % r.align = 0) := by
  simp only [Ref.fits, Bool.or_eq_true, Bool.and_eq_true, decide_eq_true_eq, beq_iff_eq]

/-- A single register lies below the count of its class. -/
theorem fits_rd (c : RegClass) (r n : Nat) : (Ref.rd c r).fits n = true ↔ r < c.count n := by
  rw [fits_iff]
  simp only [Ref.rd, Nat.mod_one, and_true]
  omega

theorem fits_wr (c : RegClass) (r n : Nat) : (Ref.wr c r).fits n = true ↔ r < c.count n := fits_rd c r n

/-- A pair lies below the count of its class and starts at an even register. -/
theorem fits_rdN_two (c : RegClass) (r n : Nat) : (Ref.rdN c r 2).fits n = true ↔ r + 2 ≤ c.count n ∧ r % 2 = 0 := by
  rw [fits_iff]
  simp [Ref.rdN]

theorem fits_wrN_two (c : RegClass) (r n : Nat) : (Ref.wrN c r 2).fits n = true ↔ r + 2 ≤ c.count n ∧ r % 2 = 0 :=
  fits_rdN_two c r n

section Operands

variable (g : Guard) (b a d : Fin 64) (seq : Bool) (n : Nat)

theorem legal_add : (infoAdd g b a d).legal seq n = true ↔ b.val < n ∧ a.val < n ∧ d.val < n := by
  rw [legal_iff]
  simp [infoAdd, fits_rd, fits_wr, RegClass.count]

theorem legal_add64 : (infoAdd64 g b a d).legal seq n = true ↔
    b.val + 2 ≤ n ∧ b.val % 2 = 0 ∧ a.val + 2 ≤ n ∧ a.val % 2 = 0 ∧ d.val + 2 ≤ n ∧ d.val % 2 = 0 := by
  rw [legal_iff]
  simp [infoAdd64, fits_rdN_two, fits_wrN_two, RegClass.count, and_assoc]

theorem legal_mulwS32 : (infoMulwS32 g b a d).legal seq n = true ↔
    b.val < n ∧ a.val < n ∧ d.val + 2 ≤ n ∧ d.val % 2 = 0 := by
  rw [legal_iff]
  simp [infoMulwS32, fits_rd, fits_wrN_two, RegClass.count]

theorem legal_pand : (infoPand g b a d).legal seq n = true ↔ b.val < 8 ∧ a.val < 8 ∧ d.val < 8 := by
  rw [legal_iff]
  simp [infoPand, fits_rd, fits_wr, RegClass.count]

theorem legal_mand : (infoMand g b a d).legal seq n = true ↔ seq = false ∧ b.val < 4 ∧ a.val < 4 ∧ d.val < 4 := by
  rw [legal_iff]
  simp [infoMand, fits_rd, fits_wr, RegClass.count]

theorem legal_sadd : (infoSadd g b a d).legal seq n = true ↔ seq = false ∧ b.val < 32 ∧ a.val < 32 ∧ d.val < 32 := by
  rw [legal_iff]
  simp [infoSadd, fits_rd, fits_wr, RegClass.count]

theorem legal_fadd : (infoFadd g b a d).legal seq n = true ↔ seq = false ∧ b.val < n ∧ a.val < n ∧ d.val < n := by
  rw [legal_iff]
  simp [infoFadd, fits_rd, fits_wr, RegClass.count]

theorem legal_sv : (infoSv g a d).legal seq n = true ↔ seq = false ∧ a.val < 18 ∧ d.val < n := by
  rw [legal_iff]
  simp [infoSv, fits_wr, RegClass.count, and_assoc]

theorem legal_pset : (infoPset g a d).legal seq n = true ↔ a.val < 2 ∧ d.val < 8 := by
  rw [legal_iff]
  simp [infoPset, fits_wr, RegClass.count]

end Operands

end Sys2Proof.DecodeChecking

open Sys2Proof Sys2Proof.DecodeChecking

/-- Settles O2: every encoded instruction runs through `gated`, which asks the checks first; and what they ask of an operand is that it fits
its class. -/
theorem decodeChecks : Obligations.DecodeChecks :=
  ⟨fun x s i e f _ hf hcur heng => refuses_exec x s f hf i e hcur heng,
    fun g b a d seq n _ =>
      ⟨legal_add g b a d seq n, legal_add64 g b a d seq n, legal_mulwS32 g b a d seq n, legal_pand g b a d seq n,
        legal_mand g b a d seq n, legal_sadd g b a d seq n, legal_fadd g b a d seq n, legal_sv g a d seq n, legal_pset g a d seq n⟩⟩

end
section
/-! PROOFS. The trap return does not read its frame in the state before it (O25). -/

namespace Sys2Proof.TrapFrame

open Sys2Proof.Machine

/-- A lane of a handler whose g2 to g6 hold, as a frame does, the mask 1 and the program counter 8. -/
def handlerLane : Lane := { Lane.empty with status := .ready, handler := true, regs := [(2, 1), (4, 8)] }

/-- Lane-group 0 of core 0, from the first word of its windows. -/
def corner : Place := { Engine.blank.place with groups := 1 }

/-- A gang in its handler, whose save slot is the window of lane 0 of lane-group 0 of core 0 in the on-chip map. -/
def returning : Engine :=
  { Engine.blank with place := corner, lanes := [(0, handlerLane)], savep := 0x2000000000000000, inHandler := true }

/-- A gang without lanes that has the same window. -/
def neighbour : Engine := { Engine.blank with place := corner }

/-- `tret` at address 0 in lane 0 of engine 0. -/
def tretIssue : Issue := { eng := 0, pc := 0, lanes := 1, away := 0, insn := 0x4000007B, len := 4 }

/-- The gangs listed against the order of their numbers: the neighbour is the first whose window a read finds. -/
def unordered : State :=
  { State.reset with
    cur := some tretIssue
    work := { State.reset.work with engines := [(1, neighbour), (0, returning)] } }

/-- Where lane 0 of an engine stands after an instruction. -/
def pcAfter (o : Out) : Option Word :=
  match o with
  | .next t => (t.engine 0).bind fun e => (e.lanes.find? 0).map Lane.pc
  | _ => none

theorem unordered_issues : unordered.Issues (.tret .always) tretIssue returning :=
  ⟨rfl, rfl, infoTret .always, rfl, by decide +kernel, fun h => absurd h (by decide +kernel)⟩

/-- Before the return the frame's bytes are the neighbour's registers, all 0. -/
theorem readVa_unordered :
    unordered.readVa returning.ctx returning.savep.toNat 64 = some (List.replicate 64 0) := by decide +kernel

/-- The return finds the handler's own registers, for the commit has put its gang in order. -/
theorem pcAfter_tret : pcAfter (exec (.tret .always) unordered) = some 8 := by decide +kernel

theorem returning_executes : returning.Executes tretIssue .always 1 := by
  have h : returning.guarded .always tretIssue.lanes = 1 := by decide +kernel
  exact h ▸ Engine.executes_guarded returning tretIssue .always

end Sys2Proof.TrapFrame

open Sys2Proof Sys2Proof.Machine Sys2Proof.TrapFrame

/-- Refutes O25, in `Spec.TrapReturns`: the statement reads the frame in the state before the return, and the model after the commit, which
rewrites the gang's entry in the list of engines.  `unordered` lists its two gangs against the order of their numbers, and both hold the
window that the save slot lies in; a read takes the first gang listed.  Before the return that is the neighbour, whose frame names no lane,
so lane 0 should go on to 4; after the commit it is the handler's gang itself, whose frame sends lane 0 to 8.  `Store.put` keeps such lists
in order, so the state is not one that a run is meant to reach: the statement lacks the premise that the engines are listed in order. -/
theorem not_trapsAndReturns : ¬ Obligations.TrapsAndReturns := by
  intro h
  obtain ⟨-, -, hreturns⟩ := h
  obtain ⟨-, hhandler⟩ := hreturns .always false unordered tretIssue returning 1 (List.replicate 64 0) unordered_issues
    returning_executes (by decide)
  obtain ⟨t, e', hexec, heng, -, -, -, -, -, -, -, hlanes⟩ := hhandler rfl rfl rfl readVa_unordered (by decide +kernel)
  have hpc : (e'.lanes.find? 0).map Lane.pc = some 8 := by
    have hzero : t.engine 0 = some e' := heng
    have hafter := pcAfter_tret
    change exec (.tret .always) unordered = .next t at hexec
    rw [hexec] at hafter
    simpa only [pcAfter, hzero, Option.bind_some] using hafter
  have hspec : (e'.lanes.find? 0).map Lane.pc = some 4 := by
    rw [hlanes 0]
    decide +kernel
  rw [hspec] at hpc
  exact absurd hpc (by decide)

end
section
/-! PROOFS. Masks, uniform registers and system values (O8). -/

namespace Sys2Proof.GangRegisters

open Sys2Proof.Machine

/-! ## Lane values that come from the gang -/

/-- What retires after the executing lanes have become `op` of themselves: those lanes are `op` of themselves, and all that issued have gone
on. -/
theorem lanesOf_mapLanes_retire {e : Engine} {i : Issue} {g : Guard} {live : Dword} (hl : e.Executes i g live) (f : Info)
    (op : Nat → Lane → Lane) (cyc : Nat) :
    e.LanesOf ((e.mapLanes live op).retire f i live cyc)
      (fun k l => if i.lanes.getLsbD k then (if live.getLsbD k then op k l else l).goneOn i else l) := by
  have hret := Engine.lanesOf_retire e (e.mapLanes live op) f i live cyc
    (fun k l => if live.getLsbD k then op k l else l) rfl (fun k => Engine.find?_mapLanes e live op k)
  refine ⟨hret.rest, fun k => ?_⟩
  rw [hret.lane]
  by_cases hi : i.lanes.getLsbD k = true
  · simp [hi]
  · have hlive : live.getLsbD k = false := by rw [hl k]; simp [hi]
    simp [hi, hlive]

/-- An instruction that writes each executing lane by a function of the lane and of its engine completes in its lanes. -/
theorem completesInLanes_of_mapLanes {x : Instr} {f : Info} (op : Engine → Lane → Lane) (hf : infoOf x = some f)
    (hx : ∀ s, exec x s = gated f s fun i e live =>
      .next (s.setEngine i.eng ((e.mapLanes live fun _ l => op e l).retire f i live s.clock.cyc))) :
    CompletesInLanes x f.guard fun _ e _ _ l => op e l := by
  intro s i e live h hl
  refine ⟨_, (hx s).trans (gated_spec h hf hl _), fun loc hloc => State.setEngine_readHome _ _ _ hloc, ?_⟩
  exact lanesOf_mapLanes_retire hl f (fun _ l => op e l) s.clock.cyc

/-- Where no lane is named, no lane is changed. -/
theorem mapLanes_zero (e : Engine) (op : Nat → Lane → Lane) : e.mapLanes 0 op = e := by
  have hid : ∀ m : Store Lane, (m.mapKV fun k l => if (0 : Dword).getLsbD k then op k l else l) = m := by
    intro m
    induction m with
    | nil => rfl
    | cons x t ih => obtain ⟨k, l⟩ := x; simp_all [Store.mapKV]
  rw [Engine.mapLanes, hid]

theorem mget_completes (g : Guard) (a d : Fin 64) :
    CompletesInLanes (.mget g a d) g fun _ e _ _ l => l.setPair d (e.mask a) :=
  completesInLanes_of_mapLanes (f := infoMget g a d) (fun e l => l.setPair d (e.mask a)) rfl fun _ => rfl

theorem s2g_completes (g : Guard) (a d : Fin 64) :
    CompletesInLanes (.s2g g a d) g fun _ e _ _ l => l.setReg d (e.sreg a) := by
  refine completesInLanes_of_mapLanes (f := infoS2g g a d) (fun e l => l.setReg d (e.sreg a)) rfl fun s => ?_
  have hop : ∀ (e : Engine) (live : Dword), (if live = 0 then e else e.setAll live d (e.sreg a)) =
      e.mapLanes live fun _ l => l.setReg d (e.sreg a) := by
    intro e live
    split
    · next h => rw [h, mapLanes_zero]
    · rfl
  change once (infoS2g g a d) s (fun e live => e.setAll live d (e.sreg a)) = _
  simp only [once, hop]

/-! ## Gang-wide registers -/

/-- A gang instruction that some lane executes changes its engine by its operation. -/
theorem once_run {x : Instr} {f : Info} {s : State} {i : Issue} {e : Engine} {live : Dword} {op : Engine → Dword → Engine}
    (h : s.Issues x i e) (hf : infoOf x = some f) (hl : e.Executes i f.guard live) (hlive : live ≠ 0) (hx : exec x s = once f s op) :
    exec x s = .next (s.setEngine i.eng ((op e live).retire f i live s.clock.cyc)) := by
  rw [hx, once, gated_spec h hf hl, if_neg hlive]
  rfl

/-- `retire` leaves the mask registers. -/
@[simp] theorem mask_retire (e : Engine) (f : Info) (i : Issue) (live : Dword) (cyc r : Nat) :
    (e.retire f i live cyc).mask r = e.mask r := by
  unfold Engine.retire
  dsimp only
  split <;> rfl

/-- The mask made of those lanes of a mask that meet a test. -/
theorem getLsbD_listMask_lanesOf (e : Engine) (live : Dword) (p : Lane → Bool) (k : Nat)
    (hfound : live.getLsbD k = true → (e.lanes.find? k).isSome = true) :
    (listMask ((e.lanesOf live).filterMap fun kl => if p kl.2 then some kl.1 else none)).getLsbD k =
      (live.getLsbD k && p (e.lane k)) := by
  by_cases hk : k < 64
  · rw [getLsbD_listMask _ _ hk, Bool.eq_iff_iff]
    simp only [List.contains_iff_mem, List.mem_filterMap, Prod.exists, Engine.mem_lanesOf, Bool.and_eq_true, Option.ite_none_right_eq_some,
      Option.some.injEq]
    constructor
    · rintro ⟨j, l, ⟨hj, hfind⟩, hp, rfl⟩
      exact ⟨hj, by simpa [Engine.lane, hfind] using hp⟩
    · rintro ⟨hlive, hp⟩
      obtain ⟨l, hfind⟩ := Option.isSome_iff_exists.mp (hfound hlive)
      exact ⟨k, l, ⟨hlive, hfind⟩, by simpa [Engine.lane, hfind] using hp, rfl⟩
  · simp [BitVec.getLsbD_of_ge _ _ (Nat.not_lt.mp hk)]

/-- A lane that executes an instruction has issued it. -/
theorem issued_of_executes {e : Engine} {i : Issue} {g : Guard} {live : Dword} (hl : e.Executes i g live) {k : Nat}
    (hk : live.getLsbD k = true) : i.lanes.getLsbD k = true :=
  (Bool.and_eq_true_iff.mp ((hl k).symm.trans hk)).1

/-- A lane that executes an instruction stands in its engine. -/
theorem isSome_of_executes {e : Engine} {i : Issue} {g : Guard} {live : Dword} (hl : e.Executes i g live) {k : Nat}
    (hk : live.getLsbD k = true) : (e.lanes.find? k).isSome = true := by
  have h := hl k
  rw [hk] at h
  cases hfind : e.lanes.find? k with
  | none => simp [hfind] at h
  | some l => rfl

theorem mfromp_writes (g : Guard) (a d : Fin 64) (s : State) (i : Issue) (e : Engine) (live : Dword) (h : s.Issues (.mfromp g a d) i e)
    (hl : e.Executes i g live) (hlive : live ≠ 0) :
    ∃ e', exec (.mfromp g a d) s = .next (s.setEngine i.eng e') ∧
      ∀ k, (e'.mask d).getLsbD k = (live.getLsbD k && (e.lane k).pred a) := by
  have hexec : exec (.mfromp g a d) s = once (infoMfromp g a d) s fun e live =>
      e.setMask d (listMask ((e.lanesOf live).filterMap fun kl => if kl.2.pred a then some kl.1 else none)) := rfl
  refine ⟨_, once_run h rfl hl hlive hexec, fun k => ?_⟩
  rw [mask_retire, Engine.mask_setMask_self]
  exact getLsbD_listMask_lanesOf e live (fun l => l.pred a) k (isSome_of_executes hl)

/-- The lowest lane of a mask, as a gang instruction reads it. -/
theorem low_eq {e : Engine} {live : Dword} {k : Nat} {l : Lane} (hk : live.getLsbD k = true)
    (hmin : ∀ j, j < k → live.getLsbD j = false) (hfind : e.lanes.find? k = some l) : e.low live = l := by
  have hfirst := Transfers.find?_lanesOf (p := fun _ => true) hk hfind rfl fun j _ hj hlive => by simp [hmin j hj] at hlive
  have hlow : e.lowest live = k := by
    unfold Engine.lowest
    cases hlanes : e.lanesOf live with
    | nil => simp [hlanes] at hfirst
    | cons kl rest => simp_all
  rw [Engine.low, hlow, Engine.lane, hfind]
  rfl

theorem g2s_writes (g : Guard) (a d : Fin 64) (s : State) (i : Issue) (e : Engine) (live : Dword) (k : Nat) (l : Lane)
    (h : s.Issues (.g2s g a d) i e) (hl : e.Executes i g live) (hk : live.getLsbD k = true)
    (hmin : ∀ j, j < k → live.getLsbD j = false) (hfind : e.lanes.find? k = some l) :
    ∃ e', exec (.g2s g a d) s = .next (s.setEngine i.eng e') ∧ s.sameMemory (s.setEngine i.eng e') ∧
      (e.setSreg d (l.reg a)).LanesOf e' (fun k l => if i.lanes.getLsbD k then l.goneOn i else l) := by
  have hlive : live ≠ 0 := by rintro rfl; simp at hk
  obtain ⟨e', hexec, hmem, hlanes⟩ := once_completes (x := .g2s g a d) (infoG2s g a d)
    (fun e live => e.setSreg d ((e.low live).reg a)) rfl rfl (fun _ => rfl) s i e live h hl
  rw [if_neg hlive] at hlanes
  exact ⟨e', hexec, hmem, low_eq hk hmin hfind ▸ hlanes⟩

/-! ## System values -/

theorem svLatch_mapLanes (s : State) (e : Engine) (m : Dword) (op : Nat → Lane → Lane) (a : Nat) :
    svLatch s (e.mapLanes m op) a = (svLatch s e a).mapLanes m op := by
  unfold svLatch
  split <;> rfl

@[simp] theorem svLatch_lanes (s : State) (e : Engine) (a : Nat) : (svLatch s e a).lanes = e.lanes := by
  unfold svLatch
  split <;> rfl

/-- The latches of R83: a read of a low half changes its own latch only. -/
theorem svLatch_eq (s : State) (e : Engine) (a : Fin 64) : svLatch s e a =
    { e with
      cycHi := if a = 12 then some (BitVec.ofNat 32 (s.clock.cyc / 2 ^ 32)) else e.cycHi
      ptimeHi := if a = 14 then some (BitVec.ofNat 32 (s.clock.ptime / 2 ^ 32)) else e.ptimeHi } := by
  by_cases h12 : a = 12
  · subst h12; rfl
  · by_cases h14 : a = 14
    · subst h14; rfl
    · rw [if_neg h12, if_neg h14]
      unfold svLatch
      split
      · next h => exact absurd (Fin.ext h) h12
      · next h => exact absurd (Fin.ext h) h14
      · rfl

/-- Codes 1 to 6: the components of the lane's thread in its block and of its block in its launch's grid (R105, R225). -/
theorem svValue_identity {s : State} {l : Lane} {la : Launch} (e : Engine) (k : Nat) (hla : s.launchOf l.launch = some la) (a : Fin 64) :
    (a = 1 → svValue s e k l a = l.thread % la.block.1) ∧ (a = 2 → svValue s e k l a = l.thread / la.block.1 % la.block.2.1) ∧
      (a = 3 → svValue s e k l a = l.thread / (la.block.1 * la.block.2.1)) ∧ (a = 4 → svValue s e k l a = l.block % la.grid.1) ∧
      (a = 5 → svValue s e k l a = l.block / la.grid.1 % la.grid.2.1) ∧
      (a = 6 → svValue s e k l a = l.block / (la.grid.1 * la.grid.2.1)) := by
  refine ⟨?_, ?_, ?_, ?_, ?_, ?_⟩
  all_goals
    rintro rfl
    simp [svValue, hla, component]

/-- `sv` writes its value in the lanes that execute it, in an engine that differs by the latches only. -/
theorem sv_completes {g : Guard} {a d : Fin 64} {s : State} {i : Issue} {e : Engine} {live : Dword} (h : s.Issues (.sv g a d) i e)
    (hl : e.Executes i g live) (hlive : live ≠ 0) :
    ∃ e', exec (.sv g a d) s = .next (s.setEngine i.eng e') ∧ (svLatch s e a).LanesOf e' (fun k l => if i.lanes.getLsbD k then
      (if live.getLsbD k then l.setReg d (BitVec.ofNat 32 (svValue s e k l a)) else l).goneOn i else l) := by
  refine ⟨(svLatch s (e.mapLanes live fun k l => l.setReg d (BitVec.ofNat 32 (svValue s e k l a))) a).retire (infoSv g a d) i live
    s.clock.cyc, ?_, ?_⟩
  · change execSv g a d s = _
    rw [execSv, gated_spec h rfl hl]
    simp only [if_neg hlive]
    rfl
  rw [svLatch_mapLanes]
  refine lanesOf_mapLanes_retire (g := g) (fun k => ?_) _ _ _
  rw [svLatch_lanes, hl k]

/-! ## The statement's two parts -/

theorem masksAndUniformRegisters : Spec.MasksAndUniformRegisters := fun g b a d =>
  ⟨once_completes (infoMset g a d) (fun e _ => e.setMask d (e.sreg (a + 1) ++ e.sreg a)) rfl rfl fun _ => rfl,
    mget_completes g a d,
    once_completes (infoMand g b a d) (fun e _ => e.setMask d (e.mask a &&& e.mask b)) rfl rfl fun _ => rfl,
    once_completes (infoMor g b a d) (fun e _ => e.setMask d (e.mask a ||| e.mask b)) rfl rfl fun _ => rfl,
    mfromp_writes g a d,
    once_completes (infoSadd g b a d) (uni2 (fun x y => x + y) a b d) rfl rfl fun _ => rfl,
    once_completes (infoSsub g b a d) (uni2 (fun x y => x - y) a b d) rfl rfl fun _ => rfl,
    once_completes (infoSand g b a d) (uni2 (fun x y => x &&& y) a b d) rfl rfl fun _ => rfl,
    once_completes (infoSor g b a d) (uni2 (fun x y => x ||| y) a b d) rfl rfl fun _ => rfl,
    once_completes (infoSshl g b a d) (uni2 (fun x y => x <<< (y.toNat % 32)) a b d) rfl rfl fun _ => rfl,
    once_completes (infoSshr g b a d) (uni2 (fun x y => x >>> (y.toNat % 32)) a b d) rfl rfl fun _ => rfl,
    s2g_completes g a d, g2s_writes g a d⟩

theorem systemValues : Spec.SystemValues := by
  intro g a d s i e live h hl hlive
  obtain ⟨e', hexec, hrest, hlane⟩ := sv_completes h hl hlive
  refine ⟨e', hexec, fun loc hloc => State.setEngine_readHome _ _ _ hloc, fun k l hk hfind => ⟨svValue s e k l a, ?_, ?_⟩, fun k hk => ?_, ?_⟩
  · simp [hlane, hfind, hk, issued_of_executes hl hk]
  · refine ⟨?lane, ?width, ?core, ?cluster, ?die, ?cyc, ?cycLatched, ?cycHigh, ?ptime, ?ptimeLatched, ?ptimeHigh, ?launch, ?haltPend,
      fun la hla => svValue_identity e k hla a, ?gang⟩
    all_goals rintro rfl
    case cycLatched | ptimeLatched =>
      intro w hw
      simp [svValue, hw]
    case cycHigh | ptimeHigh =>
      intro hnone
      simp [svValue, hnone]
    case gang =>
      intro hblock
      simp [svValue, Option.isNone_eq_false_iff.mpr hblock]
    all_goals rfl
  · simp [hlane, hk]
  · rw [hrest, svLatch_eq]
    rfl

end Sys2Proof.GangRegisters

open Sys2Proof Sys2Proof.GangRegisters

/-- Settles O8: a mask or a uniform register is written by `once`; `mget` and `s2g` map the lanes by a value of their engine; `g2s` reads the
lowest lane that executes it; and `sv` maps the lanes of the engine that has latched. -/
theorem gangRegistersAndSystemValues : Obligations.GangRegistersAndSystemValues :=
  ⟨masksAndUniformRegisters, systemValues⟩

end
section
/-! PROOFS. A RECALL leaves a proxy entry that is offered (O49). -/

namespace Sys2Proof.OfferedProxy

open Sys2Proof.Machine

/-- Die 0's proxy entry for entry 0: a lease runs and nothing holds it, but it is marked as offered. -/
def offeredProxy : Proxy :=
  { Proxy.fresh 0 none 0 with expiry := some 1, offered := true }

/-- RECALL of object 0 from die 0 of package 0 to itself. -/
def recallMessage : OwnMsg :=
  { type := 9, status := 0, tag := 0, srcPkg := 0, srcDie := 0, dstPkg := 0, dstDie := 0, obj := 0, version := 0, lease := 0, key := 0 }

/-- The device after reset, with that proxy entry. -/
def proxied : State := { State.reset with own := { Own.reset with proxies := [offeredProxy] } }

/-- Die 0's proxy entry for entry 0 after an event. -/
def proxyAfter (o : Out) : Option Proxy :=
  match o with
  | .next t => t.proxyOf 0 none 0
  | _ => none

/-- LRETURN ends the lease, and the entry stands on as an offered one. -/
theorem proxyAfter_recall : proxyAfter (exec (.recall recallMessage) proxied) = some { offeredProxy with expiry := none } := by decide +kernel

end Sys2Proof.OfferedProxy

open Sys2Proof Sys2Proof.Machine Sys2Proof.OfferedProxy

/-- Refutes O49, in `Spec.OwnershipMessages`: the statement says that a RECALL at a proxy entry of this package with a lease, no holder and no
exclusive borrow frees the entry, and leaves open whether the entry is offered.  `State.setProxy` keeps an offered entry, so in `proxied` the
RECALL ends the lease and the entry stays.  Only a `give` of an object of another package sets the mark, so the state is not one that a run is
meant to reach: the statement lacks the premise that the entry is not offered. -/
theorem not_borrowsBetweenDies : ¬ Obligations.BorrowsBetweenDies := by
  intro h
  obtain ⟨-, hmessages, -⟩ := h
  obtain ⟨-, -, -, -, hinner, -⟩ := hmessages proxied recallMessage
  obtain ⟨-, hrecall⟩ := hinner rfl rfl
  obtain ⟨t, a, hexec, -, hfreed, -⟩ := hrecall offeredProxy (by decide +kernel) (by decide) rfl rfl rfl rfl rfl
  have hkept := proxyAfter_recall
  rw [hexec] at hkept
  change t.proxyOf 0 none 0 = _ at hkept
  change t.proxyOf 0 none 0 = none at hfreed
  rw [hfreed] at hkept
  exact absurd hkept (by simp)

end
section
/-! PROOFS. The choice of issues believes the decoded words that it is given (O55). -/

namespace Sys2Proof.MisreadWords

open Sys2Proof.Machine

/-- The one lane of a stream at address 0, whose last-page register maps that address to location 0. -/
def streamLane : Lane :=
  { Lane.empty with
    status := .ready
    lastPage := some { ctx := 0, vpage := 0, size := 4096, frame := 0, read := true, write := true, exec := true } }

/-- The stream of cluster 0, with the core number 1 in its place. -/
def stream : Engine :=
  { Engine.blank with kind := .seq, place := { Engine.blank.place with core := 1 }, lanes := [(0, streamLane)] }

/-- What the state takes the words at address 0 for: a special function that a sequencer accepts. -/
def misread : Instr × Info := (.rcp .always 0 0, { lat := .sfu })

/-- The device after reset with that stream, its words at hand, and eight instructions in the SFU queue of core 1. -/
def crowded : State :=
  { State.reset with
    ctxs := { Contexts.reset with table := [(0, placedContext)] }
    mem := { Mem.reset with icache := [(512, 0)] }
    work := { Work.reset with engines := [(0, stream)], sfu := [(1, List.replicate 8 1)] }
    decoded := [(0, some misread)] }

/-- The instructions that an SFU queue holds in a state. -/
def sfuHeld (s : State) (core : Nat) : Nat := ((Store.get [] s.work.sfu core).filter fun c => decide (s.clock.cyc < c)).length

/-- The same after an event. -/
def sfuHeldAfter (o : Out) (core : Nat) : Nat :=
  match o with
  | .next t => sfuHeld t core
  | _ => 0

/-- The stream is judged at the queue of core 0, which is empty, and its instruction enters the queue of core 1. -/
theorem sfuHeldAfter_issueArbitration : sfuHeldAfter (exec .issueArbitration crowded) 1 = 9 := by decide +kernel

end Sys2Proof.MisreadWords

open Sys2Proof Sys2Proof.Machine Sys2Proof.MisreadWords

/-- Refutes O55, in the bound of the SFU queues: the statement takes the decoded words of the state as they stand, and the choice believes
them.  `crowded` takes the word 0 for a special function that a sequencer accepts, which `infoOf` says of no instruction.  A sequencer's
instruction is judged at the queue of its cluster's core 0, and enters the queue of the core that its place names: that of core 1, which holds
eight instructions, takes a ninth.  `State.predecode` decodes the words anew before each choice, so the state is not one in which a run is
meant to choose: the statement lacks the premise that what is listed for a word is what the word decodes to. -/
theorem not_issueArbitration : ¬ Obligations.IssueArbitration := by
  intro h
  obtain ⟨t, hexec, -, -, -, -, hqueues, -⟩ := h crowded (by decide +kernel)
  have hsfu : sfuHeld crowded 1 ≤ 8 → sfuHeld t 1 ≤ 8 := (hqueues 1).1
  have hheld := sfuHeldAfter_issueArbitration
  rw [hexec] at hheld
  change sfuHeld t 1 = 9 at hheld
  have hfull : sfuHeld crowded 1 ≤ 8 := by decide +kernel
  have hbound := hsfu hfull
  omega

end

section
/-! PROOFS. Integer, logic, shift and bit instructions and the 16-bit forms (O4, O5). -/

namespace Sys2Proof.WordResults
open Sys2Proof.Machine

/-! ## What the word operations of the model compute -/

/-- The value of `v` read from `n` bits is the sign extension of `v` as a number of `n` bits. -/
theorem signFrom_eq_signExtend {n v : Nat} (hv : v < 2 ^ n) : signFrom n v = (BitVec.ofNat n v).signExtend 32 := by
  rw [signFrom, BitVec.signExtend, BitVec.toInt_eq_toNat_cond, BitVec.toNat_ofNat, Nat.mod_eq_of_lt hv]
  push_cast
  rfl

/-- A field's sign extension is a shift up to the sign bit and an arithmetic shift back. -/
theorem signFrom_mod_eq_shifts (x : Word) {n : Nat} (hn : 0 < n) (hn' : n ≤ 32) :
    signFrom n (x.toNat % 2 ^ n) = (x <<< (32 - n)).sshiftRight (32 - n) := by
  rw [signFrom_eq_signExtend (Nat.mod_lt _ (by positivity))]
  have hset : BitVec.ofNat n (x.toNat % 2 ^ n) = x.setWidth n := BitVec.eq_of_toNat_eq (by simp)
  rw [hset]
  ext k hk
  simp only [BitVec.getElem_signExtend, BitVec.getElem_sshiftRight, BitVec.msb_eq_getLsbD_last, BitVec.getLsbD_shiftLeft]
  by_cases h : k < n
  · have h' : 32 - n + k < 32 := by omega
    simp [h, h', BitVec.getLsbD_eq_getElem hk]
  · have h' : ¬ 32 - n + k < 32 := by omega
    have hsign : 31 - (32 - n) = n - 1 := by omega
    simp [h, h', hsign, hn]
    omega

section Arithmetic

variable (x y : Word)

theorem minS_eq_ite : minS x y = if y.slt x then y else x := by
  simp only [minS, BitVec.slt_iff_toInt_lt, ← not_lt, ite_not]

theorem maxS_eq_ite : maxS x y = if y.slt x then x else y := by
  simp only [maxS, BitVec.slt_iff_toInt_lt, ← not_lt, ite_not]

theorem minN_eq_ite : minN x y = if y < x then y else x := by
  simp only [minN, BitVec.lt_def, ← not_lt, ite_not]

theorem maxN_eq_ite : maxN x y = if y < x then x else y := by
  simp only [maxN, BitVec.lt_def, ← not_lt, ite_not]

theorem addc_eq (c : Bool) :
    addc x y c = (x + y + BitVec.ofNat 32 c.toNat, decide (2 ^ 32 ≤ x.toNat + y.toNat + c.toNat)) := by
  simp [addc, addCarry, BitVec.ofNat_add]

theorem ofInt_toInt_mul_toInt : BitVec.ofInt 64 (x.toInt * y.toInt) = x.signExtend 64 * y.signExtend 64 := by
  rw [BitVec.ofInt_mul]; rfl

theorem ofNat_toNat_mul_toNat : BitVec.ofNat 64 (x.toNat * y.toNat) = x.setWidth 64 * y.setWidth 64 := by
  rw [BitVec.ofNat_mul, BitVec.ofNat_toNat, BitVec.ofNat_toNat]

theorem mulHiN_eq : mulHiN x y = ((x.setWidth 64 * y.setWidth 64) >>> 32).setWidth 32 := by
  rw [← ofNat_toNat_mul_toNat]
  apply BitVec.eq_of_toNat_eq
  have := Nat.mul_lt_mul'' x.isLt y.isLt
  simp [mulHiN, Nat.shiftRight_eq_div_pow]
  omega

theorem mulHiS_eq : mulHiS x y = ((x.signExtend 64 * y.signExtend 64) >>> 32).setWidth 32 := by
  rw [← ofInt_toInt_mul_toInt]
  apply BitVec.eq_of_toNat_eq
  simp [mulHiS, Nat.shiftRight_eq_div_pow]
  omega

theorem divS_eq : divS x y = if y = 0 then 0xFFFFFFFF else x.sdiv y := by
  have hdiv : BitVec.ofInt 32 (x.toInt.tdiv y.toInt) = x.sdiv y :=
    BitVec.eq_of_toInt_eq (by rw [BitVec.toInt_sdiv, BitVec.toInt_ofInt])
  rw [divS, hdiv]

theorem divN_eq : divN x y = if y = 0 then 0xFFFFFFFF else x / y := by
  have hdiv : BitVec.ofNat 32 (x.toNat / y.toNat) = x / y := by
    rw [← BitVec.toNat_udiv, BitVec.ofNat_toNat, BitVec.setWidth_eq]
  rw [divN, hdiv]

theorem remS_eq : remS x y = if y = 0 then x else x.srem y := by
  have hrem : BitVec.ofInt 32 (x.toInt - y.toInt * x.toInt.tdiv y.toInt) = x.srem y := by
    rw [← Int.tmod_def, ← BitVec.toInt_srem, BitVec.ofInt_toInt]
  rw [remS, hrem]

theorem remN_eq : remN x y = if y = 0 then x else x % y := by
  have hrem : BitVec.ofNat 32 (x.toNat % y.toNat) = x % y := by
    rw [← BitVec.toNat_umod, BitVec.ofNat_toNat, BitVec.setWidth_eq]
  rw [remN, hrem]

end Arithmetic

/-! ## Fields and bits -/

section Bits

variable (x y : Word)

/-- The ones of a field of a length at most 32. -/
theorem toNat_ofNat_two_pow_sub_one {n : Nat} (hn : n ≤ 32) : (BitVec.ofNat 32 (2 ^ n - 1)).toNat = 2 ^ n - 1 := by
  have hle : 2 ^ n ≤ 2 ^ 32 := Nat.pow_le_pow_right (by decide) hn
  have hpos : 0 < 2 ^ n := Nat.two_pow_pos n
  rw [BitVec.toNat_ofNat, Nat.mod_eq_of_lt (by omega)]

theorem fieldLen_le : fieldLen y ≤ 32 := Nat.min_le_right _ _

theorem bfeN_eq : bfeN x y = (x >>> fieldPos y) &&& BitVec.ofNat 32 (2 ^ fieldLen y - 1) := by
  apply BitVec.eq_of_toNat_eq
  rw [BitVec.toNat_and, BitVec.toNat_ushiftRight, toNat_ofNat_two_pow_sub_one (fieldLen_le y), Nat.and_two_pow_sub_one_eq_mod,
    Nat.shiftRight_eq_div_pow, bfeN, BitVec.toNat_ofNat, Nat.mod_eq_of_lt]
  exact lt_of_le_of_lt (Nat.mod_le _ _) (lt_of_le_of_lt (Nat.div_le_self _ _) x.isLt)

theorem bfeS_eq : bfeS x y =
    if fieldLen y = 0 then 0 else ((x >>> fieldPos y) <<< (32 - fieldLen y)).sshiftRight (32 - fieldLen y) := by
  rw [bfeS]
  split
  · rfl
  · next hlen =>
    rw [← signFrom_mod_eq_shifts _ (Nat.pos_of_ne_zero hlen) (fieldLen_le y), BitVec.toNat_ushiftRight, Nat.shiftRight_eq_div_pow]

theorem bfi_eq (old : Word) : bfi old x y =
    (old &&& ~~~(BitVec.ofNat 32 (2 ^ fieldLen y - 1) <<< fieldPos y)) |||
      ((x <<< fieldPos y) &&& (BitVec.ofNat 32 (2 ^ fieldLen y - 1) <<< fieldPos y)) := by
  have hfield : BitVec.ofNat 32 ((2 ^ fieldLen y - 1) * 2 ^ fieldPos y) = BitVec.ofNat 32 (2 ^ fieldLen y - 1) <<< fieldPos y := by
    apply BitVec.eq_of_toNat_eq
    simp [Nat.shiftLeft_eq]
  rw [bfi, hfield]

theorem sext_eq : sext x y = (x <<< (31 - y.toNat % 32)).sshiftRight (31 - y.toNat % 32) := by
  have hamount : amount y = y.toNat % 32 := rfl
  have hlen : 31 - y.toNat % 32 = 32 - (amount y + 1) := by omega
  rw [hlen, sext, signFrom_mod_eq_shifts x (by omega) (by omega)]

theorem cpopNatRec_eq_length (n : Nat) : x.cpopNatRec n 0 = ((List.range n).filter fun k => x.getLsbD k).length := by
  induction n with
  | zero => rfl
  | succ n ih =>
    rw [BitVec.cpopNatRec_succ, BitVec.cpopNatRec_eq, ih, List.range_succ]
    cases h : x.getLsbD n <;> simp [h]

theorem popc_eq_cpop : popc x = x.cpop := by rw [popc, BitVec.cpop, cpopNatRec_eq_length]

/-- The search for the highest set bit from bit `n` down looks at bit `n` first. -/
theorem find?_down_succ (n : Nat) : ((List.range (n + 1 + 1)).find? fun k => x.getLsbD (n + 1 - k)) =
    if x.getLsbD (n + 1) then some 0 else ((List.range (n + 1)).find? fun k => x.getLsbD (n - k)).map Nat.succ := by
  rw [List.range_succ_eq_map (n := n + 1), List.find?_cons, List.find?_map]
  cases x.getLsbD (n + 1)
  · simp only [Function.comp_def, Nat.succ_eq_add_one, Nat.add_sub_add_right]
    rfl
  · rfl

/-- The zeros that the count of leading zeros finds from bit `n` down are those that the search passes. -/
theorem clzAuxRec_eq_find? {n : Nat} (hn : n < 32) :
    x.clzAuxRec n = BitVec.ofNat 32 ((((List.range (n + 1)).find? fun k => x.getLsbD (n - k)).map (31 - n + ·)).getD 32) := by
  induction n with
  | zero => cases h : x.getLsbD 0 <;> simp_all [BitVec.clzAuxRec_zero]
  | succ n ih =>
    rw [BitVec.clzAuxRec_succ, ih (by omega), find?_down_succ]
    cases x.getLsbD (n + 1)
    · have hshift : ∀ k, 31 - n + k = 31 - (n + 1) + (k + 1) := by omega
      simp [Function.comp_def, hshift]
    · simp

theorem clz_eq : clz x = x.clz := by
  simp [BitVec.clz, clz, clzAuxRec_eq_find?]

theorem ctz_eq : ctz x = x.ctz := by
  have hsearch : ((List.range 32).find? fun k => x.getLsbD k) = (List.range 32).find? fun k => x.reverse.getLsbD (31 - k) := by
    refine List.find?_congr fun k hk => ?_
    have hlt := List.mem_range.mp hk
    have hback : 31 - (31 - k) = k := by omega
    simp [BitVec.getLsbD_reverse, BitVec.getMsbD, hback]
    omega
  rw [BitVec.ctz, ← clz_eq, clz, ctz, hsearch]

theorem toNat_reverse {w : Nat} (v : BitVec w) :
    v.reverse.toNat = ((List.range w).map fun k => if v.getLsbD k then 2 ^ (w - 1 - k) else 0).sum := by
  induction w with
  | zero => simp [BitVec.of_length_zero]
  | succ w ih =>
    have hdouble : ∀ k ∈ List.range w, (if v.getLsbD k then 2 ^ (w + 1 - 1 - k) else 0) =
        2 * (if (v.setWidth w).getLsbD k then 2 ^ (w - 1 - k) else 0) := by
      intro k hk
      have hlt := List.mem_range.mp hk
      have hexp : w - k = (w - 1 - k) + 1 := by omega
      simp [hlt, hexp, pow_succ, mul_comm]
    rw [BitVec.reverse, BitVec.toNat_concat, ih, List.range_succ, List.map_append, List.sum_append, List.map_congr_left hdouble,
      List.sum_map_mul_left]
    cases h : v.getLsbD w <;> simp_all [BitVec.msb_eq_getLsbD_last, mul_comm]

theorem brev_eq_reverse : brev x = x.reverse := by
  rw [brev, ← toNat_reverse, BitVec.ofNat_toNat, BitVec.setWidth_eq]

theorem absW_eq_abs : absW x = x.abs := by
  rw [absW, BitVec.abs_eq, BitVec.msb_eq_toInt]
  simp

theorem movh_eq (n : Nat) :
    BitVec.ofNat 32 (n * 2 ^ 16 + x.toNat % 2 ^ 16) = BitVec.ofNat 16 n ++ x.setWidth 16 := by
  apply BitVec.eq_of_toNat_eq
  rw [BitVec.toNat_append, ← Nat.shiftLeft_add_eq_or_of_lt (BitVec.isLt _)]
  simp [Nat.shiftLeft_eq]
  omega

theorem getLsbD_selector (z : BitVec 4) :
    z.getLsbD 2 = decide (z.toNat / 4 % 2 = 1) ∧ z.getLsbD 3 = decide (z.toNat / 8 = 1) := by
  revert z
  decide

theorem getLsbD_seven_byte (v : BitVec 8) : v.getLsbD 7 = decide (128 ≤ v.toNat) := by
  revert v
  decide

theorem toNat_append_byte {n : Nat} (u : BitVec n) (v : BitVec 8) : (u ++ v).toNat = u.toNat * 256 + v.toNat := by
  rw [BitVec.toNat_append, ← Nat.shiftLeft_add_eq_or_of_lt v.isLt, Nat.shiftLeft_eq]

theorem sum_four_digits (v : Nat → Nat) (b : Nat) :
    ((List.range 4).map fun k => v k * b ^ k).sum = ((v 3 * b + v 2) * b + v 1) * b + v 0 := by
  simp [List.range_succ]
  ring

/-- The byte that a selector picks, by its number. -/
theorem permByte_eq (z : BitVec 4) : permByte x z.toNat = (Spec.permuted x z).toNat := by
  have hpicked : (x.extractLsb' (8 * (z.toNat % 4)) 8).toNat = x.toNat / 256 ^ (z.toNat % 4) % 256 := by
    rw [BitVec.extractLsb'_toNat, Nat.shiftRight_eq_div_pow, pow_mul, show 2 ^ 8 = 256 from rfl]
  obtain ⟨hzero, hfill⟩ := getLsbD_selector z
  simp only [permByte, Spec.permuted, hzero, hfill, getLsbD_seven_byte, hpicked, decide_eq_true_eq]
  split
  · rfl
  · split
    · split <;> rfl
    · exact hpicked.symm

theorem bperm_eq : bperm x y =
    Spec.permuted x (y.extractLsb' (4 * 3) 4) ++ Spec.permuted x (y.extractLsb' (4 * 2) 4) ++
      Spec.permuted x (y.extractLsb' (4 * 1) 4) ++ Spec.permuted x (y.extractLsb' (4 * 0) 4) := by
  have hbyte : ∀ k, permByte x (y.toNat / 16 ^ k % 16) = (Spec.permuted x (y.extractLsb' (4 * k) 4)).toNat := by
    intro k
    rw [← permByte_eq, BitVec.extractLsb'_toNat, Nat.shiftRight_eq_div_pow, pow_mul, show 2 ^ 4 = 16 from rfl]
  apply BitVec.eq_of_toNat_eq
  simp only [bperm, hbyte, toNat_append_byte, BitVec.toNat_ofNat]
  generalize Spec.permuted x = byte
  rw [sum_four_digits, Nat.mod_eq_of_lt]
  have h0 := (byte (y.extractLsb' (4 * 0) 4)).isLt
  have h1 := (byte (y.extractLsb' (4 * 1) 4)).isLt
  have h2 := (byte (y.extractLsb' (4 * 2) 4)).isLt
  have h3 := (byte (y.extractLsb' (4 * 3) 4)).isLt
  omega

end Bits

/-! ## Instructions that write a register, a pair or a predicate of each lane -/

section Writes

variable {x : Instr} {g : Guard} {f : Info} {op : Lane → Lane}

theorem writesReg_of_lanes {d : Nat} {v : Lane → Word} (hf : infoOf x = some f) (hg : f.guard = g)
    (hx : ∀ s, exec x s = lanes f s op) (hop : ∀ l, op l = l.setReg d (v l)) : WritesReg x g d v := by
  obtain rfl : op = fun l => l.setReg d (v l) := funext hop
  exact lanes_completes f _ hf hg hx

theorem writesPair_of_lanes {d : Nat} {v : Lane → Dword} (hf : infoOf x = some f) (hg : f.guard = g)
    (hx : ∀ s, exec x s = lanes f s op) (hop : ∀ l, op l = l.setPair d (v l)) : WritesPair x g d v := by
  obtain rfl : op = fun l => l.setPair d (v l) := funext hop
  exact lanes_completes f _ hf hg hx

theorem writesPred_of_lanes {d : Nat} {v : Lane → Bool} (hf : infoOf x = some f) (hg : f.guard = g)
    (hx : ∀ s, exec x s = lanes f s op) (hop : ∀ l, op l = l.setPred d (v l)) : WritesPred x g d v := by
  obtain rfl : op = fun l => l.setPred d (v l) := funext hop
  exact lanes_completes f _ hf hg hx

end Writes

/-- A float result in a register, which raises its flags. -/
theorem writesFloat_of_lanesFx {x : Instr} {g : Guard} {f : Info} {d : Nat} {v : Engine → Dword → Nat → Lane → FloatRes}
    (hf : infoOf x = some f) (hg : f.guard = g)
    (hx : ∀ s, exec x s = lanesFx f s fun e live k l => (l.setReg d (BitVec.ofNat 32 (v e live k l).code), (v e live k l).flags)) :
    WritesFloat x g d v :=
  lanesFx_completes f _ id (fun _ _ _ => rfl) (fun _ => rfl) hf hg hx

/-! ## The parts of O5 -/

/-- An immediate is the sign extension of its field. -/
theorem imm9_eq (n : Fin 512) : imm9 n = (BitVec.ofNat 9 n).signExtend 32 := signFrom_eq_signExtend n.isLt

theorem imm5_eq (n : Fin 32) : imm5 n = (BitVec.ofNat 5 n).signExtend 32 := signFrom_eq_signExtend n.isLt

theorem integerArithmetic : Spec.IntegerArithmetic := by
  intro g b a d
  refine ⟨?add, ?sub, ?addc, ?subb, ?minS, ?maxS, ?minN, ?maxN, ?mul, ?mulhiS, ?mulhiN, ?mad, ?divS, ?divN, ?remS, ?remN, fun n => ?addi⟩
  case addc =>
    refine lanes_completes (infoAddc g b a d) _ rfl rfl fun s => ?_
    have hop : opCarry addc a b d = fun l => (l.setReg d (l.reg a + l.reg b + BitVec.ofNat 32 (l.pred 7).toNat)).setPred 7
        (decide (2 ^ 32 ≤ (l.reg a).toNat + (l.reg b).toNat + (l.pred 7).toNat)) := by
      funext l
      rw [opCarry, addc_eq]
    exact congrArg (lanes (infoAddc g b a d) s) hop
  case subb => exact lanes_completes (infoSubb g b a d) _ rfl rfl fun _ => rfl
  case addi => exact writesReg_of_lanes rfl rfl (fun _ => rfl) fun l => congrArg (fun w => l.setReg d (l.reg a + w)) (imm9_eq n)
  case minS => exact writesReg_of_lanes rfl rfl (fun _ => rfl) fun l => congrArg (l.setReg d) (minS_eq_ite _ _)
  case maxS => exact writesReg_of_lanes rfl rfl (fun _ => rfl) fun l => congrArg (l.setReg d) (maxS_eq_ite _ _)
  case minN => exact writesReg_of_lanes rfl rfl (fun _ => rfl) fun l => congrArg (l.setReg d) (minN_eq_ite _ _)
  case maxN => exact writesReg_of_lanes rfl rfl (fun _ => rfl) fun l => congrArg (l.setReg d) (maxN_eq_ite _ _)
  case mulhiS => exact writesReg_of_lanes rfl rfl (fun _ => rfl) fun l => congrArg (l.setReg d) (mulHiS_eq _ _)
  case mulhiN => exact writesReg_of_lanes rfl rfl (fun _ => rfl) fun l => congrArg (l.setReg d) (mulHiN_eq _ _)
  case divS => exact writesReg_of_lanes rfl rfl (fun _ => rfl) fun l => congrArg (l.setReg d) (divS_eq _ _)
  case divN => exact writesReg_of_lanes rfl rfl (fun _ => rfl) fun l => congrArg (l.setReg d) (divN_eq _ _)
  case remS => exact writesReg_of_lanes rfl rfl (fun _ => rfl) fun l => congrArg (l.setReg d) (remS_eq _ _)
  case remN => exact writesReg_of_lanes rfl rfl (fun _ => rfl) fun l => congrArg (l.setReg d) (remN_eq _ _)
  all_goals exact writesReg_of_lanes rfl rfl (fun _ => rfl) fun _ => rfl

theorem wideArithmetic : Spec.WideArithmetic := by
  intro g b a d
  refine ⟨?_, ?_, ?_, ?mulwS, ?mulwN, ?_, ?_, ?_⟩
  case mulwS => exact writesPair_of_lanes rfl rfl (fun _ => rfl) fun l => congrArg (l.setPair d) (ofInt_toInt_mul_toInt _ _)
  case mulwN => exact writesPair_of_lanes rfl rfl (fun _ => rfl) fun l => congrArg (l.setPair d) (ofNat_toNat_mul_toNat _ _)
  all_goals exact writesPair_of_lanes rfl rfl (fun _ => rfl) fun _ => rfl

theorem sixteenBitForms : Spec.SixteenBitForms := by
  intro s d
  refine ⟨?_, ?_, ?_, ?_, ?_, ?_, ?_, ?_, ?_, ?movi5, ?addi5, ?fadd, ?fsub, ?fmul, ?fmin, ?fmax⟩
  case movi5 => exact writesReg_of_lanes rfl rfl (fun _ => rfl) fun l => congrArg (l.setReg d) (imm5_eq s)
  case addi5 => exact writesReg_of_lanes rfl rfl (fun _ => rfl) fun l => congrArg (fun w => l.setReg d (l.reg d + w)) (imm5_eq s)
  case fadd | fsub | fmul | fmin | fmax => exact writesFloat_of_lanesFx rfl rfl fun _ => rfl
  all_goals exact writesReg_of_lanes rfl rfl (fun _ => rfl) fun _ => rfl

end Sys2Proof.WordResults

open Sys2Proof Sys2Proof.Machine Sys2Proof.WordResults

/-- Settles O4: each instruction is a `lanes` form whose operation on words is, by the lemmas above, the one that its rule names. -/
theorem logicShiftsAndBits : Obligations.LogicShiftsAndBits := by
  intro g b a d
  refine ⟨?_, ?_, ?_, ?_, ?_, ?_, ?_, ?_, ?_, ?_, ?_, ?_, ?_, ?bfeN, ?bfeS, ?bfi, ?popc, ?clz, ?ctz, ?brev, ?bperm, ?abs, ?neg, ?sext,
    fun n => ⟨?_, ?_, ?_, ?_⟩, fun n r => ⟨?_, ?movh⟩⟩
  case bfeN => exact writesReg_of_lanes rfl rfl (fun _ => rfl) fun l => congrArg (l.setReg d) (bfeN_eq _ _)
  case bfeS => exact writesReg_of_lanes rfl rfl (fun _ => rfl) fun l => congrArg (l.setReg d) (bfeS_eq _ _)
  case bfi => exact writesReg_of_lanes rfl rfl (fun _ => rfl) fun l => congrArg (l.setReg d) (bfi_eq _ _ _)
  case popc => exact writesReg_of_lanes rfl rfl (fun _ => rfl) fun l => congrArg (l.setReg d) (popc_eq_cpop _)
  case clz => exact writesReg_of_lanes rfl rfl (fun _ => rfl) fun l => congrArg (l.setReg d) (clz_eq _)
  case ctz => exact writesReg_of_lanes rfl rfl (fun _ => rfl) fun l => congrArg (l.setReg d) (ctz_eq _)
  case brev => exact writesReg_of_lanes rfl rfl (fun _ => rfl) fun l => congrArg (l.setReg d) (brev_eq_reverse _)
  case bperm => exact writesReg_of_lanes rfl rfl (fun _ => rfl) fun l => congrArg (l.setReg d) (bperm_eq _ _)
  case abs => exact writesReg_of_lanes rfl rfl (fun _ => rfl) fun l => congrArg (l.setReg d) (absW_eq_abs _)
  case neg => exact writesReg_of_lanes rfl rfl (fun _ => rfl) fun l => congrArg (l.setReg d) (BitVec.zero_sub _).symm
  case sext => exact writesReg_of_lanes rfl rfl (fun _ => rfl) fun l => congrArg (l.setReg d) (sext_eq _ _)
  case movh => exact writesReg_of_lanes rfl rfl (fun _ => rfl) fun l => congrArg (l.setReg r) (movh_eq _ _)
  all_goals exact writesReg_of_lanes rfl rfl (fun _ => rfl) fun _ => rfl

/-- Settles O5: the same for the arithmetic of words and pairs; the 16-bit forms are the forms of the 32-bit operations on D, D and S. -/
theorem integerInstructions : Obligations.IntegerInstructions := ⟨integerArithmetic, wideArithmetic, sixteenBitForms⟩

end

section
/-! PROOFS. Integer compares, predicates and flags (O6, O7). -/

namespace Sys2Proof.CompareResults
open Sys2Proof.Machine Sys2Proof.WordResults

/-! ## Conditions on the order of two values -/

theorem combine_eq_combined : ∀ (c : Fin 4) (old new : Bool), combine c old new = Spec.combined c old new := by decide

section Conditions

variable {α : Type} [LinearOrder α] (x y : α)

theorem compare_beq_eq : (compare x y == .eq) = decide (x = y) := by
  rw [Bool.eq_iff_iff, beq_iff_eq, compare_eq_iff_eq, decide_eq_true_eq]

theorem compare_beq_lt : (compare x y == .lt) = decide (x < y) := by
  rw [Bool.eq_iff_iff, beq_iff_eq, compare_lt_iff_lt, decide_eq_true_eq]

theorem compare_bne_gt : (compare x y != .gt) = decide (x ≤ y) := by
  rw [Bool.eq_iff_iff, bne_iff_ne, compare_le_iff_le, decide_eq_true_eq]

theorem compare_beq_gt : (compare x y == .gt) = decide (y < x) := by
  rw [Bool.eq_iff_iff, beq_iff_eq, compare_gt_iff_gt, decide_eq_true_eq]

theorem compare_bne_lt : (compare x y != .lt) = decide (y ≤ x) := by
  rw [Bool.eq_iff_iff, bne_iff_ne, compare_ge_iff_ge, decide_eq_true_eq]

end Conditions

/-- A compare writes the combination of its predicate with its condition. -/
theorem writesPred_of_icmp {x : Instr} {g : Guard} {f : Info} {cond : Nat} {signed : Bool} {c : Fin 4} {a b : Fin 64} {p : Fin 8}
    {v : Lane → Bool} (hf : infoOf x = some f) (hg : f.guard = g) (hx : ∀ s, exec x s = lanes f s (icmp cond c signed a b p))
    (hv : ∀ l : Lane, condHolds cond (intOrder signed (l.reg a) (l.reg b)) = v l) :
    WritesPred x g p fun l => Spec.combined c (l.pred p) (v l) :=
  writesPred_of_lanes hf hg hx fun l => by rw [icmp, hv, combine_eq_combined]

section Words

variable (x y : Word)

theorem condHolds_eq : condHolds 0 (intOrder false x y) = (x == y) := by
  refine (compare_beq_eq x.toNat y.toNat).trans ?_
  rw [Bool.eq_iff_iff, decide_eq_true_eq, BitVec.toNat_inj, beq_iff_eq]

theorem condHolds_ne : condHolds 1 (intOrder false x y) = (x != y) := congrArg not (condHolds_eq x y)

theorem condHolds_lt_signed : condHolds 2 (intOrder true x y) = x.slt y := compare_beq_lt x.toInt y.toInt
theorem condHolds_le_signed : condHolds 3 (intOrder true x y) = x.sle y := compare_bne_gt x.toInt y.toInt
theorem condHolds_gt_signed : condHolds 4 (intOrder true x y) = y.slt x := compare_beq_gt x.toInt y.toInt
theorem condHolds_ge_signed : condHolds 5 (intOrder true x y) = y.sle x := compare_bne_lt x.toInt y.toInt
theorem condHolds_lt_unsigned : condHolds 2 (intOrder false x y) = x.ult y := compare_beq_lt x.toNat y.toNat
theorem condHolds_le_unsigned : condHolds 3 (intOrder false x y) = x.ule y := compare_bne_gt x.toNat y.toNat
theorem condHolds_gt_unsigned : condHolds 4 (intOrder false x y) = y.ult x := compare_beq_gt x.toNat y.toNat
theorem condHolds_ge_unsigned : condHolds 5 (intOrder false x y) = y.ule x := compare_bne_lt x.toNat y.toNat

end Words

theorem integerCompares (g : Guard) (b a : Fin 64) (c : Fin 4) (p : Fin 8) :
    WritesPred (.icmpEq g c b a p) g p (fun l => Spec.combined c (l.pred p) (l.reg a == l.reg b)) ∧
    WritesPred (.icmpNe g c b a p) g p (fun l => Spec.combined c (l.pred p) (l.reg a != l.reg b)) ∧
    WritesPred (.icmpLt g c 1 b a p) g p (fun l => Spec.combined c (l.pred p) ((l.reg a).slt (l.reg b))) ∧
    WritesPred (.icmpLe g c 1 b a p) g p (fun l => Spec.combined c (l.pred p) ((l.reg a).sle (l.reg b))) ∧
    WritesPred (.icmpGt g c 1 b a p) g p (fun l => Spec.combined c (l.pred p) ((l.reg b).slt (l.reg a))) ∧
    WritesPred (.icmpGe g c 1 b a p) g p (fun l => Spec.combined c (l.pred p) ((l.reg b).sle (l.reg a))) ∧
    WritesPred (.icmpLt g c 0 b a p) g p (fun l => Spec.combined c (l.pred p) ((l.reg a).ult (l.reg b))) ∧
    WritesPred (.icmpLe g c 0 b a p) g p (fun l => Spec.combined c (l.pred p) ((l.reg a).ule (l.reg b))) ∧
    WritesPred (.icmpGt g c 0 b a p) g p (fun l => Spec.combined c (l.pred p) ((l.reg b).ult (l.reg a))) ∧
    WritesPred (.icmpGe g c 0 b a p) g p (fun l => Spec.combined c (l.pred p) ((l.reg b).ule (l.reg a))) :=
  ⟨writesPred_of_icmp rfl rfl (fun _ => rfl) fun _ => condHolds_eq _ _,
    writesPred_of_icmp rfl rfl (fun _ => rfl) fun _ => condHolds_ne _ _,
    writesPred_of_icmp rfl rfl (fun _ => rfl) fun _ => condHolds_lt_signed _ _,
    writesPred_of_icmp rfl rfl (fun _ => rfl) fun _ => condHolds_le_signed _ _,
    writesPred_of_icmp rfl rfl (fun _ => rfl) fun _ => condHolds_gt_signed _ _,
    writesPred_of_icmp rfl rfl (fun _ => rfl) fun _ => condHolds_ge_signed _ _,
    writesPred_of_icmp rfl rfl (fun _ => rfl) fun _ => condHolds_lt_unsigned _ _,
    writesPred_of_icmp rfl rfl (fun _ => rfl) fun _ => condHolds_le_unsigned _ _,
    writesPred_of_icmp rfl rfl (fun _ => rfl) fun _ => condHolds_gt_unsigned _ _,
    writesPred_of_icmp rfl rfl (fun _ => rfl) fun _ => condHolds_ge_unsigned _ _⟩

/-! ## Predicates in a register -/

/-- The word that p2g makes of the predicates, bit by bit. -/
theorem predsWord_eq (l : Lane) :
    BitVec.ofNat 32 (l.preds.toNat / 2 * 2 + 1) = (BitVec.ofBoolListLE ((List.range 8).map l.pred)).setWidth 32 := by
  have hall : ∀ v : BitVec 8, BitVec.ofNat 32 (v.toNat / 2 * 2 + 1) =
      (BitVec.ofBoolListLE ((List.range 8).map fun p => p == 0 || v.getLsbD p)).setWidth 32 := by decide +kernel
  exact hall l.preds

/-- The predicates that g2p reads are the bits of the word. -/
theorem pred_of_word (l : Lane) (w : Word) {p : Nat} (hpos : 0 < p) (hlt : p < 8) :
    ({ l with preds := w.setWidth 8 ||| 1 } : Lane).pred p = w.getLsbD p := by
  have hp : p ≠ 0 := hpos.ne'
  have hone : (1 : BitVec 8).getLsbD p = false := by simp [BitVec.getLsbD_one, hp]
  simp only [Lane.pred, BitVec.getLsbD_or, BitVec.getLsbD_setWidth, hone]
  simp [hp, hlt]

end Sys2Proof.CompareResults

open Sys2Proof Sys2Proof.Machine Sys2Proof.WordResults Sys2Proof.CompareResults

/-- Settles O6: a condition on the order of two words is the comparison that its rule names, and the predicates of a lane are the bits of a
byte whose lowest bit reads 1. -/
theorem comparesAndPredicates : Obligations.ComparesAndPredicates := by
  intro g b a d
  refine ⟨integerCompares g b a, ?_, ?_, ?pxor, ?_, ?_, ?pset, ?p2g, fun p hpos hlt => ⟨?g2p, fun l => pred_of_word l (l.reg a) hpos hlt⟩⟩
  case p2g => exact writesReg_of_lanes rfl rfl (fun _ => rfl) fun l => congrArg (l.setReg d) (predsWord_eq l)
  case g2p => exact lanes_completes (infoG2p g a) _ rfl rfl fun _ => rfl
  all_goals exact writesPred_of_lanes rfl rfl (fun _ => rfl) fun _ => rfl

/-- Settles O7: each is a `lanes` form, and `fxtest` writes a register of the class of predicates, which has eight. -/
theorem flagInstructions : Obligations.FlagInstructions := by
  intro g b a d
  refine ⟨?_, ?_, ?_, ?_, ?_, rfl, rfl, rfl, rfl, rfl, rfl⟩
  · exact writesReg_of_lanes rfl rfl (fun _ => rfl) fun _ => rfl
  · exact lanes_completes (infoFxclr g b) _ rfl rfl fun _ => rfl
  · exact lanes_completes (infoFxor g a) _ rfl rfl fun _ => rfl
  · refine writesPred_of_lanes rfl rfl (fun _ => rfl) fun l => congrArg (l.setPred d) ?_
    rw [Bool.eq_iff_iff, bne_iff_ne, decide_eq_true_eq]
  · intro hd seq n
    refine Bool.eq_false_iff.mpr fun hlegal => ?_
    obtain ⟨-, hfits⟩ := (DecodeChecking.legal_iff (infoFxtest g b d) seq n).mp hlegal
    have hlt : d.val < 8 := (DecodeChecking.fits_wr .p d n).mp (hfits _ (List.mem_singleton_self _))
    omega

end

section
/-! PROOFS. Minimum, maximum and compares of floating-point values (O12). -/

namespace Sys2Proof.FloatOrdering
open Sys2Proof.Machine Sys2Proof.CompareResults

/-! ## The order of codes is the order of the values that they denote (R15, R16) -/

section Format

variable {f : FloatFmt}

/-- A code's magnitude with its sign, as `FloatFmt.compare` reads it: −0 and +0 are both 0. -/
def signedMag (f : FloatFmt) (code : Nat) : Int :=
  if code / f.signCode % 2 = 1 then -((code % f.signCode : Nat) : Int) else ((code % f.signCode : Nat) : Int)

theorem compare_eq_compare_signedMag (x y : Nat) : f.compare x y = compare (signedMag f x) (signedMag f y) := rfl

/-- The multiple of the least positive value that a finite magnitude denotes. -/
def ulps (f : FloatFmt) (m : Nat) : Nat :=
  if m / 2 ^ f.fracBits = 0 then m % 2 ^ f.fracBits else (2 ^ f.fracBits + m % 2 ^ f.fracBits) * 2 ^ (m / 2 ^ f.fracBits - 1)

theorem ulps_lt (m : Nat) : ulps f m < 2 ^ f.fracBits * 2 ^ (m / 2 ^ f.fracBits) := by
  have hfrac : m % 2 ^ f.fracBits < 2 ^ f.fracBits := Nat.mod_lt _ (Nat.two_pow_pos _)
  rw [ulps]
  split
  · next h => simpa [h] using hfrac
  · next h =>
    obtain ⟨k, hk⟩ := Nat.exists_eq_succ_of_ne_zero h
    rw [hk, Nat.succ_sub_one, pow_succ', ← mul_assoc]
    exact Nat.mul_lt_mul_of_pos_right (by omega) (Nat.two_pow_pos k)

theorem le_ulps {m : Nat} (h : m / 2 ^ f.fracBits ≠ 0) : 2 ^ f.fracBits * 2 ^ (m / 2 ^ f.fracBits - 1) ≤ ulps f m := by
  rw [ulps, if_neg h]
  exact Nat.mul_le_mul_right _ (Nat.le_add_right _ _)

theorem ulps_strictMono : StrictMono (ulps f) := by
  intro a b hab
  have hsplit := fun m => Nat.div_add_mod m (2 ^ f.fracBits)
  rcases (Nat.div_le_div_right hab.le : a / 2 ^ f.fracBits ≤ b / 2 ^ f.fracBits).lt_or_eq with hexp | hexp
  · calc ulps f a < 2 ^ f.fracBits * 2 ^ (a / 2 ^ f.fracBits) := ulps_lt a
      _ ≤ 2 ^ f.fracBits * 2 ^ (b / 2 ^ f.fracBits - 1) :=
        Nat.mul_le_mul_left _ (Nat.pow_le_pow_right (by decide) (Nat.le_pred_of_lt hexp))
      _ ≤ ulps f b := le_ulps (Nat.ne_zero_of_lt hexp)
  · have hfrac : a % 2 ^ f.fracBits < b % 2 ^ f.fracBits := by
      have ha := hsplit a
      have hb := hsplit b
      rw [hexp] at ha
      omega
    rw [ulps, ulps, hexp]
    split
    · exact hfrac
    · exact Nat.mul_lt_mul_of_pos_right (by omega) (Nat.two_pow_pos _)

/-- What a magnitude denotes, the infinity's included. -/
def magRank (f : FloatFmt) (m : Nat) : ℚ :=
  if m / 2 ^ f.fracBits = 2 ^ f.expBits - 1 then 2 ^ 200 else ulps f m * (2 : ℚ) ^ (f.emin - f.fracBits)

theorem magRank_zero : magRank f 0 = 0 := by
  cases f <;> simp [magRank, ulps, FloatFmt.expBits]

theorem magRank_finite_lt {m : Nat} (hm : m / 2 ^ f.fracBits < 2 ^ f.expBits - 1) :
    ulps f m * (2 : ℚ) ^ (f.emin - f.fracBits) < 2 ^ 200 := by
  have hexp : (f.fracBits + (m / 2 ^ f.fracBits : Nat) : Int) + (f.emin - f.fracBits) ≤ 200 := by
    generalize m / 2 ^ f.fracBits = e at hm
    cases f <;> simp only [FloatFmt.expBits, FloatFmt.emin, FloatFmt.bias] at hm ⊢ <;> omega
  have hulps : (ulps f m : ℚ) < 2 ^ (f.fracBits + (m / 2 ^ f.fracBits : Nat) : Int) := by
    have h : (ulps f m : ℚ) < ((2 ^ f.fracBits * 2 ^ (m / 2 ^ f.fracBits) : Nat) : ℚ) := Nat.cast_lt.mpr (ulps_lt m)
    rw [← pow_add] at h
    exact_mod_cast h
  calc ulps f m * (2 : ℚ) ^ (f.emin - f.fracBits)
      < 2 ^ (f.fracBits + (m / 2 ^ f.fracBits : Nat) : Int) * (2 : ℚ) ^ (f.emin - f.fracBits) :=
        mul_lt_mul_of_pos_right hulps (zpow_pos two_pos _)
    _ = (2 : ℚ) ^ ((f.fracBits + (m / 2 ^ f.fracBits : Nat) : Int) + (f.emin - f.fracBits)) := (zpow_add₀ two_ne_zero _ _).symm
    _ ≤ (2 : ℚ) ^ (200 : Int) := zpow_le_zpow_right₀ one_le_two hexp
    _ = 2 ^ 200 := by norm_cast

/-- A greater magnitude denotes a greater value, up to the infinity's. -/
theorem magRank_strictMonoOn : StrictMonoOn (magRank f) (Set.Iic f.infCode) := by
  intro a _ b hb hab
  have hfinite : a / 2 ^ f.fracBits < 2 ^ f.expBits - 1 := (Nat.div_lt_iff_lt_mul (Nat.two_pow_pos _)).mpr (lt_of_lt_of_le hab hb)
  rw [magRank, if_neg hfinite.ne, magRank]
  split
  · exact magRank_finite_lt hfinite
  · exact mul_lt_mul_of_pos_right (Nat.cast_lt.mpr (ulps_strictMono hab)) (zpow_pos two_pos _)

theorem mod_signCode_div (code : Nat) : code % f.signCode / 2 ^ f.fracBits = code / 2 ^ f.fracBits % 2 ^ f.expBits := by
  rw [FloatFmt.signCode, Nat.add_comm, pow_add, Nat.mod_mul_right_div_self]

theorem mod_signCode_mod (code : Nat) : code % f.signCode % 2 ^ f.fracBits = code % 2 ^ f.fracBits :=
  Nat.mod_mod_of_dvd _ (pow_dvd_pow 2 (Nat.le_add_left _ _))

/-- The value of a code in a format that has infinities, by its fields. -/
theorem decode_eq (hf : f.hasInf = true) (code : Nat) : f.decode code =
    if code / 2 ^ f.fracBits % 2 ^ f.expBits = 2 ^ f.expBits - 1 then
      if code % 2 ^ f.fracBits = 0 then .inf (code / f.signCode % 2 == 1) else .nan (code % 2 ^ f.fracBits < 2 ^ (f.fracBits - 1))
    else if code / 2 ^ f.fracBits % 2 ^ f.expBits = 0 then .num (code / f.signCode % 2 == 1) (code % 2 ^ f.fracBits) (f.emin - f.fracBits)
    else .num (code / f.signCode % 2 == 1) (2 ^ f.fracBits + code % 2 ^ f.fracBits)
      ((code / 2 ^ f.fracBits % 2 ^ f.expBits : Nat) - f.bias - f.fracBits) := by
  have he4m3 : f ≠ .e4m3 := by rintro rfl; cases hf
  by_cases htop : code / 2 ^ f.fracBits % 2 ^ f.expBits = 2 ^ f.expBits - 1 <;> simp [FloatFmt.decode, hf, he4m3, htop]

/-- A code that is not a NaN has no greater magnitude than the infinity. -/
theorem mod_signCode_le_infCode (hf : f.hasInf = true) {code : Nat} (hnan : (f.decode code).isNan = false) :
    code % f.signCode ≤ f.infCode := by
  have hsplit := Nat.div_add_mod' (code % f.signCode) (2 ^ f.fracBits)
  rw [mod_signCode_div, mod_signCode_mod] at hsplit
  have hexp : code / 2 ^ f.fracBits % 2 ^ f.expBits < 2 ^ f.expBits := Nat.mod_lt _ (Nat.two_pow_pos _)
  have hfrac : code % 2 ^ f.fracBits < 2 ^ f.fracBits := Nat.mod_lt _ (Nat.two_pow_pos _)
  rw [decode_eq hf] at hnan
  rw [← hsplit, FloatFmt.infCode]
  by_cases htop : code / 2 ^ f.fracBits % 2 ^ f.expBits = 2 ^ f.expBits - 1
  · by_cases hzero : code % 2 ^ f.fracBits = 0
    · rw [htop, hzero, Nat.add_zero]
    · rw [if_pos htop, if_neg hzero] at hnan
      cases hnan
  · calc code / 2 ^ f.fracBits % 2 ^ f.expBits * 2 ^ f.fracBits + code % 2 ^ f.fracBits
        ≤ (code / 2 ^ f.fracBits % 2 ^ f.expBits + 1) * 2 ^ f.fracBits := by rw [Nat.add_one_mul]; omega
      _ ≤ (2 ^ f.expBits - 1) * 2 ^ f.fracBits := Nat.mul_le_mul_right _ (by omega)

/-- The exponent of a normal value, in units of the least positive value. -/
theorem two_zpow_normal {e : Nat} (he : e ≠ 0) :
    (2 : ℚ) ^ ((e : Int) - f.bias - f.fracBits) = 2 ^ (e - 1) * 2 ^ (f.emin - f.fracBits) := by
  rw [← zpow_natCast, ← zpow_add₀ two_ne_zero, FloatFmt.emin]
  congr 1
  omega

/-- What a code that is not a NaN denotes, in a format that has infinities. -/
theorem rank_decode (hf : f.hasInf = true) {code : Nat} (hnan : (f.decode code).isNan = false) :
    Spec.rank (f.decode code) = if code / f.signCode % 2 = 1 then -magRank f (code % f.signCode) else magRank f (code % f.signCode) := by
  have hsign : ∀ q : ℚ, (if code / f.signCode % 2 = 1 then -q else q) = (if code / f.signCode % 2 == 1 then -1 else 1) * q := by
    intro q
    by_cases h : code / f.signCode % 2 = 1 <;> simp [h]
  rw [hsign, magRank, ulps, mod_signCode_div, mod_signCode_mod]
  rw [decode_eq hf] at hnan ⊢
  by_cases htop : code / 2 ^ f.fracBits % 2 ^ f.expBits = 2 ^ f.expBits - 1
  · rw [if_pos htop] at hnan ⊢
    rw [if_pos htop]
    by_cases hzero : code % 2 ^ f.fracBits = 0
    · rw [if_pos hzero]
      rfl
    · rw [if_neg hzero] at hnan
      cases hnan
  · rw [if_neg htop, if_neg htop]
    by_cases hexp : code / 2 ^ f.fracBits % 2 ^ f.expBits = 0
    · rw [if_pos hexp, if_pos hexp]
      exact mul_assoc _ _ _
    · rw [if_neg hexp, if_neg hexp]
      simp only [Spec.rank, Spec.rat, two_zpow_normal hexp]
      push_cast
      ring

/-! ## Signed magnitudes are ordered as their values -/

theorem magRank_lt_iff {a b : Nat} (ha : a ≤ f.infCode) (hb : b ≤ f.infCode) : magRank f a < magRank f b ↔ a < b :=
  magRank_strictMonoOn.lt_iff_lt ha hb

theorem magRank_nonneg {a : Nat} (ha : a ≤ f.infCode) : 0 ≤ magRank f a := by
  rw [← magRank_zero (f := f)]
  exact magRank_strictMonoOn.monotoneOn (Set.mem_Iic.mpr (Nat.zero_le _)) ha (Nat.zero_le a)

theorem magRank_pos_iff {a : Nat} (ha : a ≤ f.infCode) : 0 < magRank f a ↔ 0 < a := by
  rw [← magRank_zero (f := f)]
  exact magRank_lt_iff (Nat.zero_le _) ha

theorem neg_magRank_lt_iff {a b : Nat} (ha : a ≤ f.infCode) (hb : b ≤ f.infCode) : -magRank f a < magRank f b ↔ 0 < a ∨ 0 < b := by
  rw [← magRank_pos_iff ha, ← magRank_pos_iff hb]
  have ha0 := magRank_nonneg ha
  have hb0 := magRank_nonneg hb
  constructor
  · contrapose!
    rintro ⟨ha', hb'⟩
    linarith
  · rintro (ha' | hb') <;> linarith

/-- The order of two codes that are not NaNs, as `FloatFmt.compare` sees it, is that of their values. -/
theorem rank_lt_iff (hf : f.hasInf = true) {x y : Nat} (hx : (f.decode x).isNan = false) (hy : (f.decode y).isNan = false) :
    Spec.rank (f.decode x) < Spec.rank (f.decode y) ↔ signedMag f x < signedMag f y := by
  have hxle := mod_signCode_le_infCode hf hx
  have hyle := mod_signCode_le_infCode hf hy
  rw [rank_decode hf hx, rank_decode hf hy, signedMag, signedMag]
  split <;> split
  · rw [neg_lt_neg_iff, neg_lt_neg_iff, magRank_lt_iff hyle hxle, Nat.cast_lt]
  · rw [neg_magRank_lt_iff hxle hyle]
    omega
  · have hx0 := magRank_nonneg hxle
    have hy0 := magRank_nonneg hyle
    exact iff_of_false (by linarith) (by omega)
  · rw [magRank_lt_iff hxle hyle, Nat.cast_lt]

theorem rank_eq_iff (hf : f.hasInf = true) {x y : Nat} (hx : (f.decode x).isNan = false) (hy : (f.decode y).isNan = false) :
    Spec.rank (f.decode x) = Spec.rank (f.decode y) ↔ signedMag f x = signedMag f y := by
  rw [eq_iff_le_not_lt, eq_iff_le_not_lt, ← not_lt, ← not_lt, rank_lt_iff hf hx hy, rank_lt_iff hf hy hx]

/-- A code of lesser value comes first in the order of `fMinMax`, which puts −0 below +0. -/
theorem orderKey_lt_of_rank_lt (hf : f.hasInf = true) {x y : Nat} (hx : (f.decode x).isNan = false) (hy : (f.decode y).isNan = false)
    (h : Spec.rank (f.decode x) < Spec.rank (f.decode y)) : f.orderKey x < f.orderKey y := by
  have hmag := (rank_lt_iff hf hx hy).mp h
  revert hmag
  simp only [signedMag, FloatFmt.orderKey]
  split <;> split <;> omega

/-! ## Minimum and maximum (R125) -/

theorem flags_fMinMax (up : Bool) (x y : Nat) : (fMinMax f up x y).flags =
    if (f.decode x).isSignalling || (f.decode y).isSignalling then Fx.nv else Fx.none := by
  rw [fMinMax]
  dsimp only
  generalize (if (f.decode x).isSignalling || (f.decode y).isSignalling then Fx.nv else Fx.none) = fl
  cases (f.decode x).isNan <;> cases (f.decode y).isNan <;> rfl

theorem code_fMinMax (up : Bool) (x y : Nat) : (fMinMax f up x y).code =
    if (f.decode x).isNan && (f.decode y).isNan then f.nanCode else if (f.decode x).isNan then y else if (f.decode y).isNan then x
    else if decide (f.orderKey x ≤ f.orderKey y) == up then y else x := by
  rw [fMinMax]
  cases (f.decode x).isNan <;> cases (f.decode y).isNan <;> rfl

/-- Of two codes that are not NaNs the minimum is the first in order and the maximum the other. -/
theorem code_fMinMax_of_not_nan {x y : Nat} (hx : (f.decode x).isNan = false) (hy : (f.decode y).isNan = false) (up : Bool) :
    (fMinMax f up x y).code = if decide (f.orderKey x ≤ f.orderKey y) == up then y else x := by
  simp only [code_fMinMax, hx, hy, Bool.and_self, Bool.false_eq_true, if_false]

theorem minimumAndMaximum : Spec.MinimumAndMaximum := by
  intro f x y hf _ _
  refine ⟨fun up => flags_fMinMax up x y, fun up hx hy => ?bothNan, fun up hx hy => ?xNan, fun up hx hy => ?yNan,
    fun hx hy => ⟨fun h => ?less, fun h => ?greater, fun h up => ?same⟩, ?zeros⟩
  case bothNan | xNan | yNan => simp [code_fMinMax, hx, hy]
  case less =>
    have hkey := orderKey_lt_of_rank_lt hf hx hy h
    simp [code_fMinMax_of_not_nan hx hy, hkey.le]
  case greater =>
    have hkey := orderKey_lt_of_rank_lt hf hy hx h
    simp [code_fMinMax_of_not_nan hx hy, hkey.not_ge]
  case same =>
    subst h
    simp [code_fMinMax_of_not_nan hx hy]
  case zeros => cases f <;> decide

end Format

/-! ## Compares (R99) -/

theorem condHolds_compare_iff {cond : Nat} (x y : Word) (hx : (FloatFmt.f32.decode x.toNat).isNan = false)
    (hy : (FloatFmt.f32.decode y.toNat).isNan = false) :
    condHolds cond (FloatFmt.f32.compare x.toNat y.toNat) = true ↔
      Spec.holds cond (Spec.rank (FloatFmt.f32.decode x.toNat)) (Spec.rank (FloatFmt.f32.decode y.toNat)) := by
  rw [compare_eq_compare_signedMag]
  have hlt := rank_lt_iff rfl hx hy
  have hgt := rank_lt_iff rfl hy hx
  have heq := rank_eq_iff rfl hx hy
  have hle := not_congr hgt
  have hge := not_congr hlt
  rw [not_lt, not_lt] at hle hge
  match cond with
  | 0 => simp [condHolds, Spec.holds, compare_beq_eq, heq]
  | 1 => simp [condHolds, Spec.holds, bne, compare_beq_eq, heq]
  | 2 => simp [condHolds, Spec.holds, compare_beq_lt, hlt]
  | 3 => simp [condHolds, Spec.holds, compare_bne_gt, hle]
  | 4 => simp [condHolds, Spec.holds, compare_beq_gt, hgt]
  | n + 5 => simp [condHolds, Spec.holds, compare_bne_lt, hge]

/-- What a compare gives of two words: its condition and the flags that it raises. -/
def wordCompare (cond : Nat) (u : Bool) (x y : Word) : Bool × Fx := fcmpVal cond u x.toNat y.toNat

/-- What a compare gives of two codes: the unordered row of R99 where one is a NaN, and the order of their values where none is. -/
theorem wordCompare_spec (cond : Nat) (u : Bool) (x y : Word) :
    let vx := FloatFmt.f32.decode x.toNat
    let vy := FloatFmt.f32.decode y.toNat
    ((vx.isNan || vy.isNan) = true →
      (wordCompare cond u x y).1 = (if cond = 1 then true else u) ∧
      (wordCompare cond u x y).2 =
        if vx.isSignalling || vy.isSignalling || (decide (2 ≤ cond) && !u) then Fx.nv else Fx.none) ∧
    ((vx.isNan || vy.isNan) = false →
      (wordCompare cond u x y).2 = Fx.none ∧
      ((wordCompare cond u x y).1 = true ↔ Spec.holds cond (Spec.rank vx) (Spec.rank vy))) := by
  intro vx vy
  constructor
  · intro hnan
    rw [wordCompare, fcmpVal]
    simp only [vx, vy] at hnan
    simp [hnan, vx, vy]
  · intro hnan
    have hval : wordCompare cond u x y = (condHolds cond (FloatFmt.f32.compare x.toNat y.toNat), Fx.none) := by
      rw [wordCompare, fcmpVal]
      exact if_neg (Bool.eq_false_iff.mp hnan)
    obtain ⟨hx, hy⟩ := Bool.or_eq_false_iff.mp hnan
    exact ⟨congrArg Prod.snd hval, by rw [hval]; exact condHolds_compare_iff x y hx hy⟩

/-- A compare writes the combination of its predicate with what `fcmpVal` gives, and raises its flags. -/
theorem completesWithFlags_of_fcmp {x : Instr} {g : Guard} {f : Info} {cond : Nat} {c : Fin 4} {u : Bool} {a b : Fin 64} {d : Fin 8}
    (hf : infoOf x = some f) (hg : f.guard = g) (hx : ∀ s, exec x s = lanesFx f s (fcmp cond c u a b d)) :
    CompletesWithFlags x g (fun _ _ _ l =>
      (l.setPred d (Spec.combined c (l.pred d) (wordCompare cond u (l.reg a) (l.reg b)).1),
        (wordCompare cond u (l.reg a) (l.reg b)).2)) id := by
  refine lanesFx_completes f _ id (fun _ _ _ => rfl) (fun _ => rfl) hf hg fun s => (hx s).trans ?_
  congr 1
  funext _ _ _ l
  rw [fcmp, combine_eq_combined, wordCompare]

theorem floatCompares : Spec.FloatCompares := by
  intro g c b a d
  refine ⟨fun u => ⟨?_, ?_, ?_, ?_, ?_⟩, ?_⟩
  · exact ⟨wordCompare 0 (u.val == 1), completesWithFlags_of_fcmp rfl rfl fun _ => rfl, wordCompare_spec 0 _⟩
  · exact ⟨wordCompare 2 (u.val == 1), completesWithFlags_of_fcmp rfl rfl fun _ => rfl, wordCompare_spec 2 _⟩
  · exact ⟨wordCompare 3 (u.val == 1), completesWithFlags_of_fcmp rfl rfl fun _ => rfl, wordCompare_spec 3 _⟩
  · exact ⟨wordCompare 4 (u.val == 1), completesWithFlags_of_fcmp rfl rfl fun _ => rfl, wordCompare_spec 4 _⟩
  · exact ⟨wordCompare 5 (u.val == 1), completesWithFlags_of_fcmp rfl rfl fun _ => rfl, wordCompare_spec 5 _⟩
  · exact ⟨wordCompare 1 false, completesWithFlags_of_fcmp rfl rfl fun _ => rfl, wordCompare_spec 1 _⟩

end Sys2Proof.FloatOrdering

open Sys2Proof Sys2Proof.FloatOrdering

/-- Settles O12: the signed magnitudes of codes are ordered as the values that they denote (`rank_lt_iff`). -/
theorem floatOrder : Obligations.FloatOrder := ⟨minimumAndMaximum, floatCompares⟩

end

section
/-! PROOFS. The lanes that arrive at one issue: votes, shuffles, reductions and scans (O17). -/

namespace Sys2Proof.Arrivals
open Sys2Proof.Machine

/-! ## Maps in ascending order -/

section Ascending

variable {α : Type}

theorem erase_of_lt {m : Store α} {k : Nat} (h : ∀ p ∈ m, p.1 < k) : Store.erase m k = m := by
  induction m with
  | nil => rfl
  | cons x t ih =>
    obtain ⟨a, v⟩ := x
    have ha : a ≠ k := (h (a, v) (List.mem_cons_self ..)).ne
    rw [Store.erase, if_neg ha, ih fun p hp => h p (List.mem_cons_of_mem _ hp)]

theorem insert_of_lt {m : Store α} {k : Nat} (v : α) (h : ∀ p ∈ m, p.1 < k) : Store.insert m k v = m ++ [(k, v)] := by
  induction m with
  | nil => rfl
  | cons x t ih =>
    obtain ⟨a, w⟩ := x
    have ha : ¬ k < a := (h (a, w) (List.mem_cons_self ..)).not_gt
    rw [Store.insert, if_neg ha, ih fun p hp => h p (List.mem_cons_of_mem _ hp)]
    rfl

/-- A put above every key goes to the end. -/
theorem put_of_lt {m : Store α} {k : Nat} (v : α) (h : ∀ p ∈ m, p.1 < k) : Store.put m k v = m ++ [(k, v)] := by
  rw [Store.put, erase_of_lt h, insert_of_lt v h]

/-- Puts in ascending order build the list itself. -/
theorem foldl_put_ascending {β : Type} (f : β → α) (l : List (Nat × β)) (m : Store α) (hl : l.Pairwise fun p q => p.1 < q.1)
    (hm : ∀ p ∈ m, ∀ q ∈ l, p.1 < q.1) :
    l.foldl (fun a p => Store.put a p.1 (f p.2)) m = m ++ l.map fun p => (p.1, f p.2) := by
  induction l generalizing m with
  | nil => simp
  | cons x t ih =>
    obtain ⟨hx, ht⟩ := List.pairwise_cons.mp hl
    rw [List.foldl_cons, put_of_lt _ fun p hp => hm p hp x (List.mem_cons_self ..), ih _ ht]
    · simp
    · intro p hp q hq
      obtain hp | hp := List.mem_append.mp hp
      · exact hm p hp q (List.mem_cons_of_mem _ hq)
      · obtain rfl := List.mem_singleton.mp hp
        exact hx q hq

/-- Where the keys ascend, a map holds at a key what it lists there. -/
theorem find?_eq_some_iff_mem {m : Store α} (hm : m.Pairwise fun p q => p.1 < q.1) (k : Nat) (v : α) :
    Store.find? m k = some v ↔ (k, v) ∈ m := by
  induction m with
  | nil => simp
  | cons x t ih =>
    obtain ⟨a, w⟩ := x
    obtain ⟨hx, ht⟩ := List.pairwise_cons.mp hm
    by_cases hak : a = k
    · subst hak
      have hnot : (a, v) ∉ t := fun h => (hx _ h).false
      simp [Store.find?, hnot, eq_comm]
    · simp [Store.find?, hak, ih ht, Ne.symm hak]

end Ascending

/-! ## The lanes of a mask -/

theorem lanesOf_ascending (e : Engine) (m : Dword) : (e.lanesOf m).Pairwise fun p q => p.1 < q.1 := by
  have hkey : ∀ k p, p ∈ (if m.getLsbD k then (e.lanes.find? k).map fun l => (k, l) else none) → p.1 = k := by
    intro k p hp
    split at hp
    · obtain ⟨l, -, rfl⟩ := Option.map_eq_some_iff.mp hp
      rfl
    · cases hp
  refine List.Pairwise.filterMap _ (fun a b hab p hp q hq => ?_) List.pairwise_lt_range
  rwa [hkey a p hp, hkey b q hq]

/-- What the lanes of a mask present, in ascending order. -/
def arrivals (e : Engine) (m : Dword) (src : Lane → Arrived) : Store Arrived := (e.lanesOf m).map fun kl => (kl.1, src kl.2)

theorem arrivals_eq_foldl (e : Engine) (m : Dword) (src : Lane → Arrived) :
    (e.lanesOf m).foldl (fun a kl => Store.put a kl.1 (src kl.2)) [] = arrivals e m src :=
  foldl_put_ascending src _ [] (lanesOf_ascending e m) (by simp)

theorem arrivals_ascending (e : Engine) (m : Dword) (src : Lane → Arrived) : (arrivals e m src).Pairwise fun p q => p.1 < q.1 :=
  List.pairwise_map.mpr (lanesOf_ascending e m)

theorem find?_arrivals (e : Engine) (m : Dword) (src : Lane → Arrived) (k : Nat) :
    (arrivals e m src).find? k = if m.getLsbD k then (e.lanes.find? k).map src else none := by
  ext v
  rw [find?_eq_some_iff_mem (arrivals_ascending e m src)]
  simp only [arrivals, List.mem_map, Prod.exists, Prod.mk.injEq, Engine.mem_lanesOf, Option.ite_none_right_eq_some, Option.map_eq_some_iff]
  constructor
  · rintro ⟨j, l, ⟨hj, hfind⟩, rfl, rfl⟩
    exact ⟨hj, l, hfind, rfl⟩
  · rintro ⟨hk, l, hfind, rfl⟩
    exact ⟨k, l, ⟨hk, hfind⟩, rfl, rfl⟩

theorem keys_arrivals (e : Engine) (m : Dword) (src : Lane → Arrived) : Store.keys (arrivals e m src) = (e.lanesOf m).map Prod.fst := by
  simp [Store.keys, arrivals, Function.comp_def]

/-- The keys of the lanes that a mask names make the mask. -/
theorem listMask_lanesOf {e : Engine} {m : Dword} (hfound : ∀ k, m.getLsbD k = true → (e.lanes.find? k).isSome = true) :
    listMask ((e.lanesOf m).map Prod.fst) = m := by
  refine BitVec.eq_of_getLsbD_eq fun k hk => ?_
  rw [getLsbD_listMask _ _ hk, Bool.eq_iff_iff]
  simp only [List.contains_iff_mem, List.mem_map, Prod.exists, Engine.mem_lanesOf]
  constructor
  · rintro ⟨_, l, ⟨hlive, -⟩, rfl⟩
    exact hlive
  · intro hlive
    obtain ⟨l, hfind⟩ := Option.isSome_iff_exists.mp (hfound k hlive)
    exact ⟨k, l, ⟨hlive, hfind⟩, rfl⟩

/-- Where no lane is named, none presents anything. -/
theorem lanesOf_zero (e : Engine) : e.lanesOf 0 = [] := by simp [Engine.lanesOf]

/-! ## Whom an open meeting awaits (R106) -/

theorem mem_maskList (m : Dword) (k : Nat) : k ∈ maskList m 64 ↔ m.getLsbD k = true := by
  have hlt : m.getLsbD k = true → k < 64 := BitVec.lt_of_getLsbD
  simpa [maskList] using hlt

theorem complete_iff (e : Engine) (x : Instance) : x.complete e = true ↔ ∀ k, x.mask.getLsbD k = true →
    (x.arrived.find? k).isSome = true ∨ x.absent.getLsbD k = true ∨ (e.lane k).live = false := by
  simp only [Instance.complete, List.all_eq_true, mem_maskList, Bool.or_eq_true, Bool.not_eq_true', or_assoc]

/-- A meeting that awaits somebody awaits him still where no lane has left. -/
theorem not_complete_of_live {e e' : Engine} {x : Instance} (hlive : ∀ k, (e.lane k).live = true → (e'.lane k).live = true)
    (h : x.complete e = false) : x.complete e' = false := by
  rw [← Bool.not_eq_true, complete_iff] at h ⊢
  refine fun hall => h fun k hk => ?_
  refine (hall k hk).imp_right (Or.imp_right fun hdead => ?_)
  rw [← Bool.not_eq_true] at hdead ⊢
  exact fun hl => hdead (hlive k hl)

/-! ## An issue that opens a meeting (R106, R108) -/

section Opening

variable {f : Info} {s : State} {i : Issue} {e : Engine} {live good : Dword} {mreg : Option Nat} {op : CrossOp} {src : Lane → Arrived}

/-- The meeting that an issue opens, at which the lanes `good` arrive. -/
def opened (s : State) (i : Issue) (e : Engine) (live good : Dword) (mreg : Option Nat) (op : CrossOp) (src : Lane → Arrived) : Instance :=
  { pc := i.pc, len := i.len, insn := i.insn, op, mask := e.crossMask mreg, absent := i.lanes &&& ~~~live, arrived := arrivals e good src
    tag := s.nextId }

/-- The engine once its lanes have arrived at a new meeting: the arrived ones wait, and those whose guard is false have gone on. -/
def atMeeting (f : Info) (i : Issue) (e : Engine) (live good : Dword) (x : Instance) : Engine :=
  { (e.mapLanes (i.lanes &&& ~~~live) fun _ l => l.goneOn i).mapLanes good fun _ l => { l with status := .waiting, issued := true } with
    open_ := x :: e.open_ }.bookTag f x.tag

/-- The state with an engine rewritten and one event number used up. -/
def withEngine (s : State) (n : Nat) (e : Engine) : State := { s.setEngine n e with nextId := s.nextId + 1 }

theorem find?_open_eq_none (hfresh : ∀ y ∈ e.open_, y.pc ≠ i.pc) : (e.open_.find? fun y => y.pc == i.pc) = none :=
  List.find?_eq_none.mpr fun y hy => by simpa using hfresh y hy

theorem filter_open_eq_self {pc : Word} (hfresh : ∀ y ∈ e.open_, y.pc ≠ pc) : (e.open_.filter fun y => y.pc != pc) = e.open_ :=
  List.filter_eq_self.mpr fun y hy => by simpa using hfresh y hy

theorem crossBad_opening (hfresh : ∀ y ∈ e.open_, y.pc ≠ i.pc) : e.crossBad i live mreg =
    if e.crossMask mreg == 0 || maskTooWide e.width (e.crossMask mreg) then live else live &&& ~~~e.crossMask mreg := by
  rw [Engine.crossBad]
  simp only [find?_open_eq_none hfresh]

theorem crossIssue_opens (hfresh : ∀ y ∈ e.open_, y.pc ≠ i.pc) {bad : Dword} (hbad : e.crossBad i live mreg = bad)
    (hgood : live &&& ~~~bad = good) :
    crossIssue f s i e live mreg op src =
      let x := opened s i e live good mreg op src
      let s' := (withEngine s i.eng (atMeeting f i e live good x)).checkInstances i.eng
      if bad = 0 then s' else s'.trap i .mask bad 0 0 := by
  subst hbad hgood
  rw [crossIssue]
  have habsent : (0 : Dword) ||| (i.lanes &&& ~~~live) = i.lanes &&& ~~~live := BitVec.zero_or
  have hopen : ∀ m m' : Dword, ∀ g g' : Nat → Lane → Lane, (((e.mapLanes m g).mapLanes m' g').open_.filter fun y => y.pc != i.pc) = e.open_ :=
    fun _ _ _ _ => filter_open_eq_self hfresh
  simp only [find?_open_eq_none hfresh, Option.getD_none, Option.isNone_none, if_true, arrivals_eq_foldl, habsent, hopen]
  rfl

@[simp] theorem engine_withEngine (n : Nat) : (withEngine s n e).engine n = some e := State.engine_setEngine_self _ _ _

/-- A state that differs from another in one engine and the number of the next event has the same memory. -/
theorem sameMemory_of_onlyEngine {t : State} {n : Nat} (h : s.onlyEngine t n) : s.sameMemory t := by
  intro loc hloc
  rw [h.2]
  simp only [State.readHome, if_pos hloc]
  rfl

theorem onlyEngine_withEngine (n : Nat) : s.onlyEngine (withEngine s n e) n :=
  ⟨fun _ hj => State.engine_setEngine_ne _ _ hj, rfl⟩

theorem onlyEngine_setEngine {t : State} {n : Nat} (h : s.onlyEngine t n) : s.onlyEngine (t.setEngine n e) n := by
  refine ⟨fun j hj => (State.engine_setEngine_ne _ _ hj).trans (h.1 j hj), ?_⟩
  conv_lhs => rw [h.2]
  rfl

theorem checkInstances_of_awaiting {n : Nat} (heng : s.engine n = some e) (h : ∀ y ∈ e.open_, y.complete e = false) :
    s.checkInstances n = s := by
  have hnone : e.open_.filter (Instance.complete e) = [] := List.filter_eq_nil_iff.mpr fun y hy => by simp [h y hy]
  rw [State.checkInstances, heng]
  simp only [hnone, List.foldl_nil]

theorem checkInstances_of_complete {n : Nat} {x : Instance} {rest : List Instance} (heng : s.engine n = some e) (hopen : e.open_ = x :: rest)
    (hx : x.complete e = true) (h : ∀ y ∈ rest, y.complete e = false) : s.checkInstances n = s.finishInstance n e x := by
  have hone : e.open_.filter (Instance.complete e) = [x] := by
    rw [hopen, List.filter_cons_of_pos hx, List.filter_eq_nil_iff.mpr fun y hy => by simp [h y hy]]
  rw [State.checkInstances, heng]
  simp only [hone, List.foldl_cons, List.foldl_nil, heng]

end Opening

/-! ## Lanes at a meeting -/

section AtMeeting

variable {f : Info} {s : State} {i : Issue} {e : Engine} {live good : Dword} {x : Instance}

/-- A lane after the issue that opens a meeting. -/
def arrivedLane (i : Issue) (live good : Dword) (k : Nat) (l : Lane) : Lane :=
  if good.getLsbD k then { l with status := .waiting, issued := true } else if i.lanes.getLsbD k && !live.getLsbD k then l.goneOn i else l

theorem getLsbD_away (i : Issue) (live : Dword) (k : Nat) :
    (i.lanes &&& ~~~live).getLsbD k = (i.lanes.getLsbD k && !live.getLsbD k) := by
  by_cases hk : k < 64
  · simp [hk]
  · simp [BitVec.getLsbD_of_ge i.lanes k (by omega)]

theorem find?_atMeeting (hgood : ∀ k, good.getLsbD k = true → live.getLsbD k = true) (k : Nat) :
    (atMeeting f i e live good x).lanes.find? k = (e.lanes.find? k).map (arrivedLane i live good k) := by
  change (((e.mapLanes _ _).mapLanes good _).lanes.find? k) = _
  rw [Engine.find?_mapLanes, Engine.find?_mapLanes, Option.map_map]
  congr 1
  funext l
  simp only [Function.comp_apply, getLsbD_away, arrivedLane]
  by_cases hk : good.getLsbD k = true
  · simp [hk, hgood k hk]
  · simp [hk]

theorem live_goneOn (l : Lane) : (l.goneOn i).live = l.live := rfl

/-- A lane that arrives is live, and no other lane's liveness changes. -/
theorem live_arrivedLane (k : Nat) (l : Lane) : (arrivedLane i live good k l).live = (good.getLsbD k || l.live) := by
  rw [arrivedLane]
  split
  · next h => simp [h, Lane.live]
  · next h => split <;> simp [h, live_goneOn]

theorem live_lane_atMeeting (hgood : ∀ k, good.getLsbD k = true → live.getLsbD k = true) (k : Nat) :
    ((atMeeting f i e live good x).lane k).live = (good.getLsbD k && (e.lanes.find? k).isSome || (e.lane k).live) := by
  rw [Engine.lane, find?_atMeeting hgood, Engine.lane]
  cases e.lanes.find? k with
  | none => simp [Lane.live, Lane.empty]
  | some l => simp [live_arrivedLane]

/-- The meetings that were open before still await somebody. -/
theorem awaiting_atMeeting (hgood : ∀ k, good.getLsbD k = true → live.getLsbD k = true) (h : ∀ y ∈ e.open_, y.complete e = false) :
    ∀ y ∈ e.open_, y.complete (atMeeting f i e live good x) = false :=
  fun y hy => not_complete_of_live (fun k hk => by rw [live_lane_atMeeting hgood, hk, Bool.or_true]) (h y hy)

/-- Once its meeting is closed, an engine differs from what it was in its lanes and its scoreboard. -/
theorem closed_atMeeting (hfresh : ∀ y ∈ e.open_, y.pc ≠ x.pc) :
    { atMeeting f i e live good x with open_ := (atMeeting f i e live good x).open_.filter fun y => y.pc != x.pc } =
      e.withLanes (atMeeting f i e live good x).lanes (atMeeting f i e live good x).sb := by
  have hopen : ((atMeeting f i e live good x).open_.filter fun y => y.pc != x.pc) = e.open_ := by
    change (x :: e.open_).filter _ = _
    rw [List.filter_cons_of_neg (by simp), filter_open_eq_self hfresh]
  rw [hopen]
  rfl

end AtMeeting

/-! ## A meeting whose lanes come at one issue -/

section Meets

variable {f : Info} {s : State} {i : Issue} {e : Engine} {live : Dword} {m : Nat} {op : CrossOp} {src : Lane → Arrived}

/-- Lanes that lie in a mask that fits raise nothing. -/
theorem crossBad_of_inMask {mreg : Option Nat} (hfresh : ∀ y ∈ e.open_, y.pc ≠ i.pc) (hsome : live ≠ 0)
    (hfits : (e.crossMask mreg).toNat < 2 ^ e.width) (hin : ∀ k, live.getLsbD k = true → (e.crossMask mreg).getLsbD k = true) :
    e.crossBad i live mreg = 0 := by
  have hmask : e.crossMask mreg ≠ 0 := fun hzero => hsome (BitVec.eq_of_getLsbD_eq fun k _ =>
    (Bool.eq_false_iff.mpr fun hk => by simpa [hzero] using hin k hk).trans BitVec.getLsbD_zero.symm)
  have hwide : maskTooWide e.width (e.crossMask mreg) = false := decide_eq_false (Nat.not_le.mpr hfits)
  rw [crossBad_opening hfresh, hwide, beq_eq_false_iff_ne.mpr hmask]
  refine BitVec.eq_of_getLsbD_eq fun k hk => ?_
  have hink := hin k
  cases hlive : live.getLsbD k <;> simp_all

theorem crossBad_of_meets (hm : e.Meets i (e.mask m) live) : e.crossBad i live (some m) = 0 :=
  crossBad_of_inMask (fun y hy => (hm.alone y hy).1) hm.some_ hm.fits hm.inMask

theorem complete_of_meets (hm : e.Meets i (e.mask m) live) (hfound : ∀ k, live.getLsbD k = true → (e.lanes.find? k).isSome = true) :
    let x := opened s i e live live (some m) op src
    x.complete (atMeeting f i e live live x) = true := by
  intro x
  refine (complete_iff _ x).mpr fun k hk => ?_
  by_cases hlive : live.getLsbD k = true
  · left
    change ((arrivals e live src).find? k).isSome = true
    rw [find?_arrivals, if_pos hlive, Option.isSome_map]
    exact hfound k hlive
  · rw [Bool.not_eq_true] at hlive
    right
    refine (hm.rest k hk hlive).imp (fun hi => ?_) fun hdead => ?_
    · change (i.lanes &&& ~~~live).getLsbD k = true
      rw [getLsbD_away, hi, hlive]
      rfl
    · rw [live_lane_atMeeting fun _ h => h, hdead, hlive]
      rfl

/-- Where the lanes of a cross-lane instruction meet at one issue, the meeting opens and closes with it. -/
theorem crossIssue_of_meets (hm : e.Meets i (e.mask m) live)
    (hfound : ∀ k, live.getLsbD k = true → (e.lanes.find? k).isSome = true) :
    let x := opened s i e live live (some m) op src
    let e' := atMeeting f i e live live x
    crossIssue f s i e live (some m) op src = (withEngine s i.eng e').finishInstance i.eng e' x := by
  intro x e'
  have hself : live &&& ~~~(0 : Dword) = live := BitVec.and_allOnes
  rw [crossIssue_opens (fun y hy => (hm.alone y hy).1) (crossBad_of_meets hm) hself]
  dsimp only
  rw [if_pos rfl]
  exact checkInstances_of_complete (engine_withEngine _) rfl (complete_of_meets hm hfound)
    (awaiting_atMeeting (fun _ h => h) fun y hy => (hm.alone y hy).2)

end Meets

/-! ## Meetings that complete in the lanes that arrived -/

/-- Whether a completed meeting gives its lanes their results at once: all but barriers and `dflush`. -/
def answersAtOnce : CrossOp → Bool
  | .bar _ _ | .dflush => false
  | _ => true

theorem finishInstance_of_answersAtOnce {s : State} {n : Nat} {e e' : Engine} {x : Instance} (hop : answersAtOnce x.op = true)
    (harr : x.arrived.isEmpty = false) (hclosed : { e' with open_ := e'.open_.filter fun y => y.pc != x.pc } = e) :
    s.finishInstance n e' x =
      let lanes := listMask (Store.keys x.arrived)
      let r := crossResult e x
      let next := x.pc + BitVec.ofNat 32 x.len
      let s' := s.setEngine n ((r.1.mapLanes lanes fun _ l => { l with status := .ready, pc := next, issued := true }).dueTag x.tag
        (s.clock.cyc + x.op.latency e.width))
      if fpxDetail r.2 &&& (e.tmode.toNat % 32) = 0 then s'
      else s'.raise { eng := n, cause := .fpx, lanes, pc := next, insn := x.insn, faddr := 0, detail := fpxDetail r.2 } := by
  subst hclosed
  rw [State.finishInstance]
  simp only [harr, Bool.false_eq_true, if_false]
  cases h : x.op <;> first | rfl | (rw [h] at hop; cases hop)

/-- The lanes that an instruction lets meet: there are some, and each stands in the engine below its width. -/
structure Present (e : Engine) (live : Dword) : Prop where
  some_ : live ≠ 0
  found : ∀ k, live.getLsbD k = true → (e.lanes.find? k).isSome = true
  below : ∀ k, live.getLsbD k = true → k < e.width

/-- What a completed meeting gives: each arrived lane becomes `op` of itself, with the flags that `op` says, and the gang `post` of itself. -/
structure Gives (e : Engine) (live : Dword) (x : Instance) (op : Engine → List (Nat × Lane) → Nat → Lane → Lane × Fx)
    (post : Engine → List (Nat × Lane) → Engine) (L : Store Lane) (S : List SbEntry) : Prop where
  lane : ∃ h : Nat → Lane → Lane,
    (post (e.withLanes L S) (e.lanesOf live)).LanesOf (crossResult (e.withLanes L S) x).1 (fun k l => if live.getLsbD k then h k l else l) ∧
    ∀ k l (pc : Word), live.getLsbD k = true → e.lanes.find? k = some l →
      { h k { l with status := .waiting, issued := true } with status := .ready, pc, issued := true } =
        { (op e (e.lanesOf live) k l).1 with
          fx := (op e (e.lanesOf live) k l).1.fx ||| (op e (e.lanesOf live) k l).2, status := .ready, pc, issued := true }
  raised : ∀ n, n < 6 → ((crossResult (e.withLanes L S) x).2.getLsbD n = true ↔
    ∃ k l, (k, l) ∈ e.lanesOf live ∧ (op e (e.lanesOf live) k l).2.getLsbD n = true)

theorem present_of_meets {i : Issue} {e : Engine} {live m : Dword} (hm : e.Meets i m live)
    (hfound : ∀ k, live.getLsbD k = true → (e.lanes.find? k).isSome = true) : Present e live := by
  refine ⟨hm.some_, hfound, fun k hk => ?_⟩
  have hbit : 2 ^ k ≤ m.toNat := Nat.ge_two_pow_of_testBit (hm.inMask k hk)
  exact (Nat.pow_lt_pow_iff_right Nat.one_lt_two).mp (lt_of_le_of_lt hbit hm.fits)

theorem lanesOf_ne_nil {e : Engine} {live : Dword} (h : Present e live) : e.lanesOf live ≠ [] := by
  intro hnil
  have hmask := listMask_lanesOf h.found
  rw [hnil] at hmask
  exact h.some_ hmask.symm

theorem listMask_keys_arrivals {e : Engine} {live : Dword} (h : Present e live) (src : Lane → Arrived) :
    listMask (Store.keys (arrivals e live src)) = live := by
  rw [keys_arrivals, listMask_lanesOf h.found]

/-- What stands of an engine when the results of its meeting have been given and the arrived lanes have been released. -/
theorem lanesOf_released {i : Issue} {e : Engine} {live : Dword} {x : Instance}
    {op : Engine → List (Nat × Lane) → Nat → Lane → Lane × Fx} {post : Engine → List (Nat × Lane) → Engine} {L : Store Lane}
    {S : List SbEntry} {h : Nat → Lane → Lane} (due : Nat) (pc : Word)
    (hpost : ∀ e arr L S, post (e.withLanes L S) arr = (post e arr).withLanes L S)
    (hL : ∀ k, L.find? k = (e.lanes.find? k).map (arrivedLane i live live k))
    (hlanes : (post (e.withLanes L S) (e.lanesOf live)).LanesOf (crossResult (e.withLanes L S) x).1
      (fun k l => if live.getLsbD k then h k l else l))
    (hsame : ∀ k l (pc : Word), live.getLsbD k = true → e.lanes.find? k = some l →
      { h k { l with status := .waiting, issued := true } with status := .ready, pc, issued := true } =
        { (op e (e.lanesOf live) k l).1 with
          fx := (op e (e.lanesOf live) k l).1.fx ||| (op e (e.lanesOf live) k l).2, status := .ready, pc, issued := true }) :
    (post e (e.lanesOf live)).LanesOf
      (((crossResult (e.withLanes L S) x).1.mapLanes live fun _ l => { l with status := .ready, pc, issued := true }).dueTag x.tag due)
      (fun k l =>
        if live.getLsbD k then
          { (op e (e.lanesOf live) k l).1 with
            fx := (op e (e.lanesOf live) k l).1.fx ||| (op e (e.lanesOf live) k l).2, status := .ready, pc, issued := true }
        else if i.lanes.getLsbD k then l.goneOn i else l) := by
  have hbase : (post (e.withLanes e.lanes e.sb) (e.lanesOf live)).lanes = e.lanes := by rw [hpost]; rfl
  change (post e (e.lanesOf live)).lanes = e.lanes at hbase
  rw [hpost] at hlanes
  obtain ⟨hrest, hlane⟩ := hlanes
  constructor
  · conv_lhs => rw [hrest]
    rfl
  · intro k
    change ((crossResult (e.withLanes L S) x).1.mapLanes live _).lanes.find? k = _
    rw [Engine.find?_mapLanes, hlane, hbase]
    change Option.map _ (Option.map _ (L.find? k)) = _
    rw [hL]
    cases hfind : e.lanes.find? k with
    | none => rfl
    | some l =>
      by_cases hk : live.getLsbD k = true
      · simpa [arrivedLane, hk] using hsame k l pc hk hfind
      · simp [arrivedLane, hk]

theorem completesAcross_of_crossLane {x : Instr} {g : Guard} {f : Info} {m : Nat} {cop : CrossOp} {src : Lane → Arrived}
    {op : Engine → List (Nat × Lane) → Nat → Lane → Lane × Fx} {post : Engine → List (Nat × Lane) → Engine}
    (hf : infoOf x = some f) (hg : f.guard = g) (hx : ∀ s, exec x s = crossLane f s (some m) cop src) (hop : answersAtOnce cop = true)
    (hpost : ∀ e arr L S, post (e.withLanes L S) arr = (post e arr).withLanes L S)
    (hgives : ∀ e live y L S, Present e live → y.op = cop → y.arrived = arrivals e live src → Gives e live y op post L S) :
    CompletesAcross x g m op post := by
  subst hg
  intro s i e live hiss hl hm
  have hfound : ∀ k, live.getLsbD k = true → (e.lanes.find? k).isSome = true := fun k hk => GangRegisters.isSome_of_executes hl hk
  have hpres := present_of_meets hm hfound
  let i' : Issue := { i with away := i.lanes &&& ~~~live }
  let y := opened s i' e live live (some m) cop src
  let e₁ := atMeeting f i' e live live y
  obtain ⟨⟨h, hlanes, hsame⟩, hraised⟩ := hgives e live y e₁.lanes e₁.sb hpres rfl rfl
  have hkeys : listMask (Store.keys y.arrived) = live := listMask_keys_arrivals hpres src
  have hclosed : { e₁ with open_ := e₁.open_.filter fun z => z.pc != y.pc } = e.withLanes e₁.lanes e₁.sb :=
    closed_atMeeting fun z hz => (hm.alone z hz).1
  have harr : y.arrived.isEmpty = false := by
    simpa [y, opened, arrivals] using lanesOf_ne_nil hpres
  have hexec : exec x s = .next ((withEngine s i.eng e₁).finishInstance i.eng e₁ y) := by
    rw [hx, crossLane, gated_spec hiss hf hl, if_neg fun hboth => hm.some_ hboth.1]
    exact congrArg _ (crossIssue_of_meets (i := i') ⟨hm.some_, hm.inMask, hm.fits, hm.rest, hm.alone⟩ hfound)
  rw [finishInstance_of_answersAtOnce hop harr hclosed, hkeys] at hexec
  have honly := onlyEngine_setEngine (e := ((crossResult (e.withLanes e₁.lanes e₁.sb) y).1.mapLanes live fun _ l =>
    { l with status := .ready, pc := y.pc + BitVec.ofNat 32 y.len, issued := true }).dueTag y.tag
      (s.clock.cyc + y.op.latency e.width)) (onlyEngine_withEngine (s := s) (e := e₁) i.eng)
  refine ⟨_, _, _, State.engine_setEngine_self _ _ _, honly, sameMemory_of_onlyEngine honly,
    lanesOf_released _ _ hpost (find?_atMeeting fun _ hk => hk) hlanes hsame, hraised, fun hquiet => ?_, fun hloud => ?_⟩
  · exact hexec.trans (congrArg _ (if_pos hquiet))
  · exact hexec.trans (congrArg _ (if_neg hloud))

/-! ## Votes and shuffles (R110, R111) -/

section Results

variable {e : Engine} {live : Dword} {y : Instance} {L : Store Lane} {S : List SbEntry}
  {op : Engine → List (Nat × Lane) → Nat → Lane → Lane × Fx}

theorem gives_of_mapLanes {h : Nat → Lane → Lane} {fl : Fx}
    (hres : crossResult (e.withLanes L S) y = ((e.withLanes L S).mapLanes live h, fl))
    (hsame : ∀ k l (pc : Word), live.getLsbD k = true → e.lanes.find? k = some l →
      { h k { l with status := .waiting, issued := true } with status := .ready, pc, issued := true } =
        { (op e (e.lanesOf live) k l).1 with
          fx := (op e (e.lanesOf live) k l).1.fx ||| (op e (e.lanesOf live) k l).2, status := .ready, pc, issued := true })
    (hraised : ∀ n, n < 6 → (fl.getLsbD n = true ↔
      ∃ k l, (k, l) ∈ e.lanesOf live ∧ (op e (e.lanesOf live) k l).2.getLsbD n = true)) :
    Gives e live y op (fun e _ => e) L S := by
  refine ⟨⟨h, ?_, hsame⟩, ?_⟩
  · rw [hres]
    exact Transfers.lanesOf_mapLanes (Transfers.lanesOf_self _) live h
  · rw [hres]
    exact hraised

/-- An operation that raises no flag. -/
theorem raises_nothing {f : Nat → Lane → Lane} (n : Nat) : (Fx.none.getLsbD n = true ↔
    ∃ k l, (k, l) ∈ e.lanesOf live ∧ (f k l, Fx.none).2.getLsbD n = true) := by
  have hnone : Fx.none.getLsbD n = false := BitVec.getLsbD_zero
  simp [hnone]

/-- The arrived lanes in which a vote's bit is set. -/
theorem filter_bitArrived (v : Lane → Bool) :
    ((arrivals e live fun l => bitArrived (v l)).filter fun p => p.2.a != 0) =
      ((e.lanesOf live).filter fun p => v p.2).map fun p => (p.1, bitArrived (v p.2)) := by
  have hbit : ∀ b, ((bitArrived b).a != 0) = b := by decide
  rw [arrivals, List.filter_map]
  congr 2
  funext p
  exact hbit _

theorem setPred_ready (l : Lane) (d : Nat) (b : Bool) (pc : Word) :
    { ({ l with status := .waiting, issued := true } : Lane).setPred d b with status := .ready, pc, issued := true } =
      { l.setPred d b with fx := (l.setPred d b).fx ||| Fx.none, status := .ready, pc, issued := true } := by
  have hnone : ∀ x : Fx, x ||| Fx.none = x := fun _ => BitVec.or_zero
  simp only [hnone, Lane.setPred]
  split <;> rfl

theorem setReg_ready (l : Lane) (d : Nat) (w pc : Word) :
    { ({ l with status := .waiting, issued := true } : Lane).setReg d w with status := .ready, pc, issued := true } =
      { l.setReg d w with fx := (l.setReg d w).fx ||| Fx.none, status := .ready, pc, issued := true } := by
  have hnone : ∀ x : Fx, x ||| Fx.none = x := fun _ => BitVec.or_zero
  simp only [hnone]
  rfl

theorem unchanged_ready (l : Lane) (pc : Word) :
    { ({ l with status := .waiting, issued := true } : Lane) with status := .ready, pc, issued := true } =
      { l with fx := l.fx ||| Fx.none, status := .ready, pc, issued := true } := by
  have hnone : ∀ x : Fx, x ||| Fx.none = x := fun _ => BitVec.or_zero
  rw [hnone]

section Votes

variable (v : Lane → Bool) (minor d : Nat)

theorem gives_voteAny (hpres : Present e live) (hminor : minor % 4 = 0) (hop : y.op = .vote minor d)
    (harr : y.arrived = arrivals e live fun l => bitArrived (v l)) :
    Gives e live y (fun _ arr _ l => (l.setPred d (arr.any fun p => v p.2), Fx.none)) (fun e _ => e) L S := by
  have hany : (!((e.lanesOf live).filter fun p => v p.2).isEmpty) = (e.lanesOf live).any fun p => v p.2 := by
    rw [Bool.eq_iff_iff, Bool.not_eq_true', List.isEmpty_eq_false_iff, ne_eq, List.filter_eq_nil_iff]
    simp
  refine gives_of_mapLanes (h := fun _ l => l.setPred d ((e.lanesOf live).any fun p => v p.2)) (fl := Fx.none) ?_
    (fun _ l pc _ _ => setPred_ready l d _ pc) fun n _ => raises_nothing n
  simp only [crossResult, hop, hminor, harr, filter_bitArrived, listMask_keys_arrivals hpres, List.isEmpty_map, hany]

theorem gives_voteAll (hpres : Present e live) (hminor : minor % 4 = 1) (hop : y.op = .vote minor d)
    (harr : y.arrived = arrivals e live fun l => bitArrived (v l)) :
    Gives e live y (fun _ arr _ l => (l.setPred d (arr.all fun p => v p.2), Fx.none)) (fun e _ => e) L S := by
  have hall : (((e.lanesOf live).filter fun p => v p.2).length == (e.lanesOf live).length) = (e.lanesOf live).all fun p => v p.2 := by
    rw [Bool.eq_iff_iff, beq_iff_eq, List.length_filter_eq_length_iff, List.all_eq_true]
  refine gives_of_mapLanes (h := fun _ l => l.setPred d ((e.lanesOf live).all fun p => v p.2)) (fl := Fx.none) ?_
    (fun _ l pc _ _ => setPred_ready l d _ pc) fun n _ => raises_nothing n
  have hlength : (arrivals e live fun l => bitArrived (v l)).length = (e.lanesOf live).length := List.length_map ..
  simp only [crossResult, hop, hminor, harr, filter_bitArrived, listMask_keys_arrivals hpres, List.length_map, hlength, hall]

theorem gives_voteCount (hpres : Present e live) (hminor : minor % 4 = 2) (hop : y.op = .vote minor d)
    (harr : y.arrived = arrivals e live fun l => bitArrived (v l)) :
    Gives e live y (fun _ arr _ l => (l.setReg d (BitVec.ofNat 32 (arr.countP fun p => v p.2)), Fx.none)) (fun e _ => e) L S := by
  refine gives_of_mapLanes (h := fun _ l => l.setReg d (BitVec.ofNat 32 ((e.lanesOf live).countP fun p => v p.2))) (fl := Fx.none) ?_
    (fun _ l pc _ _ => setReg_ready l d _ pc) fun n _ => raises_nothing n
  simp only [crossResult, hop, hminor, harr, filter_bitArrived, listMask_keys_arrivals hpres, List.length_map,
    List.countP_eq_length_filter]

/-- The mask of a ballot. -/
theorem listMask_ballot : listMask (((e.lanesOf live).filter fun p => v p.2).map Prod.fst) =
    (BitVec.ofBoolListLE ((List.range 64).map fun k => (e.lanesOf live).any fun p => p.1 == k && v p.2)).setWidth 64 := by
  refine BitVec.eq_of_getLsbD_eq fun k hk => ?_
  rw [getLsbD_listMask _ _ hk, BitVec.getLsbD_setWidth, BitVec.getLsbD_ofBoolListLE, Bool.eq_iff_iff]
  simp [hk, and_comm]

theorem gives_voteBallot (hminor : minor % 4 = 3) (hop : y.op = .vote minor d)
    (harr : y.arrived = arrivals e live fun l => bitArrived (v l)) :
    Gives e live y (fun _ _ _ l => (l, Fx.none)) (fun e arr =>
      e.setMask d ((BitVec.ofBoolListLE ((List.range 64).map fun k => arr.any fun p => p.1 == k && v p.2)).setWidth 64)) L S := by
  have hres : crossResult (e.withLanes L S) y = ((e.withLanes L S).setMask d
      ((BitVec.ofBoolListLE ((List.range 64).map fun k => (e.lanesOf live).any fun p => p.1 == k && v p.2)).setWidth 64), Fx.none) := by
    simp only [crossResult, hop, hminor, harr, filter_bitArrived, Store.keys, List.map_map, ← listMask_ballot]
    rfl
  refine ⟨⟨fun _ l => l, ?_, fun k l pc _ _ => ?_⟩, fun n _ => ?_⟩
  · rw [hres]
    exact Transfers.Engine.LanesOf.congr (Transfers.lanesOf_self _) fun _ l => (ite_self l).symm
  · exact unchanged_ready l pc
  · rw [hres]
    exact raises_nothing n

end Votes

theorem gives_rcv (hop : y.op = .rcv) : Gives e live y (fun _ _ _ l => (l, Fx.none)) (fun e _ => e) L S := by
  have hres : crossResult (e.withLanes L S) y = (e.withLanes L S, Fx.none) := by rw [crossResult, hop]
  refine ⟨⟨fun _ l => l, ?_, fun k l pc _ _ => unchanged_ready l pc⟩, fun n _ => ?_⟩
  · rw [hres]
    exact Transfers.Engine.LanesOf.congr (Transfers.lanesOf_self _) fun _ l => (ite_self l).symm
  · rw [hres]
    exact raises_nothing n

/-- What a lane presents is found at its number. -/
theorem find?_arrivals_eq_map (src : Lane → Arrived) (j : Nat) :
    (arrivals e live src).find? j = ((e.lanesOf live).find? fun p => p.1 == j).map fun p => src p.2 := by
  rw [arrivals]
  induction e.lanesOf live with
  | nil => rfl
  | cons p rest ih =>
    by_cases hj : p.1 = j
    · simp [Store.find?, hj]
    · simp [Store.find?, hj, ih]

/-- No lane beyond the width has arrived. -/
theorem find?_lanesOf_of_width_le (hpres : Present e live) {j : Nat} (hj : ¬ j < e.width) :
    ((e.lanesOf live).find? fun p => p.1 == j) = none := by
  refine List.find?_eq_none.mpr fun p hp heq => hj ?_
  obtain ⟨hlive, -⟩ := (Engine.mem_lanesOf e live p.1 p.2).mp hp
  exact beq_iff_eq.mp heq ▸ hpres.below p.1 hlive

/-- The lanes that a shuffle's source names in the model. -/
def shuffled (e : Engine) (arr : Store Arrived) (source : Option Nat) : Option Arrived :=
  source.bind fun j => if j < e.width then arr.find? j else none

theorem shuffled_arrivals (hpres : Present e live) (a b : Nat) (source : Option Nat) (own : Lane) :
    (((shuffled e (arrivals e live fun l => ⟨(l.reg a).setWidth 64, l.reg b⟩) source).getD ⟨(own.reg a).setWidth 64, own.reg b⟩).a.setWidth
        32 : Word) =
      ((source.bind fun j => (e.lanesOf live).find? fun p => p.1 == j).map fun p => p.2.reg a).getD (own.reg a) := by
  have hback : ∀ w : Word, (w.setWidth 64).setWidth 32 = w := fun w => by simp
  cases source with
  | none => exact hback _
  | some j =>
    simp only [shuffled, Option.bind_some]
    split
    · rw [find?_arrivals_eq_map]
      cases (e.lanesOf live).find? fun p => p.1 == j with
      | none => exact hback _
      | some p => exact hback _
    · next hj =>
      rw [find?_lanesOf_of_width_le hpres hj]
      exact hback _

theorem gives_shuffle {form a b d : Nat} (hpres : Present e live) (hop : y.op = .shfl form d)
    (harr : y.arrived = arrivals e live fun l => ⟨(l.reg a).setWidth 64, l.reg b⟩) :
    Gives e live y (fun _ arr k l => (l.setReg d ((((shuffleFrom form k (l.reg b).toNat).bind fun j => arr.find? fun p => p.1 == j).map
      fun p => p.2.reg a).getD (l.reg a)), Fx.none)) (fun e _ => e) L S := by
  refine gives_of_mapLanes (fl := Fx.none) (h := fun k l => match y.arrived.find? k with
    | some p => l.setReg d (((shuffled e y.arrived (shuffleFrom form k p.b.toNat)).getD p).a.setWidth 32)
    | none => l) ?_ (fun k l pc hk hfind => ?_) fun n _ => raises_nothing n
  · rw [crossResult, hop]
    simp only [harr, listMask_keys_arrivals hpres]
    rfl
  · have hown : y.arrived.find? k = some ⟨(l.reg a).setWidth 64, l.reg b⟩ := by rw [harr, find?_arrivals, if_pos hk, hfind]; rfl
    simp only [hown]
    rw [harr, shuffled_arrivals hpres a b _ l]
    exact setReg_ready l d _ pc

end Results

/-! ## Reductions and scans (R109, R112, R113) -/

section Passes

/-- A value of a 32-bit integer type fills its low half. -/
def Narrow (ty : Nat) (v : Dword) : Prop := ty < 2 → (v.setWidth 32).setWidth 64 = v

theorem narrow_word (ty : Nat) (w : Word) : Narrow ty (w.setWidth 64) := fun _ => by simp

theorem toInt_le_iff (x y : Dword) : x.toInt ≤ y.toInt ↔ ¬ y.slt x = true := by rw [BitVec.slt_iff_toInt_lt, not_lt]

theorem toNat_le_iff (x y : Dword) : x.toNat ≤ y.toNat ↔ ¬ y.ult x = true := by rw [BitVec.ult_iff_lt, BitVec.lt_def, not_lt]

/-- One step of the model's reduction is the statement's, and keeps values of a 32-bit integer type in their low half. -/
theorem redStep_eq_reduceStep (r : Rounding) {op : Nat} (hop : op < 3) (ty : Nat) {x y : Dword} (hx : Narrow ty x) (hy : Narrow ty y) :
    redStep r op ty x y = Spec.reduceStep r op ty x y ∧ Narrow ty (redStep r op ty x y).1 := by
  have hpacked : ∀ lo hi : Nat, lo + hi * 2 ^ 16 = lo + 65536 * hi := by omega
  match op, ty with
  | 0, 0 | 0, 1 => exact ⟨rfl, narrow_word _ _⟩
  | 0, 2 | 1, 2 | 2, 2 => exact ⟨rfl, fun h => absurd h (by decide)⟩
  | 0, 3 | 1, 3 | 2, 3 | 0, 4 | 1, 4 | 2, 4 =>
    refine ⟨?_, fun h => absurd h (by decide)⟩
    simp only [redStep, hpacked]
    rfl
  | 0, n + 5 => exact ⟨by simp [redStep, Spec.reduceStep], fun h => absurd h (by omega)⟩
  | 1, 0 | 2, 0 =>
    refine ⟨?_, narrow_word _ _⟩
    simp only [redStep, WordResults.minS_eq_ite, WordResults.maxS_eq_ite, apply_ite (BitVec.setWidth 64), hx (by decide), hy (by decide)]
    cases hless : (y.setWidth 32 : Word).slt (x.setWidth 32) <;> simp [Spec.reduceStep, hless]
  | 1, 1 | 2, 1 =>
    refine ⟨?_, narrow_word _ _⟩
    simp only [redStep, WordResults.minN_eq_ite, WordResults.maxN_eq_ite, ← BitVec.ult_iff_lt, apply_ite (BitVec.setWidth 64),
      hx (by decide), hy (by decide)]
    cases hless : (y.setWidth 32 : Word).ult (x.setWidth 32) <;> simp [Spec.reduceStep, hless]
  | 1, 5 | 2, 5 =>
    refine ⟨?_, fun h => absurd h (by decide)⟩
    cases hless : y.slt x <;> simp [redStep, Spec.reduceStep, toInt_le_iff, hless]
  | 1, n + 6 | 2, n + 6 =>
    refine ⟨?_, fun h => absurd h (by omega)⟩
    cases hless : y.ult x <;> simp [redStep, Spec.reduceStep, toNat_le_iff, hless]

theorem redPass_go_eq (r : Rounding) (op ty : Nat) (acc : Dword) (fl : Fx) (vs : List Dword) :
    redPass.go r op ty acc fl vs = (List.range (vs.length + 1)).map fun j =>
      (vs.take j).foldl (fun p y => ((redStep r op ty p.1 y).1, p.2 ||| (redStep r op ty p.1 y).2)) (acc, fl) := by
  induction vs generalizing acc fl with
  | nil => rfl
  | cons y rest ih =>
    rw [redPass.go, ih, List.length_cons, List.range_succ_eq_map (n := rest.length + 1)]
    simp [Function.comp_def]

/-- The pass holds, after each lane, the value of the pass over the lanes up to it. -/
theorem redPass_eq (r : Rounding) (op ty : Nat) (vs : List Dword) :
    redPass r op ty vs = (List.range vs.length).map fun j => Spec.pass (redStep r op ty) (vs.take (j + 1)) := by
  cases vs with
  | nil => rfl
  | cons x rest =>
    rw [redPass, redPass_go_eq]
    rfl

theorem pass_reduceStep (r : Rounding) {op : Nat} (hop : op < 3) (ty : Nat) {vs : List Dword} (hvs : ∀ v ∈ vs, Narrow ty v) :
    Spec.pass (redStep r op ty) vs = Spec.pass (Spec.reduceStep r op ty) vs := by
  cases vs with
  | nil => rfl
  | cons x rest =>
    have hfold : ∀ (l : List Dword) (acc : Dword) (fl : Fx), (∀ v ∈ l, Narrow ty v) → Narrow ty acc →
        l.foldl (fun p y => ((redStep r op ty p.1 y).1, p.2 ||| (redStep r op ty p.1 y).2)) (acc, fl) =
          l.foldl (fun p y => ((Spec.reduceStep r op ty p.1 y).1, p.2 ||| (Spec.reduceStep r op ty p.1 y).2)) (acc, fl) := by
      intro l
      induction l with
      | nil => intros; rfl
      | cons y l ih =>
        intro acc fl hl hacc
        obtain ⟨hstep, hnarrow⟩ := redStep_eq_reduceStep r hop ty hacc (hl y (List.mem_cons_self ..))
        rw [List.foldl_cons, List.foldl_cons, ← hstep]
        exact ih _ _ (fun v hv => hl v (List.mem_cons_of_mem _ hv)) hnarrow
    exact hfold rest x Fx.none (fun v hv => hvs v (List.mem_cons_of_mem _ hv)) (hvs x (List.mem_cons_self ..))

/-- Where a test picks the first `n` entries, filtering by it takes them. -/
theorem filter_eq_take {α : Type} {arr : List α} {p : α → Bool} {n : Nat} (h : ∀ (i : Nat) (hi : i < arr.length), p arr[i] = decide (i < n)) :
    arr.filter p = arr.take n := by
  induction arr generalizing n with
  | nil => simp
  | cons x rest ih =>
    have hx := h 0 (Nat.zero_lt_succ _)
    have hrest : ∀ (i : Nat) (hi : i < rest.length), p rest[i] = decide (i < n - 1) := by
      intro i hi
      have hi' := h (i + 1) (Nat.succ_lt_succ hi)
      rw [List.getElem_cons_succ] at hi'
      rw [hi', decide_eq_decide]
      omega
    cases n with
    | zero =>
      rw [List.filter_cons_of_neg (by simp [show p x = false from hx]), ih (n := 0) hrest]
      rfl
    | succ n => rw [List.filter_cons_of_pos (show p x = true from hx), ih (n := n) hrest, List.take_succ_cons]

section AscendingPairs

variable {α : Type} {arr : List (Nat × α)} (h : arr.Pairwise fun p q => p.1 < q.1)
include h

theorem getElem_fst_lt_iff {i j : Nat} (hi : i < arr.length) (hj : j < arr.length) : arr[i].1 < arr[j].1 ↔ i < j := by
  have hlt := List.pairwise_iff_getElem.mp h
  constructor
  · intro hij
    by_contra hle
    rcases (Nat.not_lt.mp hle).lt_or_eq with hji | rfl
    · exact absurd (hlt j i hj hi hji) (by omega)
    · exact absurd hij (lt_irrefl _)
  · exact hlt i j hi hj

/-- In an ascending list the entries up to one are the first ones. -/
theorem filter_le_eq_take {j : Nat} (hj : j < arr.length) : (arr.filter fun p => p.1 ≤ arr[j].1) = arr.take (j + 1) :=
  filter_eq_take fun i hi => by
    rw [decide_eq_decide, ← not_lt, getElem_fst_lt_iff h hj hi]
    omega

theorem filter_lt_eq_take {j : Nat} (hj : j < arr.length) : (arr.filter fun p => p.1 < arr[j].1) = arr.take j :=
  filter_eq_take fun i hi => by rw [decide_eq_decide, getElem_fst_lt_iff h hi hj]

end AscendingPairs

end Passes

section Reductions

variable {e : Engine} {live : Dword} {y : Instance} {L : Store Lane} {S : List SbEntry}

theorem getLastD_redPass (r : Rounding) (op ty : Nat) (vs : List Dword) :
    (redPass r op ty vs).getLastD (0, Fx.none) = Spec.pass (redStep r op ty) vs := by
  rw [redPass_eq]
  cases vs with
  | nil => rfl
  | cons x rest => simp [List.range_succ]

theorem wideType_iff (ty : Nat) : wideType ty = true ↔ ty = 5 ∨ ty = 6 := by simp [wideType]

/-- The values that the lanes of a mask present. -/
def values (e : Engine) (live : Dword) (ty a : Nat) : List Dword := (e.lanesOf live).map fun p => Spec.presents ty a p.2

theorem presents_eq (ty a : Nat) (l : Lane) : (regArrived ty a l).a = Spec.presents ty a l := by
  simp only [regArrived, Spec.presents, wideType_iff]

theorem vals_arrivals (ty a : Nat) : (Store.vals (arrivals e live (regArrived ty a))).map Arrived.a = values e live ty a := by
  simp only [Store.vals, arrivals, values, List.map_map]
  congr 1
  funext p
  exact presents_eq ty a p.2

theorem narrow_presents (ty a : Nat) (l : Lane) : Narrow ty (Spec.presents ty a l) := by
  intro hty
  have hwide : ¬ (ty = 5 ∨ ty = 6) := by omega
  rw [Spec.presents, if_neg hwide]
  simp

theorem narrow_values (arr : List (Nat × Lane)) (ty a : Nat) : ∀ v ∈ arr.map fun p => Spec.presents ty a p.2, Narrow ty v := by
  intro v hv
  obtain ⟨p, -, rfl⟩ := List.mem_map.mp hv
  exact narrow_presents ty a p.2

theorem setRed_ready (l : Lane) (ty d : Nat) (v : Dword) (fl : Fx) (pc : Word) :
    { (({ l with status := .waiting, issued := true } : Lane).setRed ty d v).raise fl with status := .ready, pc, issued := true } =
      { Spec.takes ty d l v with fx := (Spec.takes ty d l v).fx ||| fl, status := .ready, pc, issued := true } := by
  simp only [Lane.setRed, Spec.takes, wideType_iff]
  split <;> rfl

theorem raises_alike (hpres : Present e live) (fl : Fx) (f : Nat → Lane → Lane) (n : Nat) : (fl.getLsbD n = true ↔
    ∃ k l, (k, l) ∈ e.lanesOf live ∧ (f k l, fl).2.getLsbD n = true) := by
  obtain ⟨p, hp⟩ := List.exists_mem_of_ne_nil _ (lanesOf_ne_nil hpres)
  exact ⟨fun h => ⟨p.1, p.2, hp, h⟩, fun ⟨_, _, _, h⟩ => h⟩

theorem gives_reduction {op ty a d : Nat} (hlt : op < 3) (hpres : Present e live) (hop : y.op = .xred op ty d)
    (harr : y.arrived = arrivals e live (regArrived ty a)) :
    Gives e live y (fun e arr _ l =>
      let r := Spec.pass (Spec.reduceStep e.rounding op ty) (arr.map fun p => Spec.presents ty a p.2)
      (Spec.takes ty d l r.1, r.2)) (fun e _ => e) L S := by
  have hpass : Spec.pass (redStep e.rounding op ty) (values e live ty a) = Spec.pass (Spec.reduceStep e.rounding op ty) (values e live ty a) :=
    pass_reduceStep _ hlt ty (narrow_values _ ty a)
  refine gives_of_mapLanes (fl := (Spec.pass (Spec.reduceStep e.rounding op ty) (values e live ty a)).2)
    (h := fun _ l => (l.setRed ty d (Spec.pass (Spec.reduceStep e.rounding op ty) (values e live ty a)).1).raise
      (Spec.pass (Spec.reduceStep e.rounding op ty) (values e live ty a)).2) ?_
    (fun _ l pc _ _ => setRed_ready l ty d _ _ pc) fun n _ => raises_alike hpres _ _ n
  have hround : (e.withLanes L S).rounding = e.rounding := rfl
  simp only [crossResult, hop, harr, listMask_keys_arrivals hpres, vals_arrivals, getLastD_redPass, hround, hpass]

/-- A pass of a bitwise operation in the low halves is that of the operation on the whole values, and raises nothing. -/
theorem pass_logic {step : Dword → Dword → Dword × Fx} {f : Dword → Dword → Dword} {g : Word → Word → Word}
    (hstep : ∀ x z, step x z = ((g (x.setWidth 32) (z.setWidth 32)).setWidth 64, Fx.none))
    (hf : ∀ x z : Dword, (f x z).setWidth 32 = g (x.setWidth 32) (z.setWidth 32)) (vs : List Dword) :
    (Spec.pass step vs).1.setWidth 32 = ((Spec.pass (fun x y => (f x y, Fx.none)) vs).1.setWidth 32 : Word) ∧ (Spec.pass step vs).2 = Fx.none := by
  obtain rfl : step = fun x z => ((g (x.setWidth 32) (z.setWidth 32)).setWidth 64, Fx.none) := funext fun x => funext fun z => hstep x z
  have hfold : ∀ (rest : List Dword) (acc acc' : Dword), acc.setWidth 32 = (acc'.setWidth 32 : Word) →
      let low := rest.foldl (fun p y => ((g (p.1.setWidth 32) (y.setWidth 32)).setWidth 64, p.2 ||| Fx.none)) (acc, Fx.none)
      low.1.setWidth 32 = ((rest.foldl (fun p y => (f p.1 y, p.2 ||| Fx.none)) (acc', Fx.none)).1.setWidth 32 : Word) ∧ low.2 = Fx.none := by
    intro rest
    induction rest with
    | nil => exact fun _ _ h => ⟨h, rfl⟩
    | cons z rest ih =>
      intro acc acc' hacc
      have hnone : Fx.none ||| Fx.none = Fx.none := rfl
      simp only [List.foldl_cons, hnone]
      refine ih _ _ ?_
      rw [hf, hacc]
      simp
  cases vs with
  | nil => exact ⟨rfl, rfl⟩
  | cons x rest => exact hfold rest x x rfl

theorem gives_logic {n a d : Nat} {f : Dword → Dword → Dword} {g : Word → Word → Word} (hpres : Present e live)
    (hop : y.op = .xred 3 n d) (hn : n < 3) (harr : y.arrived = arrivals e live (regArrived 0 a))
    (hstep : ∀ r x z, redStep r 3 n x z = ((g (x.setWidth 32) (z.setWidth 32)).setWidth 64, Fx.none))
    (hf : ∀ x z : Dword, (f x z).setWidth 32 = g (x.setWidth 32) (z.setWidth 32)) :
    Gives e live y (fun _ arr _ l =>
      (l.setReg d ((Spec.pass (fun x y => (f x y, Fx.none)) (arr.map fun p => (p.2.reg a).setWidth 64)).1.setWidth 32), Fx.none))
      (fun e _ => e) L S := by
  have hvalues : values e live 0 a = (e.lanesOf live).map fun p => (p.2.reg a).setWidth 64 := by simp [values, Spec.presents]
  obtain ⟨hvalue, hflags⟩ := pass_logic (hstep e.rounding) hf ((e.lanesOf live).map fun p => (p.2.reg a).setWidth 64)
  have hnarrow : wideType n = false := Bool.eq_false_iff.mpr fun h => by have := (wideType_iff n).mp h; omega
  refine gives_of_mapLanes (fl := Fx.none)
    (h := fun _ l => (l.setRed n d (Spec.pass (redStep e.rounding 3 n)
      ((e.lanesOf live).map fun p => (p.2.reg a).setWidth 64)).1).raise Fx.none) ?_
    (fun _ l pc _ _ => ?_) fun n _ => raises_nothing n
  · have hround : (e.withLanes L S).rounding = e.rounding := rfl
    simp only [crossResult, hop, harr, listMask_keys_arrivals hpres, vals_arrivals, hvalues, getLastD_redPass, hround, hflags]
  · simp only [Lane.setRed, hnarrow, Bool.false_eq_true, if_false, hvalue]
    rfl

/-! ### Scans -/

/-- What a scan gives the lane `k`: the pass over the lanes before it, with it or without. -/
def scanned (step : Dword → Dword → Dword × Fx) (first : Option Dword) (ty a : Nat) (arr : List (Nat × Lane)) (k : Nat) : Dword × Fx :=
  let before := arr.filter fun p => if first.isSome then p.1 < k else p.1 ≤ k
  if before = [] then (first.getD 0, Fx.none) else Spec.pass step (before.map fun p => Spec.presents ty a p.2)

section Scans

variable {arr : List (Nat × Lane)} (h : arr.Pairwise fun p q => p.1 < q.1) (step : Dword → Dword → Dword × Fx) (ty a : Nat)
include h

theorem scanned_inclusive {j : Nat} (hj : j < arr.length) :
    scanned step none ty a arr arr[j].1 = Spec.pass step ((arr.map fun p => Spec.presents ty a p.2).take (j + 1)) := by
  have hbefore := filter_le_eq_take h hj
  simp only [scanned, Option.isSome_none, Bool.false_eq_true, if_false, hbefore, ← List.map_take]
  refine if_neg fun hnil => ?_
  have hzero : j + 1 = 0 ∨ arr.length = 0 := by simpa using List.take_eq_nil_iff.mp hnil
  omega

theorem scanned_exclusive (v : Dword) {j : Nat} (hj : j < arr.length) :
    scanned step (some v) ty a arr arr[j].1 =
      if j = 0 then (v, Fx.none) else Spec.pass step ((arr.map fun p => Spec.presents ty a p.2).take j) := by
  have hbefore := filter_lt_eq_take h hj
  simp only [scanned, Option.isSome_some, if_true, hbefore, Option.getD_some, ← List.map_take]
  refine if_congr ?_ rfl rfl
  rw [List.take_eq_nil_iff, ← List.length_eq_zero_iff]
  omega

theorem redPass_eq_map (r : Rounding) (op : Nat) :
    redPass r op ty (arr.map fun p => Spec.presents ty a p.2) = arr.map fun p => scanned (redStep r op ty) none ty a arr p.1 := by
  rw [redPass_eq, List.length_map]
  refine List.ext_getElem (by simp) fun j _ hj => ?_
  have hj' : j < arr.length := by simpa using hj
  simp [scanned_inclusive h _ ty a hj']

theorem cons_dropLast_redPass_eq_map (r : Rounding) (op : Nat) (v : Dword) (hne : arr ≠ []) :
    (v, Fx.none) :: (redPass r op ty (arr.map fun p => Spec.presents ty a p.2)).dropLast =
      arr.map fun p => scanned (redStep r op ty) (some v) ty a arr p.1 := by
  have hpos : 0 < arr.length := List.length_pos_iff.mpr hne
  rw [redPass_eq, List.length_map]
  refine List.ext_getElem (by simp; omega) fun j _ hj => ?_
  have hj' : j < arr.length := by simpa using hj
  rw [List.getElem_map, scanned_exclusive h _ ty a v hj']
  cases j with
  | zero => rfl
  | succ j => simp

end Scans

/-- The scan of a step of the model is that of the statement's step. -/
theorem scanned_reduceStep (r : Rounding) {op : Nat} (hop : op < 3) (first : Option Dword) (ty a : Nat) (arr : List (Nat × Lane)) (k : Nat) :
    scanned (redStep r op ty) first ty a arr k = scanned (Spec.reduceStep r op ty) first ty a arr k := by
  simp only [scanned, pass_reduceStep r hop ty (narrow_values _ ty a)]

/-- What the lanes of a mask are given by their numbers is found at their numbers. -/
theorem find?_map_lanesOf {α : Type} (R : Nat → α) {k : Nat} {l : Lane} (hk : live.getLsbD k = true) (hfind : e.lanes.find? k = some l) :
    Store.find? ((e.lanesOf live).map fun p => (p.1, R p.1)) k = some (R k) := by
  refine (find?_eq_some_iff_mem (m := (e.lanesOf live).map fun p => (p.1, R p.1)) (List.pairwise_map.mpr (lanesOf_ascending e live)) k (R k)).mpr ?_
  exact List.mem_map.mpr ⟨(k, l), (Engine.mem_lanesOf e live k l).mpr ⟨hk, hfind⟩, rfl⟩

/-- The values of a completed scan, lane by lane. -/
theorem scanPass_eq {form o ty a : Nat} {first : Option Dword} (r : Rounding) (hlt : o < 3) (hpres : Present e live)
    (ho : (if form < 2 then 0 else 2) = o)
    (hform : first = if form % 2 = 0 then none else some (scanIdentity (decide (2 ≤ form)) ty)) :
    (if form % 2 = 0 then redPass r (if form < 2 then 0 else 2) ty (values e live ty a)
      else (scanIdentity (decide (2 ≤ form)) ty, Fx.none) :: (redPass r (if form < 2 then 0 else 2) ty (values e live ty a)).dropLast) =
      (e.lanesOf live).map fun p => scanned (Spec.reduceStep r o ty) first ty a (e.lanesOf live) p.1 := by
  subst ho hform
  simp only [← scanned_reduceStep r hlt]
  split
  · exact redPass_eq_map (lanesOf_ascending e live) ty a r _
  · exact cons_dropLast_redPass_eq_map (lanesOf_ascending e live) ty a r _ _ (lanesOf_ne_nil hpres)

theorem gives_scan {form o ty a d : Nat} {first : Option Dword} (hlt : o < 3) (hpres : Present e live) (hop : y.op = .xscan form ty d)
    (harr : y.arrived = arrivals e live (regArrived ty a)) (ho : (if form < 2 then 0 else 2) = o)
    (hform : first = if form % 2 = 0 then none else some (scanIdentity (decide (2 ≤ form)) ty)) :
    Gives e live y (fun e arr k l =>
      (Spec.takes ty d l (scanned (Spec.reduceStep e.rounding o ty) first ty a arr k).1,
        (scanned (Spec.reduceStep e.rounding o ty) first ty a arr k).2)) (fun e _ => e) L S := by
  have hround : (e.withLanes L S).rounding = e.rounding := rfl
  have hkeys : Store.keys (arrivals e live (regArrived ty a)) = (e.lanesOf live).map Prod.fst := keys_arrivals ..
  have hmask : listMask ((e.lanesOf live).map Prod.fst) = live := listMask_lanesOf hpres.found
  have hpass := scanPass_eq (a := a) e.rounding hlt hpres ho hform
  generalize hR : scanned (Spec.reduceStep e.rounding o ty) first ty a (e.lanesOf live) = R at hpass ⊢
  refine gives_of_mapLanes (fl := fxOr ((e.lanesOf live).map fun p => (R p.1).2))
    (h := fun k l => match Store.find? ((e.lanesOf live).map fun p => (p.1, R p.1)) k with
      | some p => (l.setRed ty d p.1).raise p.2
      | none => l) ?_ (fun k l pc hk hfind => ?_) fun n _ => ?_
  · rw [crossResult, hop]
    simp only [harr, vals_arrivals, hround, hpass, hkeys, hmask, List.zip_map', List.map_map]
    rfl
  · simp only [find?_map_lanesOf R hk hfind, hR]
    exact setRed_ready l ty d _ _ pc
  · rw [getLsbD_fxOr]
    simp [hR]

end Reductions

/-! ## The instructions -/

/-- A vote, shuffle, reduction or scan: what is left is what its meeting gives. -/
theorem completes_alone {x : Instr} {g : Guard} {f : Info} {m : Nat} {cop : CrossOp} {src : Lane → Arrived}
    {op : Engine → List (Nat × Lane) → Nat → Lane → Lane × Fx} (hf : infoOf x = some f) (hg : f.guard = g)
    (hx : ∀ s, exec x s = crossLane f s (some m) cop src) (hop : answersAtOnce cop = true)
    (hgives : ∀ e live y L S, Present e live → y.op = cop → y.arrived = arrivals e live src → Gives e live y op (fun e _ => e) L S) :
    CompletesAcross x g m op fun e _ => e :=
  completesAcross_of_crossLane hf hg hx hop (fun _ _ _ _ => rfl) hgives

/-- What an exclusive maximum scan gives the lowest lane (R113). -/
theorem scanIdentity_max (ty : Nat) :
    scanIdentity true ty = if ty = 0 then 0x80000000 else if ty = 2 then 0xFF800000 else if ty = 5 then 0x8000000000000000 else 0 := by
  match ty with
  | 0 | 1 | 2 | 3 | 4 | 5 => rfl
  | n + 6 => simp [scanIdentity]

theorem votes : Spec.Votes := by
  intro g b a d
  refine ⟨⟨?anyP, ?allP, ?countP, ?ballotP⟩, ?anyFx, ?allFx, ?countFx, ?ballotFx⟩
  case anyP | anyFx => exact completes_alone rfl rfl (fun _ => rfl) rfl fun _ _ _ _ _ hpres => gives_voteAny _ _ _ hpres rfl
  case allP | allFx => exact completes_alone rfl rfl (fun _ => rfl) rfl fun _ _ _ _ _ hpres => gives_voteAll _ _ _ hpres rfl
  case countP | countFx => exact completes_alone rfl rfl (fun _ => rfl) rfl fun _ _ _ _ _ hpres => gives_voteCount _ _ _ hpres rfl
  case ballotP | ballotFx =>
    exact completesAcross_of_crossLane rfl rfl (fun _ => rfl) rfl (fun _ _ _ _ => rfl) fun _ _ _ _ _ _ => gives_voteBallot _ _ _ rfl

theorem shuffles : Spec.Shuffles := by
  intro g m b a d
  refine ⟨?_, ?_, ?_, ?_⟩ <;> exact completes_alone rfl rfl (fun _ => rfl) rfl fun _ _ _ _ _ hpres => gives_shuffle hpres

theorem reductionsAndScans : Spec.ReductionsAndScans := by
  intro g m b a d
  refine ⟨?add, ?min, ?max, ?and, ?or, ?xor, ?addInc, ?addExc, ?maxInc, ?maxExc⟩
  case add | min | max =>
    exact completes_alone rfl rfl (fun _ => rfl) rfl fun _ _ _ _ _ hpres => gives_reduction (by decide) hpres
  case and =>
    exact completes_alone rfl rfl (fun _ => rfl) rfl fun _ _ _ _ _ hpres hop harr =>
      gives_logic hpres hop (by decide) harr (fun _ _ _ => rfl) fun _ _ => BitVec.setWidth_and
  case or =>
    exact completes_alone rfl rfl (fun _ => rfl) rfl fun _ _ _ _ _ hpres hop harr =>
      gives_logic hpres hop (by decide) harr (fun _ _ _ => rfl) fun _ _ => BitVec.setWidth_or
  case xor =>
    exact completes_alone rfl rfl (fun _ => rfl) rfl fun _ _ _ _ _ hpres hop harr =>
      gives_logic hpres hop (by decide) harr (fun _ _ _ => rfl) fun _ _ => BitVec.setWidth_xor
  case addInc | addExc | maxInc =>
    exact completes_alone rfl rfl (fun _ => rfl) rfl fun _ _ _ _ _ hpres hop harr =>
      gives_scan (by decide) hpres hop harr rfl rfl
  case maxExc =>
    refine completes_alone rfl rfl (fun _ => rfl) rfl fun _ _ _ _ _ hpres hop harr => gives_scan (by decide) hpres hop harr rfl ?_
    refine congrArg some (Eq.trans ?_ (scanIdentity_max b).symm)
    simp only [Fin.ext_iff]
    rfl

end Sys2Proof.Arrivals

open Sys2Proof Sys2Proof.Machine Sys2Proof.Arrivals

/-- Settles O17: the lanes that arrive at one issue are those of the mask, and the completed meeting gives each of them its value. -/
theorem crossLaneInstructions : Obligations.CrossLaneInstructions := ⟨votes, shuffles, reductionsAndScans⟩

end

section
/-! PROOFS. Traps, stops and regions: `trap`, `brk`, `halt` and `rgn`, and the abort of a region (O23). -/

namespace Sys2Proof.Stopping
open Sys2Proof.Machine Sys2Proof.Arrivals

/-! ## Gang instructions (R140) -/

section Gangs

variable {s : State} {x : Instr} {f : Info} {i : Issue} {e : Engine} {live : Dword} {k : Issue → Engine → Dword → Out}
  (hiss : s.Issues x i e) (hf : infoOf x = some f) (hl : e.Executes i f.guard live) (hx : exec x s = gang f s k)
include hiss hf hl hx

theorem exec_of_none (h : live = 0) : exec x s = .next (s.setEngine i.eng (e.advance i)) := by
  rw [hx, gang, gated_spec hiss hf hl, if_pos h]
  rfl

theorem exec_of_some (h : live ≠ 0) : exec x s = k { i with away := i.lanes &&& ~~~live } e live := by
  rw [hx, gang, gated_spec hiss hf hl, if_neg h]

end Gangs

/-! ### What each of the instructions does once some lane takes part -/

section Forms

variable (g : Guard) (b : Fin 64) (s : State)

theorem exec_trap : exec (.trap g b) s = gang (infoTrap g b) s fun i _ live => .next (s.trap i .trapi live 0 b) := rfl

theorem exec_brk : exec (.brk g b) s = gang (infoBrk g b) s fun i e live =>
    if (s.context e.ctx).attached then .next ((s.passAway i).stopLanes i.eng live .bkpt b) else .next (s.trap i .bkpt live 0 b) := rfl

theorem exec_halt : exec (.halt g) s = gang (infoHalt g) s fun i e _ => .next ((s.setEngine i.eng (e.advance i)).haltEngine i.eng) := rfl

theorem exec_rgn : exec (.rgn g) s = gang (infoRgn g) s fun i _ live => .next ((s.commitIssue i).modEngine i.eng fun e =>
    e.mapLanes live fun _ l => { l with pc := i.next, restart := i.pc, issued := false }) := rfl

theorem exec_exit : exec (.exit g) s = gang (infoExit g) s fun i e live =>
    .next (if e.isSeq then (s.commitIssue i).lanesLeave i.eng live .exited
      else ((s.commitIssue i).lanesLeave i.eng live .exited).countExits (e.lanesOf live)) := rfl

end Forms

/-! ## What lies outside memory -/

theorem sameMemory_of_eq {s t : State} (hmem : t.mem = s.mem) (hxlat : t.xlat = s.xlat) : s.sameMemory t := by
  intro loc hloc
  simp only [State.readHome, if_pos hloc, State.cellOf, hmem, hxlat]

/-- A state that differs in contexts and the host interface alone, where a context still is not traced. -/
structure OnlyNotices (c : Nat) (s t : State) : Prop where
  work : t.work = s.work
  mem : t.mem = s.mem
  xlat : t.xlat = s.xlat
  untraced : (s.context c).traceLen = 0 → (t.context c).traceLen = 0

theorem OnlyNotices.refl (c : Nat) (s : State) : OnlyNotices c s s := ⟨rfl, rfl, rfl, id⟩

theorem OnlyNotices.trans {c : Nat} {s t u : State} (h : OnlyNotices c s t) (h' : OnlyNotices c t u) : OnlyNotices c s u :=
  ⟨h'.work.trans h.work, h'.mem.trans h.mem, h'.xlat.trans h.xlat, fun hs => h'.untraced (h.untraced hs)⟩

theorem onlyNotices_modContext (c : Nat) (s : State) {f : Context → Context} (hf : ∀ x, (f x).traceLen = x.traceLen) :
    OnlyNotices c s (s.modContext c f) := by
  cases hfind : s.ctxs.table.find? c with
  | none => simpa [State.modContext, hfind] using OnlyNotices.refl c s
  | some x =>
    have hmod : s.modContext c f = s.setContext c (f x) := by rw [State.modContext, hfind]
    rw [hmod]
    refine ⟨rfl, rfl, rfl, fun h => ?_⟩
    rw [State.context, hfind] at h
    rw [State.find?_setContext_self, hf]
    exact h

theorem onlyNotices_notify (c : Nat) (s : State) (bytes : List Byte) : OnlyNotices c s (s.notify bytes) := by
  unfold State.notify
  dsimp only
  split
  · exact ⟨rfl, rfl, rfl, id⟩
  · split <;> exact ⟨rfl, rfl, rfl, id⟩

theorem trace_eq_self {c : Nat} {s : State} (h : (s.context c).traceLen = 0) (kind : Nat) (body : List Byte) : s.trace c kind body = s := by
  simp only [State.trace, h, true_or, if_true]

/-- A context with one more stop frame, of which it keeps the 64 most recent. -/
def withStop (f : FrameImage) (c : Context) : Context := { c with stops := (c.stops ++ [f]).drop (c.stops.length - 63) }

/-- A stop frame of a context that is not traced changes the context and the host's queue alone. -/
theorem onlyNotices_stopFrame {s : State} {e : Engine} (h : (s.context e.ctx).traceLen = 0) (eng : Nat) (cause : Cause) (lanes : Dword)
    (pc : Word) (detail : Nat) : OnlyNotices e.ctx s (s.stopFrame eng e cause lanes pc detail) := by
  let f := e.frame { eng, cause, lanes, pc, insn := s.insnAt e.ctx pc.toNat, faddr := 0, detail } (e.frameFlags e.inHandler false false)
  have hctx : OnlyNotices e.ctx s (s.modContext e.ctx (withStop f)) := onlyNotices_modContext e.ctx s fun _ => rfl
  have hframe : s.stopFrame eng e cause lanes pc detail =
      ((s.modContext e.ctx (withStop f)).trace e.ctx 3 f).notify (padTo 32 (Config.notice 2 eng pc.toNat)) := rfl
  rw [hframe, trace_eq_self (hctx.untraced h)]
  exact hctx.trans (onlyNotices_notify _ _ _)

theorem onlyNotices_foldl {α : Type} {c : Nat} {f : State → α → State} (l : List α) {s : State} (hs : (s.context c).traceLen = 0)
    (hf : ∀ s x, (s.context c).traceLen = 0 → OnlyNotices c s (f s x)) : OnlyNotices c s (l.foldl f s) := by
  induction l generalizing s with
  | nil => exact .refl c s
  | cons x l ih => exact (hf s x hs).trans (ih ((hf s x hs).untraced hs))

/-! ## Lanes that stop (R433) -/

/-- A lane that a stop reaches: it stops if it is live. -/
def stopping (lanes : Dword) (k : Nat) (l : Lane) : Lane := if lanes.getLsbD k && l.live then { l with stopped := true } else l

/-- Lanes stop: nothing else of the engine changes, and no memory. -/
theorem stopLanes_spec {s : State} {n : Nat} {e : Engine} (heng : s.engine n = some e) (h : (s.context e.ctx).traceLen = 0) (lanes : Dword)
    (cause : Cause) (detail : Nat) : ∃ e', (s.stopLanes n lanes cause detail).engine n = some e' ∧
      s.sameMemory (s.stopLanes n lanes cause detail) ∧ ∀ k, e'.lanes.find? k = (e.lanes.find? k).map (stopping lanes k) := by
  let here := (e.lanesOf lanes).filter fun kl => kl.2.live && !kl.2.stopped
  let e' := e.mapLanes (listMask (here.map Prod.fst)) fun _ l => { l with stopped := true }
  have honly : OnlyNotices e.ctx (s.setEngine n e') (s.stopLanes n lanes cause detail) := by
    rw [State.stopLanes, heng]
    exact onlyNotices_foldl _ h fun u pc hu => onlyNotices_stopFrame hu ..
  refine ⟨e', ?_, sameMemory_of_eq honly.mem honly.xlat, fun k => ?_⟩
  · rw [State.engine, honly.work]
    exact State.engine_setEngine_self s n e'
  · rw [Engine.find?_mapLanes]
    refine Option.map_congr fun l hfind => ?_
    by_cases hk : k < 64
    · have hmem : (listMask (here.map Prod.fst)).getLsbD k = (lanes.getLsbD k && l.live && !l.stopped) := by
        rw [getLsbD_listMask _ _ hk, Bool.eq_iff_iff]
        simp [here, Engine.mem_lanesOf, hfind, and_assoc]
      rw [hmem, stopping]
      cases hstopped : l.stopped <;> cases lanes.getLsbD k && l.live <;> simp [← hstopped]
    · simp [stopping, BitVec.getLsbD_of_ge _ k (Nat.le_of_not_lt hk)]

theorem mem_of_find? {α : Type} {m : Store α} {k : Nat} {v : α} (h : m.find? k = some v) : (k, v) ∈ m := by
  induction m with
  | nil => exact absurd h (by simp [Store.find?])
  | cons x m ih =>
    obtain ⟨a, w⟩ := x
    rw [Store.find?] at h
    split at h
    · next ha =>
      obtain rfl := ha
      obtain rfl := Option.some.inj h
      exact List.mem_cons_self ..
    · exact List.mem_cons_of_mem _ (ih h)

theorem getLsbD_lanesWhere {e : Engine} {p : Nat → Lane → Bool} {k : Nat} {l : Lane} (hk : k < 64) (hfind : e.lanes.find? k = some l)
    (hp : p k l = true) : (e.lanesWhere p).getLsbD k = true := by
  have hmem := mem_of_find? hfind
  rw [Engine.lanesWhere, getLsbD_listMask _ _ hk, List.contains_iff_mem]
  exact List.mem_map.mpr ⟨(k, l), List.mem_filter.mpr ⟨hmem, hp⟩, rfl⟩

/-! ## Commit points (R308, R311) -/

theorem onlyEngine_self (s : State) (n : Nat) : s.onlyEngine s n := ⟨fun _ _ => rfl, rfl⟩

theorem onlyEngine_modEngine {s t : State} {n : Nat} (h : s.onlyEngine t n) (f : Engine → Engine) : s.onlyEngine (t.modEngine n f) n := by
  unfold State.modEngine
  split
  · exact onlyEngine_setEngine h
  · exact h

theorem engine_modEngine_self {s : State} {n : Nat} {e : Engine} (h : s.engine n = some e) (f : Engine → Engine) :
    (s.modEngine n f).engine n = some (f e) := by
  rw [State.engine_modEngine, if_pos rfl, h]
  rfl

theorem mapKV_self {α : Type} (m : Store α) : (m.mapKV fun _ v => v) = m := by
  induction m with
  | nil => rfl
  | cons x m ih => rw [Store.mapKV, ih]

@[simp] theorem goneOn_away (l : Lane) (i : Issue) (m : Dword) : l.goneOn { i with away := m } = l.goneOn i := rfl

theorem passAway_spec {s : State} {i : Issue} {e : Engine} (heng : s.engine i.eng = some e) :
    (s.passAway i).engine i.eng = some (e.mapLanes i.away fun _ l => l.goneOn i) ∧ s.onlyEngine (s.passAway i) i.eng := by
  by_cases h : i.away = 0
  · have hself : (e.mapLanes i.away fun _ l => l.goneOn i) = e := by
      have hlanes : e.lanes.mapKV (fun k l => if (0 : Dword).getLsbD k then l.goneOn i else l) = e.lanes := by
        simpa using mapKV_self e.lanes
      rw [h, Engine.mapLanes, hlanes]
    rw [hself, State.passAway, if_pos h]
    exact ⟨heng, onlyEngine_self s _⟩
  · rw [State.passAway, if_neg h]
    exact ⟨engine_modEngine_self heng _, onlyEngine_modEngine (onlyEngine_self s _) _⟩

/-- An engine whose empty store buffer is committed: the releases that stood before it hold their lanes behind the stores on their way. -/
def committed (e : Engine) (tags : List Nat) : Engine := { e with sb := e.sb.flatMap (SbEntry.committed tags) }

theorem commit_spec {s : State} {n : Nat} {e : Engine} (heng : s.engine n = some e) (hbeats : e.beats = []) :
    (s.commit n).engine n = some (committed e (s.storeTags n)) ∧ s.onlyEngine (s.commit n) n := by
  rw [State.commit, heng]
  simp only [hbeats, State.performBeats]
  refine ⟨(engine_modEngine_self heng _).trans (congrArg some ?_), onlyEngine_modEngine (onlyEngine_self s n) _⟩
  simp only [committed, stampBeats, hbeats, List.zipIdx_nil, List.map_nil, List.append_nil]

theorem onlyEngine_trans {s t u : State} {n : Nat} (h : s.onlyEngine t n) (h' : t.onlyEngine u n) : s.onlyEngine u n := by
  refine ⟨fun j hj => (h'.1 j hj).trans (h.1 j hj), ?_⟩
  conv_lhs => rw [h'.2, h.2]

/-- A commit point with an empty store buffer counts, and its lanes whose guard is false go on. -/
theorem commitIssue_spec {s : State} {i : Issue} {e : Engine} (heng : s.engine i.eng = some e) (hbeats : e.beats = []) :
    (s.commitIssue i).engine i.eng =
        some ((committed e (s.storeTags i.eng)).countEntry.mapLanes i.away fun _ l => l.goneOn i) ∧
      s.onlyEngine (s.commitIssue i) i.eng := by
  obtain ⟨hcommit, honly⟩ := commit_spec heng hbeats
  have hcounted := engine_modEngine_self hcommit Engine.countEntry
  obtain ⟨haway, honly'⟩ := passAway_spec (i := i) hcounted
  exact ⟨haway, onlyEngine_trans (onlyEngine_modEngine honly _) honly'⟩

/-! ## The abort of a region (R311, R313) -/

theorem rewind_spec {s : State} {n : Nat} {e : Engine} (heng : s.engine n = some e) :
    ∃ e', (s.rewind n).engine n = some e' ∧ e'.beats = [] ∧ e'.sregs = e.sregs ∧ e'.masks = e.masks ∧ e'.regions = e.regions ∧
      ∀ k, e'.lanes.find? k = (e.lanes.find? k).map fun l => if (s.movedLanes e).getLsbD k then
        { l with pc := s.restartOf n k l, restart := s.restartOf n k l, issued := false, status := .ready } else l := by
  rw [State.rewind, heng]
  exact ⟨_, State.engine_setEngine_self s n _, rfl, rfl, rfl, rfl, fun k => Engine.find?_mapLanes e _ _ k⟩

/-! ## The instructions -/

theorem rewinds (s : State) (n : Nat) (e : Engine) (heng : s.engine n = some e) :
    ∃ e', (s.rewind n).engine n = some e' ∧ e'.beats = [] ∧ e'.sregs = e.sregs ∧ e'.masks = e.masks ∧ e'.regions = e.regions ∧
    ∀ k l, e.lanes.find? k = some l → ∃ l', e'.lanes.find? k = some l' ∧ l'.regs = l.regs ∧ l'.preds = l.preds ∧ l'.fx = l.fx ∧
      l'.dists = l.dists ∧ ((s.movedLanes e).getLsbD k = false → l' = l) ∧
      ((s.movedLanes e).getLsbD k = true → s.farUnderWay n k l.restart.toNat = false → l'.pc = l.restart ∧ l'.issued = false) := by
  obtain ⟨e', he', hbeats, hsregs, hmasks, hregions, hlanes⟩ := rewind_spec heng
  refine ⟨e', he', hbeats, hsregs, hmasks, hregions, fun k l hfind => ?_⟩
  rw [hlanes, hfind]
  refine ⟨_, rfl, ?_⟩
  cases (s.movedLanes e).getLsbD k with
  | false => simp
  | true => simp +contextual [State.restartOf]

section Instructions

variable (g : Guard) (b : Fin 64) {s : State} {i : Issue} {e : Engine} {live : Dword} (hl : e.Executes i g live)
include hl

theorem goesOn_of_none (h : live = 0) : ∀ x ∈ [Instr.trap g b, .brk g b, .halt g, .rgn g, .exit g], s.Issues x i e →
    ∃ e', exec x s = .next (s.setEngine i.eng e') ∧ e.LanesOf e' fun k l => if i.lanes.getLsbD k then l.goneOn i else l := by
  intro x hx hiss
  refine ⟨e.advance i, ?_, Transfers.lanesOf_advance e i⟩
  simp only [List.mem_cons, List.not_mem_nil, or_false] at hx
  rcases hx with rfl | rfl | rfl | rfl | rfl
  · exact exec_of_none hiss rfl hl (exec_trap g b s) h
  · exact exec_of_none hiss rfl hl (exec_brk g b s) h
  · exact exec_of_none hiss rfl hl (exec_halt g s) h
  · exact exec_of_none hiss rfl hl (exec_rgn g s) h
  · exact exec_of_none hiss rfl hl (exec_exit g s) h

theorem brk_stops (hiss : s.Issues (.brk g b) i e) (h : live ≠ 0) (hattached : (s.context e.ctx).attached = true)
    (htrace : (s.context e.ctx).traceLen = 0) : ∃ t e', exec (.brk g b) s = .next t ∧ t.engine i.eng = some e' ∧ s.sameMemory t ∧
      ∀ k l, e.lanes.find? k = some l → e'.lanes.find? k = some (
        if live.getLsbD k then (if l.live then { l with stopped := true } else l) else if i.lanes.getLsbD k then l.goneOn i else l) := by
  let j := { i with away := i.lanes &&& ~~~live }
  obtain ⟨haway, honly⟩ := passAway_spec (i := j) hiss.eng
  have hctx : ((s.passAway j).context e.ctx).traceLen = 0 := by rw [honly.2]; exact htrace
  obtain ⟨e', heng, hsame, hlanes⟩ := stopLanes_spec haway hctx live .bkpt b
  refine ⟨_, e', ?_, heng, fun loc hloc => (hsame loc hloc).trans (sameMemory_of_onlyEngine honly loc hloc), fun k l hfind => ?_⟩
  · exact (exec_of_some hiss rfl hl (exec_brk g b s) h).trans (if_pos hattached)
  · rw [hlanes, Engine.find?_mapLanes, hfind, Option.map_some, Option.map_some, getLsbD_away, stopping]
    cases live.getLsbD k <;> simp [j]

theorem halt_stops (hiss : s.Issues (.halt g) i e) (h : live ≠ 0) (htrace : (s.context e.ctx).traceLen = 0) :
    ∃ t e', exec (.halt g) s = .next t ∧ t.engine i.eng = some e' ∧ s.sameMemory t ∧
      (e.inHandler = true → e'.haltPend = true ∧
        ∀ k, e'.lanes.find? k = (e.lanes.find? k).map fun l => if i.lanes.getLsbD k then l.goneOn i else l) ∧
      (e.inHandler = false → ∀ k l, k < 64 → e.lanes.find? k = some l →
        e'.lanes.find? k = some (if l.live then { (if i.lanes.getLsbD k then l.goneOn i else l) with stopped := true } else
          if i.lanes.getLsbD k then l.goneOn i else l)) := by
  let s₁ := s.setEngine i.eng (e.advance i)
  have heng₁ : s₁.engine i.eng = some (e.advance i) := State.engine_setEngine_self ..
  have hlanes₁ := (Transfers.lanesOf_advance e i).lane
  have hexec : exec (.halt g) s = .next (s₁.haltEngine i.eng) := exec_of_some hiss rfl hl (exec_halt g s) h
  have hsame₁ : s.sameMemory s₁ := fun loc hloc => State.setEngine_readHome s i.eng _ hloc
  cases hin : e.inHandler with
  | true =>
    have hhalt : s₁.haltEngine i.eng = s₁.setEngine i.eng { e.advance i with haltPend := true } := by
      rw [State.haltEngine, heng₁]
      exact if_pos hin
    rw [hhalt] at hexec
    exact ⟨_, _, hexec, State.engine_setEngine_self .., fun loc hloc => (State.setEngine_readHome s₁ i.eng _ hloc).trans (hsame₁ loc hloc),
      fun _ => ⟨rfl, hlanes₁⟩, fun hout => absurd hout (by decide)⟩
  | false =>
    let lanes := (e.advance i).lanesWhere fun _ l => l.live
    have hhalt : s₁.haltEngine i.eng = s₁.stopLanes i.eng lanes .halt 0 := by
      rw [State.haltEngine, heng₁]
      exact if_neg (by rw [show (e.advance i).inHandler = false from hin]; decide)
    obtain ⟨e', heng, hsame, hlanes⟩ := stopLanes_spec heng₁ htrace lanes .halt 0
    rw [hhalt] at hexec
    refine ⟨_, e', hexec, heng, fun loc hloc => (hsame loc hloc).trans (hsame₁ loc hloc), fun hin => absurd hin (by decide),
      fun _ k l hk hfind => ?_⟩
    have hadv : (e.advance i).lanes.find? k = some (if i.lanes.getLsbD k then l.goneOn i else l) := by rw [hlanes₁, hfind]; rfl
    have hlive : (if i.lanes.getLsbD k then l.goneOn i else l).live = l.live := by split <;> rfl
    rw [hlanes, hadv, Option.map_some, stopping, hlive]
    cases hll : l.live with
    | false => simp
    | true =>
      have hmem : lanes.getLsbD k = true := getLsbD_lanesWhere hk hadv (hlive.trans hll)
      simp [hmem]

theorem rgn_restarts (hiss : s.Issues (.rgn g) i e) (h : live ≠ 0) (hbeats : e.beats = []) :
    ∃ t e', exec (.rgn g) s = .next t ∧ t.engine i.eng = some e' ∧ s.onlyEngine t i.eng ∧ s.sameMemory t ∧
      e'.entries = (e.entries + 1) % 2 ^ 32 ∧
      ∀ k, e'.lanes.find? k = (e.lanes.find? k).map fun l =>
        if live.getLsbD k then { l with pc := i.pc + BitVec.ofNat 32 i.len, restart := i.pc, issued := false } else
          if i.lanes.getLsbD k then l.goneOn i else l := by
  let j := { i with away := i.lanes &&& ~~~live }
  obtain ⟨heng, honly⟩ := commitIssue_spec (i := j) hiss.eng hbeats
  have honly' := onlyEngine_modEngine honly fun e => e.mapLanes live fun _ l => { l with pc := i.next, restart := i.pc, issued := false }
  refine ⟨_, _, exec_of_some hiss rfl hl (exec_rgn g s) h, engine_modEngine_self heng _, honly', sameMemory_of_onlyEngine honly', rfl,
    fun k => ?_⟩
  rw [Engine.find?_mapLanes, Engine.find?_mapLanes, Option.map_map]
  refine Option.map_congr fun l _ => ?_
  rw [Function.comp_apply, getLsbD_away]
  cases live.getLsbD k with
  | false =>
    simp only [Bool.not_false, Bool.and_true, Bool.false_eq_true, if_false]
    rfl
  | true =>
    simp only [Bool.not_true, Bool.and_false, Bool.false_eq_true, if_false, if_true]
    rfl

end Instructions

end Sys2Proof.Stopping

open Sys2Proof Sys2Proof.Machine Sys2Proof.Stopping

/-- Settles O23: each clause is about one instruction or the abort, and follows from what a stop, a commit point or the abort changes. -/
theorem trapsStopsAndRegions : Obligations.TrapsStopsAndRegions := by
  refine ⟨rewinds, fun g b s i e live hl => ⟨fun x hx hiss h => goesOn_of_none g b hl h x hx hiss, ?_, ?_, ?_, ?_, ?_⟩⟩
  · exact fun hiss h => exec_of_some hiss rfl hl (exec_trap g b s) h
  · exact fun hiss h hattached => (exec_of_some hiss rfl hl (exec_brk g b s) h).trans (if_neg (by rw [hattached]; decide))
  · exact brk_stops g b hl
  · exact halt_stops g hl
  · exact rgn_restarts g hl

end

section
/-! PROOFS. A lane that exits and completes its block changes another lane's register (O24). -/

namespace Sys2Proof.CompletionInAWindow
open Sys2Proof.Machine

/-- The first words of lane 0 of lane-group 0 of core 0. -/
def corner : Place := { Engine.blank.place with groups := 1 }

/-- A lane of thread 0 of block 0 of launch 0. -/
def thread : Lane := { Lane.empty with status := .ready }

/-- A gang of two lanes, which belongs to the block listed under 1. -/
def pair : Engine := { Engine.blank with nregs := 64, place := corner, lanes := [(0, thread), (1, thread)], block := some 1 }

/-- A block of one thread, which has not exited. -/
def lastThread : Block :=
  { launch := 0, index := 0, place := corner, slot := 0, record := 0, scratchOff := 0, scratchLen := 0, gangs := [0], resident := true
    threads := 1, exited := 0, barrier := .fresh, drains := 0, ended := false }

/-- A launch of one block, whose completion bitmap is in the on-chip map at registers g4 and g5 of the gang's lane 1. -/
def mapped : Launch :=
  { id := 0, order := 0, slot := 0, ctx := 0, det := false, start := none, startMet := true, binding := false, mbox := 0, run := false
    grid := (1, 1, 1), block := (1, 1, 1), prio := 24, queue := 0, seqMask := 0, donesig := 0, cbmap := 0x2000000000002010
    kernel := ImageHeader.blank, seq := ImageHeader.blank, arglen := 0, args := [], cohorts := [], producers := [], low := 0, ahead := []
    since := none, reserved := none, reservedAt := 0, streamsStarted := true, streams := [], complete := [], announced := []
    failed := false, barred := false, err := false, reclaimed := false, detDrained := false, retired := false }

/-- `exit` at address 0 in lane 0 of engine 0. -/
def exitIssue : Issue := { eng := 0, pc := 0, lanes := 1, away := 0, insn := 0, len := 4 }

def leaving : State :=
  { State.reset with
    cur := some exitIssue
    launch := { State.reset.launch with launches := [(0, mapped)] }
    work := { State.reset.work with engines := [(0, pair)], blocks := [(1, lastThread)] } }

/-- Register g4 of lane 1 of engine 0 after an instruction. -/
def otherRegister (o : Out) : Option Word :=
  match o with
  | .next t => (t.engine 0).bind fun e => (e.lanes.find? 1).map fun l => l.reg 4
  | _ => none

/-- The bit of block 0 in the completion bitmap is bit 0 of g4. -/
theorem otherRegister_exit : otherRegister (exec (.exit .always) leaving) = some 1 := by decide +kernel

theorem leaving_issues : leaving.Issues (.exit .always) exitIssue pair :=
  ⟨rfl, rfl, infoExit .always, rfl, by decide +kernel, fun h => absurd h (by decide +kernel)⟩

theorem pair_executes : pair.Executes exitIssue .always 1 := by
  have h : pair.guarded .always exitIssue.lanes = 1 := by decide +kernel
  exact h ▸ Engine.executes_guarded pair exitIssue .always

theorem thread_of_find? {k : Nat} {l : Lane} (h : pair.lanes.find? k = some l) : l = thread := by
  have hmem := Stopping.mem_of_find? h
  simp only [pair, List.mem_cons, Prod.mk.injEq, List.not_mem_nil, or_false] at hmem
  rcases hmem with ⟨-, rfl⟩ | ⟨-, rfl⟩ <;> rfl

end Sys2Proof.CompletionInAWindow

open Sys2Proof Sys2Proof.Machine Sys2Proof.CompletionInAWindow

/-- Refutes O24, in the clause of `exit`: the statement says that every lane but the exiting ones keeps its registers, also where the exit
completes the block.  A completed block sets its bit in the launch's completion bitmap (R352), and the launch `mapped` has its bitmap in the
on-chip map, at registers of lane 1 of the exiting lane's own gang: lane 0 exits, and g4 of lane 1 becomes 1 instead of 0.  A launch record
with such a bitmap is rejected (R341 wants it in space 0x6), so the state is not one that a run is meant to reach: the statement lacks the
premise that the bitmap lies in memory. -/
theorem not_lanesLeave : ¬ Obligations.LanesLeave := by
  intro h
  obtain ⟨hexit, -⟩ := h .always 0 leaving exitIssue pair 1 pair_executes (by decide) rfl rfl rfl
    ⟨1, thread, by decide, rfl, by decide +kernel⟩
  obtain ⟨t, e', hexec, heng, -, hlanes, -⟩ := hexit leaving_issues 1 lastThread
    (fun k l _ hfind => by rw [thread_of_find? hfind]; exact ⟨rfl, rfl⟩) rfl rfl
    (fun p hp _ _ => by rw [List.mem_singleton.mp hp])
  have hchanged : (e'.lanes.find? 1).map (fun l => l.reg 4) = some 1 := by
    have hafter := otherRegister_exit
    have hzero : t.engine 0 = some e' := heng
    rw [hexec] at hafter
    simpa only [otherRegister, hzero, Option.bind_some] using hafter
  have hkept : (e'.lanes.find? 1).map (fun l => l.reg 4) = some 0 := by
    rw [hlanes 1]
    decide +kernel
  rw [hkept] at hchanged
  exact absurd hchanged (by decide)

end

section
/-! PROOFS. Meetings that lanes open and do not complete at one issue (O18). -/

namespace Sys2Proof.OpenMeetings
open Sys2Proof.Machine Sys2Proof.Arrivals

/-! ## The issue that opens a meeting (R106, R108) -/

/-- An instruction whose lanes meet under the mask register `m`, and whose completed meeting answers at once. -/
structure MeetsUnder (x : Instr) (g : Guard) (m : Nat) (f : Info) (op : CrossOp) (src : Lane → Arrived) : Prop where
  info : infoOf x = some f
  guard : f.guard = g
  exec : ∀ s, exec x s = crossLane f s (some m) op src
  atOnce : answersAtOnce op = true

theorem meetsUnder_of_mem_meeting {g : Guard} {b a d : Fin 64} {m : Fin 4} {n : Fin 32} {p : Instr × Nat} (h : p ∈ Spec.meeting g b a d m n) :
    ∃ f op src, MeetsUnder p.1 g p.2 f op src := by
  simp only [Spec.meeting, List.mem_cons, List.not_mem_nil, or_false] at h
  rcases h with rfl | rfl | rfl | rfl | rfl | rfl | rfl | rfl | rfl | rfl | rfl | rfl | rfl | rfl | rfl | rfl | rfl | rfl | rfl | rfl | rfl <;>
    exact ⟨_, _, _, rfl, rfl, fun _ => rfl, rfl⟩

section Issue

variable {x : Instr} {g : Guard} {m : Nat} {f : Info} {op : CrossOp} {src : Lane → Arrived} {s : State} {i : Issue} {e : Engine} {live : Dword}

/-- With a false guard in every lane nothing opens. -/
theorem exec_of_none (hx : MeetsUnder x g m f op src) (hiss : s.Issues x i e) (hl : e.Executes i g live)
    (hfresh : ∀ y ∈ e.open_, y.pc ≠ i.pc) (h : live = 0) : exec x s = .next (s.setEngine i.eng (e.advance i)) := by
  obtain ⟨hf, rfl, hexec, -⟩ := hx
  rw [hexec, crossLane, gated_spec hiss hf hl, if_pos ⟨h, by rw [find?_open_eq_none hfresh]; rfl⟩]
  rfl

theorem exec_of_some (hx : MeetsUnder x g m f op src) (hiss : s.Issues x i e) (hl : e.Executes i g live) (h : live ≠ 0) :
    exec x s = .next (crossIssue f s { i with away := i.lanes &&& ~~~live } e live (some m) op src) := by
  obtain ⟨hf, rfl, hexec, -⟩ := hx
  rw [hexec, crossLane, gated_spec hiss hf hl, if_neg fun hboth => h hboth.1]

theorem and_not_self (v : Dword) : v &&& ~~~v = 0 := BitVec.eq_of_getLsbD_eq fun k hk => by simp [hk]

/-- A mask that is zero or too wide is an error of every lane that executes the instruction. -/
theorem crossBad_of_badMask (hfresh : ∀ y ∈ e.open_, y.pc ≠ i.pc) (h : e.mask m = 0 ∨ 2 ^ e.width ≤ (e.mask m).toNat) :
    e.crossBad i live (some m) = live := by
  rw [crossBad_opening hfresh]
  refine if_pos ?_
  change (e.mask m == 0 || decide (2 ^ e.width ≤ (e.mask m).toNat)) = true
  simpa using h

/-- A lane of a meeting's mask that has not arrived, is not absent and is live keeps the meeting open. -/
theorem not_complete_of_awaited {e : Engine} {y : Instance} {k : Nat} (hmask : y.mask.getLsbD k = true) (harr : y.arrived.find? k = none)
    (habsent : y.absent.getLsbD k = false) (hlive : (e.lane k).live = true) : y.complete e = false := by
  refine Bool.eq_false_iff.mpr fun hcomplete => ?_
  rcases (complete_iff e y).mp hcomplete k hmask with h | h | h
  · simp [harr] at h
  · simp [habsent] at h
  · simp [hlive] at h

/-- A meeting just opened awaits a live lane of its mask that does not issue the instruction. -/
theorem opened_not_complete {good : Dword} (hgood : ∀ k, good.getLsbD k = true → live.getLsbD k = true)
    (hissue : ∀ k, live.getLsbD k = true → i.lanes.getLsbD k = true)
    (hawaited : ∃ k, (e.mask m).getLsbD k = true ∧ i.lanes.getLsbD k = false ∧ (e.lane k).live = true) :
    let y := opened s i e live good (some m) op src
    y.complete (atMeeting f i e live good y) = false := by
  intro y
  obtain ⟨k, hmask, hi, hlive⟩ := hawaited
  refine not_complete_of_awaited hmask ?_ ?_ ?_
  · have hnot : good.getLsbD k ≠ true := fun h => by simp [hissue k (hgood k h)] at hi
    change (arrivals e good src).find? k = none
    rw [find?_arrivals, if_neg hnot]
  · change (i.lanes &&& ~~~live).getLsbD k = false
    rw [getLsbD_away, hi, Bool.false_and]
  · rw [live_lane_atMeeting hgood, hlive, Bool.or_true]

/-- What an issue whose lanes all raise MASK leaves: the meeting, open for the lanes that it still awaits, or nothing. -/
theorem checkInstances_of_badMask (hopen : ∀ y ∈ e.open_, y.pc ≠ i.pc ∧ y.complete e = false)
    (hissue : ∀ k, live.getLsbD k = true → i.lanes.getLsbD k = true) :
    let y := opened s i e live 0 (some m) op src
    let u := (withEngine s i.eng (atMeeting f i e live 0 y)).checkInstances i.eng
    ∃ e', s.onlyEngine u i.eng ∧ u.engine i.eng = some e' ∧ e' = { e with lanes := e'.lanes, sb := e'.sb, open_ := e'.open_ } ∧
      (∀ k, e'.lanes.find? k = (e.lanes.find? k).map (arrivedLane i live 0 k)) ∧
      (∀ z ∈ e'.open_, z ∈ e.open_ ∨ z = y) ∧
      ((∃ k, (e.mask m).getLsbD k = true ∧ i.lanes.getLsbD k = false ∧ (e.lane k).live = true) → y ∈ e'.open_) := by
  intro y u
  let e₁ := atMeeting f i e live 0 y
  have hgood : ∀ k, (0 : Dword).getLsbD k = true → live.getLsbD k = true := by simp
  have hawaiting : ∀ z ∈ e.open_, z.complete e₁ = false := awaiting_atMeeting hgood fun z hz => (hopen z hz).2
  have hlanes : ∀ k, e₁.lanes.find? k = (e.lanes.find? k).map (arrivedLane i live 0 k) := find?_atMeeting hgood
  have honly := onlyEngine_withEngine (s := s) (e := e₁) i.eng
  cases hcomplete : y.complete e₁ with
  | false =>
    have hu : u = withEngine s i.eng e₁ := checkInstances_of_awaiting (engine_withEngine _) (by
      intro z hz
      rcases List.mem_cons.mp hz with rfl | hz
      · exact hcomplete
      · exact hawaiting z hz)
    rw [hu]
    exact ⟨e₁, honly, engine_withEngine _, rfl, hlanes, fun z hz => (List.mem_cons.mp hz).symm, fun _ => List.mem_cons_self ..⟩
  | true =>
    have hclosed := closed_atMeeting (f := f) (i := i) (e := e) (live := live) (good := 0) (x := y) fun z hz => (hopen z hz).1
    have hu : u = (withEngine s i.eng e₁).setEngine i.eng ((e.withLanes e₁.lanes e₁.sb).clearTag y.tag) := by
      refine (checkInstances_of_complete (engine_withEngine _) rfl hcomplete hawaiting).trans ?_
      have hnobody : y.arrived.isEmpty = true := by
        change (arrivals e 0 src).isEmpty = true
        rw [arrivals, lanesOf_zero]
        rfl
      rw [State.finishInstance]
      simp only [hnobody, if_true]
      rw [hclosed]
    rw [hu]
    refine ⟨_, onlyEngine_setEngine honly, State.engine_setEngine_self .., rfl, hlanes, fun z hz => Or.inl hz, fun hawaited => ?_⟩
    have hopened : y.complete e₁ = false := opened_not_complete hgood hissue hawaited
    exact absurd (hopened.symm.trans hcomplete) (by decide)

/-- Where the lanes lie in the mask and it awaits another, they wait at an open meeting. -/
theorem crossIssue_of_awaited (hopen : ∀ y ∈ e.open_, y.pc ≠ i.pc ∧ y.complete e = false) (hsome : live ≠ 0)
    (hfits : (e.mask m).toNat < 2 ^ e.width) (hin : ∀ k, live.getLsbD k = true → (e.mask m).getLsbD k = true)
    (hissue : ∀ k, live.getLsbD k = true → i.lanes.getLsbD k = true)
    (hawaited : ∃ k, (e.mask m).getLsbD k = true ∧ i.lanes.getLsbD k = false ∧ (e.lane k).live = true) :
    crossIssue f s i e live (some m) op src = withEngine s i.eng (atMeeting f i e live live (opened s i e live live (some m) op src)) := by
  have hself : live &&& ~~~(0 : Dword) = live := BitVec.and_allOnes
  rw [crossIssue_opens (fun y hy => (hopen y hy).1) (crossBad_of_inMask (mreg := some m) (fun y hy => (hopen y hy).1) hsome hfits hin) hself]
  dsimp only
  rw [if_pos rfl]
  refine checkInstances_of_awaiting (engine_withEngine _) fun z hz => ?_
  rcases List.mem_cons.mp hz with rfl | hz
  · exact opened_not_complete (fun _ h => h) hissue hawaited
  · exact awaiting_atMeeting (fun _ h => h) (fun z hz => (hopen z hz).2) z hz

theorem arrivedLane_none (k : Nat) (l : Lane) :
    arrivedLane i live 0 k l = if i.lanes.getLsbD k && !live.getLsbD k then l.goneOn i else l := by simp [arrivedLane]

theorem arrivedLane_all (k : Nat) (l : Lane) : arrivedLane i live live k l =
    if live.getLsbD k then { l with status := .waiting, issued := true } else if i.lanes.getLsbD k then l.goneOn i else l := by
  rw [arrivedLane]
  split
  · rfl
  · next h => simp [h]

end Issue

/-! ## The statement -/

theorem arrivalsOpenAnInstance : Spec.ArrivalsOpenAnInstance := by
  intro g b a d m n
  refine ⟨fun p hp s i e live hiss hl hopen => ?_, ?rcv⟩
  case rcv => exact completesAcross_of_crossLane rfl rfl (fun _ => rfl) rfl (fun _ _ _ _ => rfl) fun _ _ _ _ _ _ hop _ => gives_rcv hop
  obtain ⟨f, op, src, hx⟩ := meetsUnder_of_mem_meeting hp
  have hfresh : ∀ y ∈ e.open_, y.pc ≠ i.pc := fun y hy => (hopen y hy).1
  have hissue : ∀ k, live.getLsbD k = true → i.lanes.getLsbD k = true := fun k => Transfers.Executes.issues hl
  let j := { i with away := i.lanes &&& ~~~live }
  refine ⟨fun h => ?_, fun hsome hbad => ?_, fun hsome hfits hin hawaited => ?_⟩
  · exact ⟨_, exec_of_none hx hiss hl hfresh h, Transfers.lanesOf_advance e i⟩
  · obtain ⟨e', honly, heng, hrest, hlanes, hkept, hstays⟩ := checkInstances_of_badMask (f := f) (m := p.2) (op := op) (src := src) (s := s)
      (i := j) (e := e) (live := live) hopen hissue
    refine ⟨_, e', honly, heng, fun k => ?_, hrest, fun y hy => (hkept y hy).imp_right ?_, fun hawaited => ⟨_, hstays hawaited, rfl⟩, ?_⟩
    · rw [hlanes]
      exact congrArg (fun h => Option.map h _) (funext fun l => arrivedLane_none k l)
    · rintro rfl
      refine ⟨rfl, rfl, ?_, rfl⟩
      change arrivals e 0 src = []
      rw [arrivals, lanesOf_zero]
      rfl
    · have hopens := crossIssue_opens (f := f) (s := s) (i := j) (op := op) (src := src) hfresh (crossBad_of_badMask hfresh hbad)
        (and_not_self live)
      dsimp only at hopens
      rw [if_neg hsome] at hopens
      exact (exec_of_some hx hiss hl hsome).trans (congrArg _ hopens)
  · have hexec := exec_of_some hx hiss hl hsome
    rw [crossIssue_of_awaited (i := j) hopen hsome hfits hin hissue hawaited] at hexec
    have honly := onlyEngine_withEngine (s := s) (e := atMeeting f j e live live (opened s j e live live (some p.2) op src)) i.eng
    refine ⟨_, _, _, hexec, honly, sameMemory_of_onlyEngine honly, engine_withEngine _, rfl, rfl, rfl, rfl, fun k => ?_, fun k => ?_, rfl⟩
    · change ((arrivals e live src).find? k).isSome = live.getLsbD k
      rw [find?_arrivals]
      cases hk : live.getLsbD k with
      | false => rfl
      | true => simpa using GangRegisters.isSome_of_executes hl hk
    · rw [find?_atMeeting fun _ h => h]
      exact congrArg (fun h => Option.map h _) (funext fun l => arrivedLane_all k l)

end Sys2Proof.OpenMeetings
end

section
/-! PROOFS. Barriers and `dflush`: arrival, waiting and release (O18). -/

namespace Sys2Proof.BarrierArrivals
open Sys2Proof.Machine Sys2Proof.Arrivals Sys2Proof.Stopping

/-! ## What a barrier reads -/

/-- What of an engine a barrier looks at. -/
def seat (e : Engine) : Nat × Option Nat × Place × Bool × Bool := (e.launch, e.block, e.place, e.ended, e.broken)

/-- Two states alike in all that a barrier reads of them, and in memory. -/
structure Steady (s t : State) : Prop where
  blocks : t.work.blocks = s.work.blocks
  launch : t.launch = s.launch
  clock : t.clock = s.clock
  mem : t.mem = s.mem
  xlat : t.xlat = s.xlat
  host : t.host = s.host
  seats : ∀ j, (t.engine j).map seat = (s.engine j).map seat

section Steadiness

variable {s t u : State}

theorem Steady.trans (h : Steady s t) (h' : Steady t u) : Steady s u :=
  ⟨h'.blocks.trans h.blocks, h'.launch.trans h.launch, h'.clock.trans h.clock, h'.mem.trans h.mem, h'.xlat.trans h.xlat,
    h'.host.trans h.host, fun j => (h'.seats j).trans (h.seats j)⟩

theorem steady_of_onlyEngine {n : Nat} {e e' : Engine} (h : s.onlyEngine t n) (heng : s.engine n = some e) (heng' : t.engine n = some e')
    (hseat : seat e' = seat e) : Steady s t := by
  obtain ⟨hothers, hrest⟩ := h
  refine ⟨?_, ?_, ?_, ?_, ?_, ?_, fun j => ?_⟩
  case refine_7 =>
    by_cases hj : j = n
    · rw [hj, heng, heng', Option.map_some, Option.map_some, hseat]
    · rw [hothers j hj]
  all_goals rw [hrest]

theorem steady_modEngine (s : State) (n : Nat) {f : Engine → Engine} (hf : ∀ e, seat (f e) = seat e) : Steady s (s.modEngine n f) := by
  cases heng : s.engine n with
  | none =>
    have hself : s.modEngine n f = s := by rw [State.modEngine, heng]
    rw [hself]
    exact ⟨rfl, rfl, rfl, rfl, rfl, rfl, fun _ => rfl⟩
  | some e => exact steady_of_onlyEngine (onlyEngine_modEngine (onlyEngine_self s n) f) heng (engine_modEngine_self heng f) (hf e)

/-- Lanes put to sleep: the engine with them asleep, and one more wait. -/
theorem engine_sleep {n : Nat} {e : Engine} (heng : s.engine n = some e) (lanes : Dword) (pc insn : Word) (len : Nat) (commit : Bool)
    (kind : WaitKind) : (s.sleep n lanes pc insn len commit kind).2.engine n =
      some (e.mapLanes lanes fun _ l => { l with status := .sleeping s.nextId, issued := l.issued || !commit }) := by
  change (s.work.engines.modify n _).find? n = _
  rw [Store.find?_modify, if_pos rfl, show s.work.engines.find? n = some e from heng]
  rfl

theorem steady_sleep (s : State) (n : Nat) (lanes : Dword) (pc insn : Word) (len : Nat) (commit : Bool) (kind : WaitKind) :
    Steady s (s.sleep n lanes pc insn len commit kind).2 := by
  refine ⟨rfl, rfl, rfl, rfl, rfl, rfl, fun j => ?_⟩
  change ((s.work.engines.modify n _).find? j).map seat = (s.work.engines.find? j).map seat
  rw [Store.find?_modify]
  split
  · next hj =>
    subst hj
    rw [Option.map_map]
    rfl
  · rfl

/-! ### The barrier functions over such states -/

theorem blockIn_of_seats (h : ∀ j, (t.engine j).map seat = (s.engine j).map seat) : Spec.blockIn t = Spec.blockIn s := by
  funext arrived b
  have hended : ∀ j, (t.engine j).map (fun f => f.ended && !f.broken) = (s.engine j).map fun f => f.ended && !f.broken := by
    intro j
    have hj := congrArg (Option.map fun p : Nat × Option Nat × Place × Bool × Bool => p.2.2.2.1 && !p.2.2.2.2) (h j)
    rw [Option.map_map, Option.map_map] at hj
    exact hj
  simp only [Spec.blockIn, hended]

variable {e e' : Engine} (hseat : seat e' = seat e) (c : Option Nat)
include hseat

theorem seat_eq : e'.launch = e.launch ∧ e'.block = e.block ∧ e'.place = e.place := by
  simp only [seat, Prod.mk.injEq] at hseat
  obtain ⟨hlaunch, hblock, hplace, -, -⟩ := hseat
  exact ⟨hlaunch, hblock, hplace⟩

theorem barrierOf_of_steady (h : Steady s t) : t.barrierOf e' c = s.barrierOf e c := by
  obtain ⟨hlaunch, hblock, -⟩ := seat_eq hseat
  cases c <;> simp only [State.barrierOf, State.launchOf, h.blocks, h.launch, hlaunch, hblock]

theorem allIn_of_steady (h : Steady s t) (arrived : List Nat) : Spec.allIn t e' arrived c = Spec.allIn s e arrived c := by
  obtain ⟨hlaunch, hblock, -⟩ := seat_eq hseat
  cases c <;> simp only [Spec.allIn, State.launchOf, h.blocks, h.launch, hlaunch, hblock, blockIn_of_seats h.seats]

theorem released_of_steady (h : Steady s t) : Spec.released t e' c = Spec.released s e c := by
  obtain ⟨hlaunch, -, hplace⟩ := seat_eq hseat
  cases c <;> simp only [Spec.released, State.launchOf, h.clock, h.launch, hlaunch, hplace]

end Steadiness

/-! ## A phase of a barrier (R163) -/

section Phases

theorem launchOf_modLaunch_self (s : State) (id : Nat) (f : Launch → Launch) :
    (s.modLaunch id f).launchOf id = (s.launchOf id).map f := by
  unfold State.modLaunch
  cases h : s.launchOf id with
  | none => simp [h]
  | some l => simp

theorem modLaunch_eq (s : State) (id : Nat) (f : Launch → Launch) : ∃ la, s.modLaunch id f = { s with launch := la } := by
  unfold State.modLaunch
  split
  · exact ⟨_, rfl⟩
  · exact ⟨s.launch, rfl⟩

/-- The writing of a barrier changes blocks or launches alone. -/
theorem setBarrier_eq (s : State) (e : Engine) (b : Barrier) (c : Option Nat) :
    ∃ bs la, s.setBarrier e b c = { s with work := { s.work with blocks := bs }, launch := la } := by
  cases c with
  | none =>
    rw [State.setBarrier]
    split
    · exact ⟨_, _, rfl⟩
    · exact ⟨s.work.blocks, s.launch, rfl⟩
  | some c =>
    obtain ⟨la, hla⟩ := modLaunch_eq s e.launch fun l => { l with cohorts := l.cohorts.modify c fun x => { x with barrier := b } }
    exact ⟨s.work.blocks, la, hla⟩

variable {s : State} {e : Engine} {b₀ : Barrier}

theorem barrierOf_setBarrier {c : Option Nat} (h : s.barrierOf e c = some b₀) (b : Barrier) : (s.setBarrier e b c).barrierOf e c = some b := by
  cases c with
  | none =>
    obtain ⟨x, hx, -⟩ := Option.map_eq_some_iff.mp h
    obtain ⟨k, hk, hfind⟩ := Option.bind_eq_some_iff.mp hx
    simp only [State.setBarrier, State.barrierOf, hk, Option.bind_some, Store.find?_modify, if_true, hfind, Option.map_some]
  | some c =>
    obtain ⟨x, hx, -⟩ := Option.map_eq_some_iff.mp h
    obtain ⟨l, hl, hc⟩ := Option.bind_eq_some_iff.mp hx
    simp only [State.setBarrier, State.barrierOf, launchOf_modLaunch_self, hl, Option.map_some, Option.bind_some, List.getElem?_modify_eq, hc,
      Option.map_eq_map]

theorem engine_setBarrier (s : State) (e : Engine) (b : Barrier) (c : Option Nat) (j : Nat) : (s.setBarrier e b c).engine j = s.engine j := by
  obtain ⟨bs, la, h⟩ := setBarrier_eq s e b c
  rw [h]
  rfl

theorem allIn_setBarrier (s : State) (e : Engine) (b : Barrier) (c : Option Nat) (arrived : List Nat) :
    Spec.allIn (s.setBarrier e b c) e arrived c = Spec.allIn s e arrived c := by
  have hin : Spec.blockIn (s.setBarrier e b c) = Spec.blockIn s := blockIn_of_seats fun j => by rw [engine_setBarrier]
  simp only [Spec.allIn]
  cases c with
  | none =>
    simp only [hin]
    cases hk : e.block with
    | none => rfl
    | some k =>
      simp only [State.setBarrier, hk, Option.bind_some, Store.find?_modify, if_true, Option.map_map]
      rfl
  | some c =>
    have hblocks : (s.setBarrier e b (some c)).work.blocks = s.work.blocks := by
      obtain ⟨la, hla⟩ := modLaunch_eq s e.launch fun l => { l with cohorts := l.cohorts.modify c fun x => { x with barrier := b } }
      rw [State.setBarrier, hla]
    simp only [hin, hblocks]
    rw [State.setBarrier, launchOf_modLaunch_self]
    cases s.launchOf e.launch with
    | none => rfl
    | some l =>
      simp only [Option.map_some, Option.bind_some, List.getElem?_modify_eq, Option.map_eq_map, Option.map_map]
      rfl

theorem released_setBarrier (s : State) (e : Engine) (b : Barrier) (c : Option Nat) :
    Spec.released (s.setBarrier e b c) e c = Spec.released s e c := by
  obtain ⟨bs, la, h⟩ := setBarrier_eq s e b c
  have hclock : (s.setBarrier e b c).clock = s.clock := by rw [h]
  cases c with
  | none => simp only [Spec.released, hclock]
  | some c =>
    have hhome : ((((s.setBarrier e b (some c)).launchOf e.launch).bind fun l => l.cohorts[c]?).bind Cohort.home) =
        (((s.launchOf e.launch).bind fun l => l.cohorts[c]?).bind Cohort.home) := by
      rw [State.setBarrier, launchOf_modLaunch_self]
      cases s.launchOf e.launch with
      | none => rfl
      | some l =>
        simp only [Option.map_some, Option.bind_some, List.getElem?_modify_eq]
        cases l.cohorts[c]? <;> rfl
    simp only [Spec.released, hclock, hhome]

theorem barrierFull_eq_allIn (s : State) (e : Engine) (b : Barrier) (c : Option Nat) : s.barrierFull e b c = Spec.allIn s e b.arrived c := by
  have hin : s.blockArrived = fun x arrived => Spec.blockIn s arrived x := by
    funext x arrived
    simp only [State.blockArrived, Spec.blockIn]
    congr 1
    funext g
    cases s.engine g <;> rfl
  cases c with
  | none =>
    simp only [State.barrierFull, Spec.allIn, hin]
    cases e.block.bind s.work.blocks.find? <;> rfl
  | some c =>
    simp only [State.barrierFull, Spec.allIn, hin]
    cases s.launchOf e.launch with
    | none => rfl
    | some l =>
      simp only [Option.bind_some]
      cases l.cohorts[c]? with
      | none => rfl
      | some x =>
        simp only [Option.map_some, Option.getD_some]
        congr 1
        funext m
        cases s.work.blocks.vals.find? fun k => k.launch == l.id && k.index == m <;> rfl

theorem barrierReady_eq_released (s : State) (e : Engine) (c : Option Nat) : s.barrierReady e c = Spec.released s e c := by
  cases c <;> rfl

/-- Whether two gangs wait at one barrier, where one of them has it and the other sits in the same place. -/
theorem sameBarrier_of_seat {c : Option Nat} {f : Engine} (h : s.barrierOf e c = some b₀) (hseat : seat f = seat e) : sameBarrier e f c = true := by
  obtain ⟨hlaunch, hblock, -⟩ := seat_eq hseat
  cases c with
  | none =>
    obtain ⟨x, hx, -⟩ := Option.map_eq_some_iff.mp h
    obtain ⟨k, hk, -⟩ := Option.bind_eq_some_iff.mp hx
    simp [sameBarrier, hblock, hk]
  | some c => simp [sameBarrier, hlaunch]

/-- A barrier after the last arrival of a phase, or as it is before. -/
def nextPhase (full : Bool) (b : Barrier) : Barrier := if full then ⟨b.phase + 1, none, []⟩ else b

/-- A wait at a barrier once a phase of it is full: a gang that waits for that phase is released. -/
def releasing (s : State) (e : Engine) (c : Option Nat) (phase : Nat) (w : Wait) : Wait :=
  match w.kind, s.engine w.eng with
  | .barrier k ph, some f =>
    if k = barrierCode c ∧ ph = phase ∧ sameBarrier e f c then { w with kind := .until_ (s.barrierReady f c) } else w
  | _, _ => w

/-- The last arrival opens the next phase and releases the gangs that wait (R163). -/
theorem barrierCheck_spec {b : Barrier} {c : Option Nat} (hof : s.barrierOf e c = some b) (harr : b.arrived ≠ []) :
    let v := s.barrierCheck e c
    v.barrierOf e c = some (nextPhase (Spec.allIn s e b.arrived c) b) ∧ (∀ j, v.engine j = s.engine j) ∧ v.mem = s.mem ∧ v.xlat = s.xlat ∧
      ∀ w ∈ s.work.waits, ∀ f, w.kind = .barrier (barrierCode c) b.phase → s.engine w.eng = some f → seat f = seat e →
        { w with kind := if Spec.allIn s e b.arrived c then .until_ (Spec.released s e c) else w.kind } ∈ v.work.waits := by
  have hsome : (!b.arrived.isEmpty) = true := by simpa [List.isEmpty_iff] using harr
  intro v
  cases hfull : Spec.allIn s e b.arrived c with
  | false =>
    have hv : v = s := by
      simp only [v, State.barrierCheck, hof, barrierFull_eq_allIn, hfull, Bool.and_false, Bool.false_eq_true, if_false]
    rw [hv]
    exact ⟨hof, fun _ => rfl, rfl, rfl, fun w hw _ _ _ _ => hw⟩
  | true =>
    let u := s.setBarrier e { phase := b.phase + 1, mask := none, arrived := [] } c
    obtain ⟨bs, la, hu⟩ := setBarrier_eq s e { phase := b.phase + 1, mask := none, arrived := [] } c
    have hv : v = { u with work := { u.work with waits := u.work.waits.map (releasing u e c b.phase) } } := by
      simp only [v, State.barrierCheck, hof, barrierFull_eq_allIn, hfull, hsome, Bool.and_true, if_true]
      rfl
    have hwork : u.work.waits = s.work.waits := by simp only [u, hu]
    refine ⟨?_, fun j => ?_, ?_, ?_, fun w hw f hkind heng hseat => ?_⟩
    · rw [hv]
      exact barrierOf_setBarrier hof _
    · rw [hv]
      exact engine_setBarrier s e _ c j
    · rw [hv]
      simp only [u, hu]
    · rw [hv]
      simp only [u, hu]
    · have hready : u.barrierReady f c = Spec.released s e c := by
        rw [barrierReady_eq_released, released_of_steady hseat c ⟨rfl, rfl, rfl, rfl, rfl, rfl, fun _ => rfl⟩, released_setBarrier]
      rw [hv]
      refine List.mem_map.mpr ⟨w, hwork ▸ hw, ?_⟩
      simp only [releasing, hkind, show u.engine w.eng = some f from (engine_setBarrier s e _ c w.eng).trans heng, sameBarrier_of_seat hof hseat,
        and_self, if_true, hready]

end Phases

/-! ## A gang at a barrier -/

/-- The lanes of an issue sleep in a wait of a kind. -/
def Sleeps (i : Issue) (e : Engine) (live : Dword) (t : State) (kind : WaitKind) : Prop :=
  ∃ w e', w ∈ t.work.waits ∧ w.eng = i.eng ∧ w.lanes = live ∧ w.pc = i.pc ∧ w.kind = kind ∧ t.engine i.eng = some e' ∧
    ∀ k l, live.getLsbD k = true → e.lanes.find? k = some l → e'.lanes.find? k = some { l with status := .sleeping w.id, issued := true }

/-- The lanes of an issue go on behind a commit point, and the gang has a list of recorded arrivals. -/
def Goes (i : Issue) (e : Engine) (live : Dword) (t : State) (arrivals : List (Nat × Nat)) : Prop :=
  ∃ e', t.engine i.eng = some e' ∧ e'.arrivals = arrivals ∧
    ∀ k l, live.getLsbD k = true → e.lanes.find? k = some l → e'.lanes.find? k = some
      { l with status := .ready, pc := i.pc + BitVec.ofNat 32 i.len, restart := i.pc + BitVec.ofNat 32 i.len, issued := false }

/-- The state in which the lanes of an issue have met: they wait, and nothing has changed that a barrier reads. -/
structure Met (s : State) (i : Issue) (e : Engine) (live : Dword) (t : State) (e' : Engine) : Prop where
  steady : Steady s t
  eng : t.engine i.eng = some e'
  seated : seat e' = seat e
  arrivals : e'.arrivals = e.arrivals
  lane : ∀ k l, live.getLsbD k = true → e.lanes.find? k = some l → e'.lanes.find? k = some { l with status := .waiting, issued := true }

/-- The wait of a gang that arrives. -/
def arrivalWait (i : Issue) (live : Dword) (form : Nat) (c : Option Nat) (mask : Dword) : Wait :=
  { id := 0, eng := i.eng, lanes := live, pc := i.pc, insn := i.insn, len := i.len, commit := true, kind := .arrive form c mask }

theorem Steady.refl (s : State) : Steady s s := ⟨rfl, rfl, rfl, rfl, rfl, rfl, fun _ => rfl⟩

theorem Steady.sameMemory {s t : State} (h : Steady s t) : s.sameMemory t := sameMemory_of_eq h.mem h.xlat

section AtTheBarrier

variable {s t u : State} {i : Issue} {e e' e'' : Engine} {live : Dword} {c : Option Nat} {bar : Barrier} {mask : Dword}

theorem sleeps_sleep (heng : u.engine i.eng = some e'') (hlane : ∀ k l, live.getLsbD k = true → e.lanes.find? k = some l →
    e''.lanes.find? k = some { l with status := .waiting, issued := true }) (insn : Word) (len : Nat) (kind : WaitKind) :
    Sleeps i e live (u.sleep i.eng live i.pc insn len true kind).2 kind := by
  refine ⟨{ id := u.nextId, eng := i.eng, lanes := live, pc := i.pc, insn, len, commit := true, kind }, _,
    List.mem_append_right _ (List.mem_singleton_self _), rfl, rfl, rfl, rfl, engine_sleep heng .., fun k l hk hfind => ?_⟩
  rw [Engine.find?_mapLanes, hlane k l hk hfind]
  simp [hk]

/-- Lanes at a barrier go on. -/
def goOn (s : State) (i : Issue) (live : Dword) : State :=
  s.modEngine i.eng fun e => e.mapLanes live fun _ l =>
    { l with status := .ready, pc := i.pc + BitVec.ofNat 32 i.len, restart := i.pc + BitVec.ofNat 32 i.len, issued := false }

theorem goes_goOn (heng : u.engine i.eng = some e'') (hlane : ∀ k l, live.getLsbD k = true → e.lanes.find? k = some l →
    e''.lanes.find? k = some { l with status := .waiting, issued := true }) : Goes i e live (goOn u i live) e''.arrivals := by
  refine ⟨_, engine_modEngine_self heng _, rfl, fun k l hk hfind => ?_⟩
  rw [Engine.find?_mapLanes, hlane k l hk hfind]
  simp [hk]

theorem steady_goOn (s : State) (i : Issue) (live : Dword) : Steady s (goOn s i live) := steady_modEngine s _ fun _ => rfl

/-- A gang without what it has recorded of a barrier (`none`), or with a phase of it recorded alone. -/
def noting (code : Nat) (phase : Option Nat) (e : Engine) : Engine :=
  { e with arrivals := (phase.map fun ph => (code, ph)).toList ++ e.arrivals.filter fun p => p.1 != code }

theorem steady_noting (s : State) (n code : Nat) (phase : Option Nat) : Steady s (s.modEngine n (noting code phase)) :=
  steady_modEngine s n fun _ => rfl

/-- A barrier with one more gang, whose mask is the phase's. -/
def withArrival (bar : Barrier) (mask : Dword) (n : Nat) : Barrier := { bar with mask := some mask, arrived := bar.arrived ++ [n] }

/-- A gang arrives, `u` is what it does then, and the phase is looked at (R163). -/
theorem arrived_spec (hmet : Met s i e live t e') (hof : s.barrierOf e c = some bar)
    (hu : Steady (t.setBarrier e' (withArrival bar mask i.eng) c) u) :
    let full := Spec.allIn s e (bar.arrived ++ [i.eng]) c
    let v := u.barrierCheck e' c
    s.sameMemory v ∧ v.barrierOf e c = some (nextPhase full (withArrival bar mask i.eng)) ∧ (∀ j, v.engine j = u.engine j) ∧
      ∀ w ∈ u.work.waits, w.kind = .barrier (barrierCode c) bar.phase → w.eng = i.eng →
        { w with kind := if full then .until_ (Spec.released s e c) else .barrier (barrierCode c) bar.phase } ∈ v.work.waits := by
  intro full v
  let b := withArrival bar mask i.eng
  obtain ⟨bs, la, hset⟩ := setBarrier_eq t e' b c
  have hof' : u.barrierOf e' c = some b := by
    rw [barrierOf_of_steady rfl c hu]
    exact barrierOf_setBarrier ((barrierOf_of_steady hmet.seated c hmet.steady).trans hof) b
  have hfull : Spec.allIn u e' b.arrived c = full := by
    rw [allIn_of_steady rfl c hu, allIn_setBarrier, allIn_of_steady hmet.seated c hmet.steady]
    rfl
  have hreleased : Spec.released u e' c = Spec.released s e c := by
    rw [released_of_steady rfl c hu, released_setBarrier, released_of_steady hmet.seated c hmet.steady]
  obtain ⟨hbar, hengines, hmem, hxlat, hwaits⟩ := barrierCheck_spec hof' (List.append_ne_nil_of_right_ne_nil _ (List.cons_ne_nil _ _))
  rw [hfull] at hbar
  refine ⟨sameMemory_of_eq ?_ ?_, (barrierOf_of_steady hmet.seated.symm c (Steady.refl v)).trans hbar, hengines, fun w hw hkind heng => ?_⟩
  · rw [hmem, hu.mem, hset, ← hmet.steady.mem]
  · rw [hxlat, hu.xlat, hset, ← hmet.steady.xlat]
  · have hown : (u.engine w.eng).map seat = some (seat e') := by
      rw [heng, hu.seats, engine_setBarrier, hmet.eng]
      rfl
    obtain ⟨f, hf, hseat⟩ := Option.map_eq_some_iff.mp hown
    have hreleasedWait := hwaits w hw f hkind hf hseat
    rw [hfull, hreleased, hkind] at hreleasedWait
    exact hreleasedWait

/-! ### The forms -/

theorem filter_mask_eq_none (h : bar.mask = none ∨ bar.mask = some mask) : bar.mask.filter (· != mask) = none := by
  rcases h with h | h <;> simp [h]

section Forms

variable (hmet : Met s i e live t e') (hof : s.barrierOf e c = some bar)
include hmet hof

theorem barrierOf_met : t.barrierOf e' c = some bar := (barrierOf_of_steady hmet.seated c hmet.steady).trans hof

/-- A form that waits: the gang arrives and its lanes sleep (R163). -/
theorem barrierGo_waits (hmask : bar.mask = none ∨ bar.mask = some mask) {form : Nat}
    (hform : form = 0 ∨ form = 2 ∧ (e.arrivals.find? fun p => p.1 == barrierCode c) = none) :
    t.barrierGo e' (arrivalWait i live form c mask) form c mask =
      ((t.setBarrier e' (withArrival bar mask i.eng) c).sleep i.eng live i.pc i.insn i.len true (.barrier (barrierCode c) bar.phase)).2.barrierCheck
        e' c := by
  rw [State.barrierGo, barrierOf_met hmet hof]
  simp only [filter_mask_eq_none hmask, hmet.arrivals]
  rcases hform with rfl | ⟨rfl, hnone⟩
  · cases e.arrivals.find? fun p => p.1 == barrierCode c <;> rfl
  · rw [hnone]
    rfl

/-- `bar.arrive`: the gang arrives, its lanes go on, and the phase is recorded (R163). -/
theorem barrierGo_arrives (hmask : bar.mask = none ∨ bar.mask = some mask) :
    t.barrierGo e' (arrivalWait i live 1 c mask) 1 c mask =
      ((goOn (t.setBarrier e' (withArrival bar mask i.eng) c) i live).modEngine i.eng (noting (barrierCode c) (some bar.phase))).barrierCheck
        e' c := by
  rw [State.barrierGo, barrierOf_met hmet hof]
  simp only [filter_mask_eq_none hmask]
  rfl

/-- `bar.wait` after a recorded arrival: its lanes go on where the phase has passed, and sleep for it otherwise; the record is used up. -/
theorem barrierGo_recorded {ph : Nat} (hrec : (e.arrivals.find? fun p => p.1 == barrierCode c) = some (barrierCode c, ph)) :
    t.barrierGo e' (arrivalWait i live 2 c mask) 2 c mask =
      let u := t.modEngine i.eng (noting (barrierCode c) none)
      if ph < bar.phase then goOn u i live else (u.sleep i.eng live i.pc i.insn i.len true (.barrier (barrierCode c) ph)).2 := by
  rw [State.barrierGo, barrierOf_met hmet hof]
  simp only [hmet.arrivals, hrec]
  rfl

/-- A gang whose mask is not the phase's raises MASK (R163). -/
theorem barrierGo_mismatch {m : Dword} {form : Nat} (hmask : bar.mask = some m) (hne : m ≠ mask)
    (hform : form ≠ 2 ∨ (e.arrivals.find? fun p => p.1 == barrierCode c) = none) :
    t.barrierGo e' (arrivalWait i live form c mask) form c mask =
      (t.modEngine i.eng fun e => e.mapLanes live fun _ l => { l with status := .ready }).raise
        { eng := i.eng, cause := .mask, lanes := live, pc := i.pc, insn := i.insn, faddr := 0, detail := 0 } := by
  have hfilter : bar.mask.filter (· != mask) = some m := by simp [hmask, hne]
  rw [State.barrierGo, barrierOf_met hmet hof]
  simp only [hfilter, hmet.arrivals]
  match form, hform with
  | 0, _ | 1, _ | n + 3, _ => rfl
  | 2, hform =>
    rw [hform.resolve_left fun h => h rfl]
    rfl

/-! ### What a gang at a barrier comes to -/

theorem waits_outcome (hmask : bar.mask = none ∨ bar.mask = some mask) {form : Nat}
    (hform : form = 0 ∨ form = 2 ∧ (e.arrivals.find? fun p => p.1 == barrierCode c) = none) :
    let full := Spec.allIn s e (bar.arrived ++ [i.eng]) c
    let v := t.barrierGo e' (arrivalWait i live form c mask) form c mask
    s.sameMemory v ∧ v.barrierOf e c = some (nextPhase full (withArrival bar mask i.eng)) ∧
      Sleeps i e live v (if full then .until_ (Spec.released s e c) else .barrier (barrierCode c) bar.phase) := by
  intro full v
  obtain ⟨hmem, hbar, hengines, hwaits⟩ := arrived_spec (mask := mask) hmet hof (steady_sleep _ i.eng live i.pc i.insn i.len true
    (.barrier (barrierCode c) bar.phase))
  rw [← barrierGo_waits hmet hof hmask hform] at hmem hbar hengines hwaits
  obtain ⟨w, f, hw, heng, hlanes, hpc, hkind, hf, hasleep⟩ := sleeps_sleep
    ((engine_setBarrier t e' (withArrival bar mask i.eng) c i.eng).trans hmet.eng) hmet.lane i.insn i.len (.barrier (barrierCode c) bar.phase)
  exact ⟨hmem, hbar, _, f, hwaits w hw hkind heng, heng, hlanes, hpc, rfl, (hengines _).trans hf, hasleep⟩

theorem arrives_outcome (hmask : bar.mask = none ∨ bar.mask = some mask) :
    let full := Spec.allIn s e (bar.arrived ++ [i.eng]) c
    let v := t.barrierGo e' (arrivalWait i live 1 c mask) 1 c mask
    s.sameMemory v ∧ v.barrierOf e c = some (nextPhase full (withArrival bar mask i.eng)) ∧
      Goes i e live v ((barrierCode c, bar.phase) :: e.arrivals.filter fun p => p.1 != barrierCode c) := by
  intro full v
  obtain ⟨hmem, hbar, hengines, -⟩ := arrived_spec hmet hof ((steady_goOn _ i live).trans (steady_noting _ i.eng (barrierCode c)
    (some bar.phase)))
  rw [← barrierGo_arrives hmet hof hmask] at hmem hbar hengines
  obtain ⟨f, hf, harrivals, hlanes⟩ := goes_goOn ((engine_setBarrier t e' (withArrival bar mask i.eng) c i.eng).trans hmet.eng) hmet.lane
  refine ⟨hmem, hbar, _, (hengines _).trans (engine_modEngine_self hf _), ?_, hlanes⟩
  rw [noting, harrivals, hmet.arrivals]
  rfl

theorem recorded_outcome {ph : Nat} (hrec : (e.arrivals.find? fun p => p.1 == barrierCode c) = some (barrierCode c, ph)) :
    let v := t.barrierGo e' (arrivalWait i live 2 c mask) 2 c mask
    s.sameMemory v ∧ v.barrierOf e c = some bar ∧
      if ph < bar.phase then Goes i e live v (e.arrivals.filter fun p => p.1 != barrierCode c)
      else Sleeps i e live v (.barrier (barrierCode c) ph) := by
  intro v
  let u := t.modEngine i.eng (noting (barrierCode c) none)
  have hsteady : Steady s u := hmet.steady.trans (steady_noting ..)
  have heng := engine_modEngine_self hmet.eng (noting (barrierCode c) none)
  have hv : v = if ph < bar.phase then goOn u i live else (u.sleep i.eng live i.pc i.insn i.len true (.barrier (barrierCode c) ph)).2 :=
    barrierGo_recorded hmet hof hrec
  by_cases hpassed : ph < bar.phase
  · rw [if_pos hpassed] at hv ⊢
    have hgone : Steady s v := hv ▸ hsteady.trans (steady_goOn ..)
    refine ⟨hgone.sameMemory, (barrierOf_of_steady rfl c hgone).trans hof, ?_⟩
    rw [hv, ← hmet.arrivals]
    exact goes_goOn heng hmet.lane
  · rw [if_neg hpassed] at hv ⊢
    have hasleep : Steady s v := hv ▸ hsteady.trans (steady_sleep ..)
    refine ⟨hasleep.sameMemory, (barrierOf_of_steady rfl c hasleep).trans hof, ?_⟩
    rw [hv]
    exact sleeps_sleep heng hmet.lane _ _ _

end Forms

end AtTheBarrier

/-! ## Accesses still to be performed (R284) -/

/-- Whether an entry of the scoreboard is a load of some lanes that is older than a number. -/
def pendingLoad (lanes : Dword) (before : Nat) (x : SbEntry) : Bool :=
  decide (x.tag < before) && (match x.key with
    | .load l => l &&& lanes != 0
    | _ => false)

/-- Whether the scoreboards of two engines list the same loads. -/
def SameLoads (e e' : Engine) : Prop := ∀ lanes before, e'.sb.any (pendingLoad lanes before) = e.sb.any (pendingLoad lanes before)

theorem SameLoads.trans {e e' e'' : Engine} (h : SameLoads e e') (h' : SameLoads e' e'') : SameLoads e e'' :=
  fun lanes before => (h' lanes before).trans (h lanes before)

theorem sameLoads_append {e e' : Engine} {l : List SbEntry} (h : e'.sb = e.sb ++ l) (hl : ∀ x ∈ l, ∃ lanes, x.key = .mem lanes) :
    SameLoads e e' := by
  intro lanes before
  have hnone : l.any (pendingLoad lanes before) = false := List.any_eq_false.mpr fun x hx => by
    obtain ⟨m, hm⟩ := hl x hx
    simp [pendingLoad, hm]
  rw [h, List.any_append, hnone, Bool.or_false]

theorem sameLoads_committed (e : Engine) (tags : List Nat) : SameLoads e (committed e tags) := by
  intro lanes before
  have hone : ∀ x : SbEntry, (x.committed tags).any (pendingLoad lanes before) = pendingLoad lanes before x := by
    intro x
    obtain ⟨key, due, tag⟩ := x
    cases key <;> simp [SbEntry.committed, pendingLoad]
  change (e.sb.flatMap (SbEntry.committed tags)).any _ = _
  simp only [List.any_flatMap, hone]

theorem key_of_mem_holds {s : State} {n : Nat} {e : Engine} {lanes : Dword} {rel near : Bool} {x : SbEntry}
    (h : x ∈ s.holds n e lanes rel near) : ∃ m, x.key = .mem m := by
  rcases List.mem_append.mp h with h | h
  · obtain ⟨_, -, rfl⟩ := List.mem_map.mp h
    exact ⟨_, rfl⟩
  · obtain ⟨y, -, hy⟩ := List.mem_filterMap.mp h
    split at hy
    · split at hy
      · cases hy
      · obtain rfl := Option.some.inj hy
        exact ⟨_, rfl⟩
    · cases hy

theorem outstanding_eq {s t : State} {n : Nat} {e e' : Engine} (h : Steady s t) (heng : s.engine n = some e) (heng' : t.engine n = some e')
    (hloads : SameLoads e e') (lanes : Dword) (near : Bool) (before : Nat) :
    t.outstanding n lanes near before = s.outstanding n lanes near before := by
  simp only [State.outstanding, h.mem, h.xlat, h.host, heng, heng', Option.map_some]
  exact congrArg _ (congrArg (fun v : Bool => (some v).getD false) (hloads lanes before))

theorem decide_mono {a b n : Nat} (hab : a ≤ b) (h : decide (n < a) = true) : decide (n < b) = true :=
  decide_eq_true (lt_of_lt_of_le (of_decide_eq_true h) hab)

/-- What is older than a number is older than a greater one. -/
theorem outstanding_mono {s : State} {n : Nat} {lanes : Dword} {near : Bool} {a b : Nat} (hab : a ≤ b)
    (h : s.outstanding n lanes near a = true) : s.outstanding n lanes near b = true := by
  simp only [State.outstanding, Bool.or_eq_true] at h ⊢
  refine h.imp (Or.imp (Or.imp ?_ ?_) ?_) ?_
  · simp only [List.any_eq_true, Bool.and_eq_true]
    exact fun ⟨x, hx, ⟨hn, hold⟩, hp⟩ => ⟨x, hx, ⟨hn, decide_mono hab hold⟩, hp⟩
  · rw [List.any_eq_true, List.any_eq_true]
    simp only [Bool.and_eq_true]
    exact fun ⟨x, hx, ⟨hn, hold⟩, hp⟩ => ⟨x, hx, ⟨hn, decide_mono hab hold⟩, hp⟩
  · simp only [List.any_eq_true, Bool.and_eq_true]
    exact fun ⟨x, hx, ⟨hn, hold⟩, hp⟩ => ⟨x, hx, ⟨hn, decide_mono hab hold⟩, hp⟩
  · cases s.engine n with
    | none => exact id
    | some e =>
      simp only [Option.map_some, Option.getD_some, List.any_eq_true, Bool.and_eq_true]
      exact fun ⟨x, hx, hold, hp⟩ => ⟨x, hx, decide_mono hab hold, hp⟩

/-! ## The issue of a barrier form (R163, R285) -/

section Execution

variable {s : State} {x : Instr} {f : Info} {i : Issue} {e : Engine} {live : Dword} {form m b : Nat}

/-- The cohort that a lane names, or none for the barrier of its block. -/
def named (b : Nat) (l : Lane) : Option Nat := if b = 0 then none else some (l.reg b).toNat

/-- Whether a lane names a barrier of its block (R163). -/
def holdsBarrier (s : State) (e : Engine) (b : Nat) (l : Lane) : Bool := e.block.isSome && ((named b l).map (s.holdsCohort e)).getD true

/-- Whether a lane names no barrier of its block, as the issue finds it. -/
def refusing (s : State) (e : Engine) (b : Nat) (kl : Nat × Lane) : Bool :=
  e.block.isNone || (match named b kl.2 with
    | some n => !s.holdsCohort e n
    | none => false)

theorem refusing_eq (s : State) (e : Engine) (b : Nat) (kl : Nat × Lane) : refusing s e b kl = !holdsBarrier s e b kl.2 := by
  rw [refusing, holdsBarrier]
  cases e.block <;> cases named b kl.2 <;> simp

theorem barrier_eq (f : Info) (s : State) (form m b : Nat) : barrier f s form m b = gated f s fun i e live =>
    if live = 0 ∧ (e.open_.find? fun x => x.pc == i.pc).isNone then .next (s.setEngine i.eng (e.advance i))
    else match (e.lanesOf live).find? (refusing s e b) with
      | some (k, _) => .next (s.refuse i live 0 7 0 k)
      | none =>
        let traps := live != 0 && e.crossBad i live (some m) == live
        let s := if traps then s else s.commit i.eng
        let e := if traps then e else ((s.engine i.eng).getD e).countEntry
        .next (crossIssue f s i e live (some m) (.bar form (named b (e.low live))) fun _ => ⟨0, 0⟩) := rfl

/-- A gang whose commit point has been counted. -/
def counted (e : Engine) (tags : List Nat) : Engine := (committed e tags).countEntry

theorem seat_counted (e : Engine) (tags : List Nat) : seat (counted e tags) = seat e := rfl

section Issue

variable (hiss : s.Issues x i e) (hf : infoOf x = some f) (hl : e.Executes i f.guard live) (hx : exec x s = barrier f s form m b)
include hiss hf hl hx

/-- A lane that names no barrier of its block raises REFUSE, REASON 7: the lowest such lane. -/
theorem barrier_refuses {k : Nat} {l : Lane} (hk : live.getLsbD k = true) (hfind : e.lanes.find? k = some l)
    (hnot : holdsBarrier s e b l = false)
    (hmin : ∀ j l', j < k → live.getLsbD j = true → e.lanes.find? j = some l' → holdsBarrier s e b l' = true) :
    exec x s = .next (s.refuse { i with away := i.lanes &&& ~~~live } live 0 7 0 k) := by
  have hsome : live ≠ 0 := by
    rintro rfl
    simp at hk
  have hfirst : (e.lanesOf live).find? (refusing s e b) = some (k, l) := by
    rw [funext (refusing_eq s e b)]
    exact Transfers.find?_lanesOf (p := fun l => !holdsBarrier s e b l) hk hfind (by rw [hnot]; rfl)
      fun j l' hj hlive hfind' => by rw [hmin j l' hj hlive hfind']; rfl
  rw [hx, barrier_eq, gated_spec hiss hf hl, if_neg fun hboth => hsome hboth.1]
  simp only [hfirst]

/-- Where every lane names a barrier of its block and some lane arrives, the stores commit and the lanes meet. -/
theorem barrier_issues (hsome : live ≠ 0)
    (hholds : ∀ k l, live.getLsbD k = true → e.lanes.find? k = some l → holdsBarrier s e b l = true)
    (hbad : e.crossBad { i with away := i.lanes &&& ~~~live } live (some m) = 0) (hbeats : e.beats = []) :
    exec x s = .next (crossIssue f (s.commit i.eng) { i with away := i.lanes &&& ~~~live } (counted e (s.storeTags i.eng)) live (some m)
      (.bar form (named b (e.low live))) fun _ => ⟨0, 0⟩) := by
  have hnone : (e.lanesOf live).find? (refusing s e b) = none := List.find?_eq_none.mpr fun kl hkl => by
    obtain ⟨hk, hfind⟩ := (Engine.mem_lanesOf e live kl.1 kl.2).mp hkl
    simp [refusing_eq, hholds kl.1 kl.2 hk hfind]
  have htraps : (live != 0 && e.crossBad { i with away := i.lanes &&& ~~~live } live (some m) == live) = false := by
    rw [hbad, beq_eq_false_iff_ne.mpr (Ne.symm hsome), Bool.and_false]
  rw [hx, barrier_eq, gated_spec hiss hf hl, if_neg fun hboth => hsome hboth.1]
  simp only [hnone, htraps, Bool.false_eq_true, if_false, (commit_spec hiss.eng hbeats).1, Option.getD_some]
  rfl

end Issue

/-- A gang whose meeting has completed, as the barrier finds it. -/
def meetingDone (f : Info) (i : Issue) (e : Engine) (live : Dword) (y : Instance) : Engine :=
  e.withLanes (atMeeting f i e live live y).lanes (atMeeting f i e live live y).sb

/-- The lanes of a barrier form meet at its issue, and the gang is at the barrier. -/
theorem crossIssue_bar (hm : e.Meets i (e.mask m) live) (hfound : ∀ k, live.getLsbD k = true → (e.lanes.find? k).isSome = true)
    (c : Option Nat) :
    let y := opened s i e live live (some m) (.bar form c) fun _ => ⟨0, 0⟩
    crossIssue f s i e live (some m) (.bar form c) (fun _ => ⟨0, 0⟩) =
      ((withEngine s i.eng (atMeeting f i e live live y)).setEngine i.eng (meetingDone f i e live y)).barrierInstance i.eng
        (meetingDone f i e live y) y form c := by
  intro y
  have harr : y.arrived.isEmpty = false := by
    simpa [y, opened, arrivals] using lanesOf_ne_nil (present_of_meets hm hfound)
  have hclosed : { atMeeting f i e live live y with open_ := (atMeeting f i e live live y).open_.filter fun z => z.pc != y.pc } =
      meetingDone f i e live y := closed_atMeeting fun z hz => (hm.alone z hz).1
  refine (crossIssue_of_meets hm hfound).trans ?_
  change State.finishInstance _ _ (atMeeting f i e live live y) y = _
  rw [State.finishInstance, harr]
  simp only [hclosed]
  rfl

theorem seat_meetingDone (f : Info) (i : Issue) (e : Engine) (live : Dword) (y : Instance) : seat (meetingDone f i e live y) = seat e := rfl

theorem met_meetingDone {j : Issue} {e₁ : Engine} {t : State} {y : Instance} (hsteady : Steady s t)
    (heng : t.engine i.eng = some (meetingDone f j e₁ live y)) (hlanes : e₁.lanes = e.lanes) (hseat : seat e₁ = seat e)
    (harrivals : e₁.arrivals = e.arrivals) :
    Met s i e live t (meetingDone f j e₁ live y) := by
  refine ⟨hsteady, heng, hseat, harrivals, fun k l hk hfind => ?_⟩
  change (atMeeting f j e₁ live live y).lanes.find? k = _
  rw [find?_atMeeting fun _ h => h, hlanes, hfind]
  simp [arrivedLane, hk]

/-- What a gang at a barrier does: it waits for its earlier accesses where it arrives, and otherwise arrives, waits or goes on. -/
theorem barrierInstance_spec {t : State} {e' : Engine} {y : Instance} {c : Option Nat} (hmet : Met s i e live t e') (heng : s.engine i.eng = some e)
    (hloads : SameLoads e e') (hlanes : listMask (Store.keys y.arrived) = live) (hpc : y.pc = i.pc) (hinsn : y.insn = i.insn)
    (hlen : y.len = i.len) :
    ∃ u e'', Met s i e live u e'' ∧ t.barrierInstance i.eng e' y form c =
      if (form != 2 || !(e.arrivals.any fun p => p.1 == barrierCode c)) && s.outstanding i.eng live c.isNone t.nextId then
        (u.sleep i.eng live i.pc i.insn i.len true (.arrive form c y.mask)).2
      else u.barrierGo e'' (arrivalWait i live form c y.mask) form c y.mask := by
  let e'' := if form = 1 then e' else e'.hold (t.holds i.eng e' live false c.isNone)
  let u := t.setEngine i.eng e''
  have hkept : seat e'' = seat e' ∧ e''.arrivals = e'.arrivals ∧ e''.lanes = e'.lanes := by
    simp only [e'']
    split <;> exact ⟨rfl, rfl, rfl⟩
  obtain ⟨hseat, harrivals, hstand⟩ := hkept
  have hheld : SameLoads e' e'' := by
    by_cases hform : form = 1
    · simp only [e'', if_pos hform]
      exact fun _ _ => rfl
    · simp only [e'', if_neg hform]
      exact sameLoads_append rfl fun x => key_of_mem_holds
  have heng' : u.engine i.eng = some e'' := State.engine_setEngine_self ..
  have hsteady : Steady s u := hmet.steady.trans (steady_of_onlyEngine (onlyEngine_setEngine (onlyEngine_self t _)) hmet.eng heng' hseat)
  refine ⟨u, e'', ⟨hsteady, heng', hseat.trans hmet.seated, harrivals.trans hmet.arrivals, fun k l hk hfind => ?_⟩, ?_⟩
  · rw [hstand]
    exact hmet.lane k l hk hfind
  · have hout : u.outstanding i.eng live c.isNone u.nextId = s.outstanding i.eng live c.isNone t.nextId :=
      outstanding_eq hsteady heng heng' (hloads.trans hheld) ..
    rw [← hout, ← hmet.arrivals, State.barrierInstance, hlanes, hpc, hinsn, hlen]
    rfl

/-- An issue of a barrier form whose lanes meet at it. -/
theorem exec_of_meets (hiss : s.Issues x i e) (hf : infoOf x = some f) (hl : e.Executes i f.guard live)
    (hx : exec x s = barrier f s form m b) (hkeys : f.keys = []) (hm : e.Meets i (e.mask m) live) (hbeats : e.beats = [])
    {c : Option Nat} (hheld : ∀ k l, live.getLsbD k = true → e.lanes.find? k = some l → holdsBarrier s e b l = true ∧ named b l = c) :
    ∃ u e', Met s i e live u e' ∧ exec x s = .next (
      if (form != 2 || !(e.arrivals.any fun p => p.1 == barrierCode c)) && s.outstanding i.eng live c.isNone (s.nextId + 1) then
        (u.sleep i.eng live i.pc i.insn i.len true (.arrive form c (e.mask m))).2
      else u.barrierGo e' (arrivalWait i live form c (e.mask m)) form c (e.mask m)) := by
  let j := { i with away := i.lanes &&& ~~~live }
  let e₁ := counted e (s.storeTags i.eng)
  obtain ⟨-, honly₁⟩ := commit_spec hiss.eng hbeats
  have hfound : ∀ k, live.getLsbD k = true → (e.lanes.find? k).isSome = true := fun k hk => GangRegisters.isSome_of_executes hl hk
  have hm₀ : e.Meets j (e.mask m) live := ⟨hm.some_, hm.inMask, hm.fits, hm.rest, hm.alone⟩
  have hm₁ : e₁.Meets j (e₁.mask m) live := ⟨hm.some_, hm.inMask, hm.fits, hm.rest, hm.alone⟩
  have hc : named b (e.low live) = c := by
    obtain ⟨p, rest, hcons⟩ := List.exists_cons_of_ne_nil (lanesOf_ne_nil (present_of_meets hm₀ hfound))
    have hmem : (p.1, p.2) ∈ e.lanesOf live := hcons ▸ List.mem_cons_self ..
    obtain ⟨hk, hfind⟩ := (Engine.mem_lanesOf e live p.1 p.2).mp hmem
    have hlow : e.low live = p.2 := by
      simp only [Engine.low, Engine.lowest, hcons, Engine.lane, hfind, Option.getD_some]
    rw [hlow]
    exact (hheld p.1 p.2 hk hfind).2
  have hexec := barrier_issues hiss hf hl hx hm.some_ (fun k l hk hfind => (hheld k l hk hfind).1) (crossBad_of_meets hm₀) hbeats
  rw [hc] at hexec
  let y := opened (s.commit i.eng) j e₁ live live (some m) (.bar form c) fun _ => ⟨0, 0⟩
  let t := (withEngine (s.commit i.eng) i.eng (atMeeting f j e₁ live live y)).setEngine i.eng (meetingDone f j e₁ live y)
  have honly : s.onlyEngine t i.eng := onlyEngine_setEngine (onlyEngine_trans honly₁ (onlyEngine_withEngine _))
  have heng : t.engine i.eng = some (meetingDone f j e₁ live y) := State.engine_setEngine_self ..
  have hmet : Met s i e live t (meetingDone f j e₁ live y) :=
    met_meetingDone (steady_of_onlyEngine honly hiss.eng heng ((seat_meetingDone ..).trans (seat_counted ..))) heng rfl (seat_counted ..) rfl
  have hloads : SameLoads e (meetingDone f j e₁ live y) := (sameLoads_committed e (s.storeTags i.eng)).trans
    (sameLoads_append (l := f.keys.map fun k => { key := k, due := none, tag := y.tag }) rfl (by simp [hkeys]))
  obtain ⟨u, e', hmet', hbar⟩ := barrierInstance_spec (form := form) (y := y) (c := c) hmet hiss.eng hloads
    (listMask_keys_arrivals (present_of_meets hm₁ hfound) fun _ => ⟨0, 0⟩) rfl rfl rfl
  refine ⟨u, e', hmet', ?_⟩
  have hnext : t.nextId = s.nextId + 1 := by
    change (s.commit i.eng).nextId + 1 = _
    rw [State.commit, hiss.eng]
    simp only [hbeats, State.performBeats, State.modEngine, hiss.eng]
    rfl
  rw [hnext] at hbar
  exact (hexec.trans (congrArg _ (crossIssue_bar hm₁ hfound c))).trans (congrArg _ hbar)

end Execution

/-! ## The statement about barriers -/

/-- A barrier form: which of the three it is, and that it books no register. -/
structure BarrierForm (g : Guard) (b a : Fin 64) (x : Instr) (form : Nat) (f : Info) : Prop where
  info : infoOf x = some f
  guard : f.guard = g
  exec : ∀ s, exec x s = barrier f s form a b
  keys : f.keys = []

section Clauses

variable (g : Guard) (b a : Fin 64)

/-- A barrier form writes no register, no flag and no system register. -/
theorem keys_barrier : ({ guard := g, refs := [.rd .m a, .idx b], commit := true, xlane := true, seqOk := false } : Info).keys = [] := by
  have hread : (Ref.idx b).write = false := by
    unfold Ref.idx
    split <;> rfl
  simp [Info.keys, Ref.rd, hread]

theorem barrierForm_sync : BarrierForm g b a (.barSync g b a) 0 (infoBarSync g b a) := ⟨rfl, rfl, fun _ => rfl, keys_barrier g b a⟩

theorem barrierForm_arrive : BarrierForm g b a (.barArrive g b a) 1 (infoBarArrive g b a) := ⟨rfl, rfl, fun _ => rfl, keys_barrier g b a⟩

theorem barrierForm_wait : BarrierForm g b a (.barWait g b a) 2 (infoBarWait g b a) := ⟨rfl, rfl, fun _ => rfl, keys_barrier g b a⟩

variable {g b a} {s : State} {i : Issue} {e : Engine} {live : Dword} {x : Instr} {form : Nat} {f : Info} {c : Option Nat} {bar : Barrier}

/-- Lanes of a gang with no uncommitted stores that meet at a barrier. -/
structure AtBarrier (g : Guard) (b a : Fin 64) (s : State) (i : Issue) (e : Engine) (live : Dword) (x : Instr) (c : Option Nat)
    (bar : Barrier) : Prop where
  issues : s.Issues x i e
  executes : e.Executes i g live
  meets : e.Meets i (e.mask a) live
  beats : e.beats = []
  held : ∀ k l, live.getLsbD k = true → e.lanes.find? k = some l → holdsBarrier s e b l = true ∧ named b l = c
  barrier : s.barrierOf e c = some bar

variable (hat : AtBarrier g b a s i e live x c bar) (hx : BarrierForm g b a x form f)
include hat hx

theorem exec_at : ∃ u e', Met s i e live u e' ∧ exec x s = .next (
    if (form != 2 || !(e.arrivals.any fun p => p.1 == barrierCode c)) && s.outstanding i.eng live c.isNone (s.nextId + 1) then
      (u.sleep i.eng live i.pc i.insn i.len true (.arrive form c (e.mask a))).2
    else u.barrierGo e' (arrivalWait i live form c (e.mask a)) form c (e.mask a)) := by
  obtain ⟨hf, rfl, hexec, hkeys⟩ := hx
  exact exec_of_meets hat.issues hf hat.executes (hexec s) hkeys hat.meets hat.beats hat.held

/-- With its earlier accesses performed the gang does at once what its form does. -/
theorem exec_performed (hperformed : ∀ n, s.outstanding i.eng live c.isNone n = false) : ∃ u e', Met s i e live u e' ∧
    exec x s = .next (u.barrierGo e' (arrivalWait i live form c (e.mask a)) form c (e.mask a)) := by
  obtain ⟨u, e', hmet, hexec⟩ := exec_at hat hx
  rw [hperformed, Bool.and_false] at hexec
  exact ⟨u, e', hmet, hexec⟩

theorem bar_waits (hform : form = 0 ∨ form = 2 ∧ (e.arrivals.find? fun p => p.1 == barrierCode c) = none)
    (hperformed : ∀ n, s.outstanding i.eng live c.isNone n = false) (hmask : bar.mask = none ∨ bar.mask = some (e.mask a)) :
    let full := Spec.allIn s e (bar.arrived ++ [i.eng]) c
    ∃ t, exec x s = .next t ∧ s.sameMemory t ∧ t.barrierOf e c = some (nextPhase full (withArrival bar (e.mask a) i.eng)) ∧
      Sleeps i e live t (if full then .until_ (Spec.released s e c) else .barrier (barrierCode c) bar.phase) := by
  obtain ⟨u, e', hmet, hexec⟩ := exec_performed hat hx hperformed
  exact ⟨_, hexec, waits_outcome hmet hat.barrier hmask hform⟩

theorem bar_arrives (hform : form = 1) (hperformed : ∀ n, s.outstanding i.eng live c.isNone n = false)
    (hmask : bar.mask = none ∨ bar.mask = some (e.mask a)) :
    let full := Spec.allIn s e (bar.arrived ++ [i.eng]) c
    ∃ t, exec x s = .next t ∧ s.sameMemory t ∧ t.barrierOf e c = some (nextPhase full (withArrival bar (e.mask a) i.eng)) ∧
      Goes i e live t ((barrierCode c, bar.phase) :: e.arrivals.filter fun p => p.1 != barrierCode c) := by
  subst hform
  obtain ⟨u, e', hmet, hexec⟩ := exec_performed hat hx hperformed
  exact ⟨_, hexec, arrives_outcome hmet hat.barrier hmask⟩

theorem bar_recorded (hform : form = 2) {ph : Nat} (hrec : (e.arrivals.find? fun p => p.1 == barrierCode c) = some (barrierCode c, ph)) :
    ∃ t, exec x s = .next t ∧ s.sameMemory t ∧ t.barrierOf e c = some bar ∧
      if ph < bar.phase then Goes i e live t (e.arrivals.filter fun p => p.1 != barrierCode c)
      else Sleeps i e live t (.barrier (barrierCode c) ph) := by
  subst hform
  obtain ⟨u, e', hmet, hexec⟩ := exec_at hat hx
  have hany : (e.arrivals.any fun p => p.1 == barrierCode c) = true :=
    List.any_eq_true.mpr ⟨_, List.mem_of_find?_eq_some hrec, beq_self_eq_true _⟩
  rw [hany] at hexec
  exact ⟨_, hexec, recorded_outcome hmet hat.barrier hrec⟩

theorem bar_unperformed (hform : form = 2 → (e.arrivals.find? fun p => p.1 == barrierCode c) = none)
    (hout : s.outstanding i.eng live c.isNone s.nextId = true) :
    ∃ t, exec x s = .next t ∧ s.sameMemory t ∧ t.barrierOf e c = some bar ∧ Sleeps i e live t (.arrive form c (e.mask a)) := by
  obtain ⟨u, e', hmet, hexec⟩ := exec_at hat hx
  have harrives : (form != 2 || !(e.arrivals.any fun p => p.1 == barrierCode c)) = true := by
    by_cases h : form = 2
    · have hany : (e.arrivals.any fun p => p.1 == barrierCode c) = false := List.any_eq_false.mpr (List.find?_eq_none.mp (hform h))
      simp [hany]
    · simp [h]
  rw [harrives, outstanding_mono (Nat.le_succ _) hout] at hexec
  have hsteady := hmet.steady.trans (steady_sleep u i.eng live i.pc i.insn i.len true (.arrive form c (e.mask a)))
  exact ⟨_, hexec, hsteady.sameMemory, (barrierOf_of_steady rfl c hsteady).trans hat.barrier, sleeps_sleep hmet.eng hmet.lane _ _ _⟩

theorem bar_mismatch {m : Dword} (hform : form ≠ 2 ∨ (e.arrivals.find? fun p => p.1 == barrierCode c) = none)
    (hperformed : ∀ n, s.outstanding i.eng live c.isNone n = false) (hmask : bar.mask = some m) (hne : m ≠ e.mask a) :
    ∃ u e', u.engine i.eng = some e' ∧ s.sameMemory u ∧ u.barrierOf e c = some bar ∧
      (∀ k l, live.getLsbD k = true → e.lanes.find? k = some l → e'.lanes.find? k = some { l with status := .ready, issued := true }) ∧
      exec x s = .next (u.raise { eng := i.eng, cause := .mask, lanes := live, pc := i.pc, insn := i.insn, faddr := 0, detail := 0 }) := by
  obtain ⟨t, e', hmet, hexec⟩ := exec_performed hat hx hperformed
  rw [barrierGo_mismatch hmet hat.barrier hmask hne hform] at hexec
  have hsteady : Steady s _ := hmet.steady.trans
    (steady_modEngine t i.eng (f := fun e => e.mapLanes live fun _ l => { l with status := .ready }) fun _ => rfl)
  refine ⟨_, _, engine_modEngine_self hmet.eng _, hsteady.sameMemory, (barrierOf_of_steady rfl c hsteady).trans hat.barrier,
    fun k l hk hfind => ?_, hexec⟩
  rw [Engine.find?_mapLanes, hmet.lane k l hk hfind]
  simp [hk]

end Clauses

theorem named_eq (b : Fin 64) (l : Lane) : (if b = 0 then none else some (l.reg b).toNat) = named b l := by
  simp only [named, Fin.ext_iff]
  rfl

theorem barrierForm_of_mem {g : Guard} {b a : Fin 64} {x : Instr} (h : x ∈ [Instr.barSync g b a, .barArrive g b a, .barWait g b a]) :
    ∃ form f, BarrierForm g b a x form f ∧ (form = 2 → x = .barWait g b a) := by
  simp only [List.mem_cons, List.not_mem_nil, or_false] at h
  rcases h with rfl | rfl | rfl
  · exact ⟨0, _, barrierForm_sync g b a, fun h => absurd h (by decide)⟩
  · exact ⟨1, _, barrierForm_arrive g b a, fun h => absurd h (by decide)⟩
  · exact ⟨2, _, barrierForm_wait g b a, fun _ => rfl⟩

theorem nextPhase_withArrival (full : Bool) (bar : Barrier) (mask : Dword) (n : Nat) : nextPhase full (withArrival bar mask n) =
    if full then ⟨bar.phase + 1, none, []⟩ else ⟨bar.phase, some mask, bar.arrived ++ [n]⟩ := rfl

theorem barrierCode_eq (c : Option Nat) : (c.map (· + 1)).getD 0 = barrierCode c := by cases c <;> rfl

theorem barriers : Spec.Barriers := by
  intro g b a s i e live x hmem hiss hl
  simp only [named_eq, barrierCode_eq, ← nextPhase_withArrival]
  refine ⟨fun k l hk hfind hnot hmin => ?_, fun c bar hm hbeats hheld hof => ?_⟩
  · obtain ⟨form, f, ⟨hf, rfl, hexec, -⟩, -⟩ := barrierForm_of_mem hmem
    exact barrier_refuses hiss hf hl (hexec s) hk hfind hnot hmin
  have hat : AtBarrier g b a s i e live x c bar := ⟨hiss, hl, hm, hbeats, hheld, hof⟩
  refine ⟨?_, ?_, ?_, ?_, ?_⟩
  · rintro (rfl | ⟨rfl, hnone⟩) ⟨hperformed, hmask⟩
    · exact bar_waits hat (barrierForm_sync g b a) (.inl rfl) hperformed hmask
    · exact bar_waits hat (barrierForm_wait g b a) (.inr ⟨rfl, hnone⟩) hperformed hmask
  · rintro rfl ⟨hperformed, hmask⟩
    exact bar_arrives hat (barrierForm_arrive g b a) rfl hperformed hmask
  · rintro ph rfl hrec
    exact bar_recorded hat (barrierForm_wait g b a) rfl hrec
  · intro form hform hrec hout
    simp only [List.mem_cons, Prod.mk.injEq, List.not_mem_nil, or_false] at hform
    rcases hform with ⟨rfl, rfl⟩ | ⟨rfl, rfl⟩ | ⟨rfl, rfl⟩
    · exact bar_unperformed hat (barrierForm_sync g b a) hrec hout
    · exact bar_unperformed hat (barrierForm_arrive g b a) hrec hout
    · exact bar_unperformed hat (barrierForm_wait g b a) hrec hout
  · intro m hform hperformed hmask hne
    obtain ⟨form, f, hx, htwo⟩ := barrierForm_of_mem hmem
    refine bar_mismatch hat hx ?_ hperformed hmask hne
    by_cases h : form = 2
    · exact .inr (hform.resolve_left fun hnot => hnot (htwo h))
    · exact .inl h

/-! ## `dflush` (R162) -/

section Dflush

variable {g : Guard} {s : State} {i : Issue} {e : Engine} {live : Dword}

theorem exec_dflush (g : Guard) (s : State) : exec (.dflush g) s = gated (infoDflush g) s fun i e live =>
    if s.isDet e && e.block.isSome then
      if live = 0 ∧ (e.open_.find? fun x => x.pc == i.pc).isNone then .next (s.setEngine i.eng (e.advance i))
      else .next (crossIssue (infoDflush g) s i e live none .dflush fun _ => ⟨0, 0⟩)
    else .next (s.setEngine i.eng (e.advance i)) := rfl

theorem dflush_goesOn (hiss : s.Issues (.dflush g) i e) (hl : e.Executes i g live) (h : (s.isDet e && e.block.isSome) = false) :
    exec (.dflush g) s = .next (s.setEngine i.eng (e.advance i)) := by
  rw [exec_dflush, gated_spec hiss rfl hl, h]
  rfl

theorem dflush_meets (hiss : s.Issues (.dflush g) i e) (hl : e.Executes i g live) (h : (s.isDet e && e.block.isSome) = true)
    (hsome : live ≠ 0) : exec (.dflush g) s =
      .next (crossIssue (infoDflush g) s { i with away := i.lanes &&& ~~~live } e live none .dflush fun _ => ⟨0, 0⟩) := by
  rw [exec_dflush, gated_spec hiss rfl hl, h, if_pos rfl, if_neg fun hboth => hsome hboth.1]

theorem mem_of_getLsbD_lanesWhere {p : Nat → Lane → Bool} {k : Nat} (h : (e.lanesWhere p).getLsbD k = true) :
    ∃ l, (k, l) ∈ e.lanes ∧ p k l = true := by
  rw [Engine.lanesWhere, getLsbD_listMask _ _ (BitVec.lt_of_getLsbD h), List.contains_iff_mem] at h
  obtain ⟨⟨j, l⟩, hmem, rfl⟩ := List.mem_map.mp h
  exact ⟨l, List.mem_filter.mp hmem⟩

/-- The live lanes of a gang make a mask that fits it. -/
theorem toNat_lanesWhere_lt {p : Nat → Lane → Bool} (h : ∀ q ∈ e.lanes, p q.1 q.2 = true → q.1 < e.width) :
    (e.lanesWhere p).toNat < 2 ^ e.width := by
  refine Nat.lt_pow_two_of_testBit _ fun k hk => Bool.eq_false_iff.mpr fun hbit => ?_
  obtain ⟨l, hmem, hp⟩ := mem_of_getLsbD_lanesWhere (e := e) (p := p) (k := k) hbit
  exact absurd (h (k, l) hmem hp) (Nat.not_lt.mpr hk)

variable (hissued : ∀ k, (e.lane k).live = true → i.lanes.getLsbD k = true)
  (hopen : ∀ y ∈ e.open_, y.pc ≠ i.pc ∧ y.complete e = false)
  (hfound : ∀ k, live.getLsbD k = true → (e.lanes.find? k).isSome = true)
include hissued hfound

/-- Once every live lane of the gang has issued, nobody is awaited. -/
theorem complete_dflush {op : CrossOp} {src : Lane → Arrived} {f : Info} :
    let y := opened s i e live live none op src
    y.complete (atMeeting f i e live live y) = true := by
  intro y
  refine (complete_iff _ y).mpr fun k _ => ?_
  by_cases hlive : live.getLsbD k = true
  · left
    change ((arrivals e live src).find? k).isSome = true
    rw [find?_arrivals, if_pos hlive, Option.isSome_map]
    exact hfound k hlive
  · rw [Bool.not_eq_true] at hlive
    right
    cases hstands : (e.lane k).live with
    | true =>
      left
      change (i.lanes &&& ~~~live).getLsbD k = true
      rw [getLsbD_away, hissued k hstands, hlive]
      rfl
    | false =>
      right
      rw [live_lane_atMeeting fun _ h => h, hstands, hlive]
      rfl

include hopen

/-- The lanes of a gang that all issue `dflush` meet, and sleep until their block has drained. -/
theorem crossIssue_dflush {f : Info} (hbad : e.crossBad i live none = 0) (hne : e.lanesOf live ≠ []) :
    let y := opened s i e live live none .dflush fun _ => ⟨0, 0⟩
    crossIssue f s i e live none .dflush (fun _ => ⟨0, 0⟩) =
      (((withEngine s i.eng (atMeeting f i e live live y)).setEngine i.eng (meetingDone f i e live y)).sleep i.eng live i.pc i.insn i.len
        false .dflush).2 := by
  intro y
  have hself : live &&& ~~~(0 : Dword) = live := BitVec.and_allOnes
  have hlanes : listMask (Store.keys y.arrived) = live := by
    change listMask (Store.keys (arrivals e live fun _ => ⟨0, 0⟩)) = live
    rw [keys_arrivals, listMask_lanesOf hfound]
  have harr : y.arrived.isEmpty = false := by simpa [y, opened, arrivals] using hne
  have hclosed : { atMeeting f i e live live y with open_ := (atMeeting f i e live live y).open_.filter fun z => z.pc != y.pc } =
      meetingDone f i e live y := closed_atMeeting fun z hz => (hopen z hz).1
  rw [crossIssue_opens (fun y hy => (hopen y hy).1) hbad hself]
  dsimp only
  rw [if_pos rfl]
  refine (checkInstances_of_complete (engine_withEngine _) rfl (complete_dflush hissued hfound)
    (awaiting_atMeeting (fun _ h => h) fun y hy => (hopen y hy).2)).trans ?_
  change State.finishInstance _ _ (atMeeting f i e live live y) y = _
  rw [State.finishInstance, harr, hlanes]
  simp only [hclosed]
  rfl

end Dflush

theorem dflushMeets : Spec.DflushMeets := by
  intro g s i e live hiss hl
  refine ⟨fun h => ⟨_, dflush_goesOn hiss hl h, Transfers.lanesOf_advance e i⟩, fun h hsome hwidth hlive hissued hopen => ?_⟩
  let j := { i with away := i.lanes &&& ~~~live }
  have hfound : ∀ k, live.getLsbD k = true → (e.lanes.find? k).isSome = true := fun k hk => GangRegisters.isSome_of_executes hl hk
  have hne : e.lanesOf live ≠ [] := fun hnil => hsome ((listMask_lanesOf hfound).symm.trans (by rw [hnil]; rfl))
  have hin : ∀ k, live.getLsbD k = true → (e.lanesWhere fun _ l => l.live).getLsbD k = true := fun k hk => by
    obtain ⟨l, hfind⟩ := Option.isSome_iff_exists.mp (hfound k hk)
    exact getLsbD_lanesWhere (BitVec.lt_of_getLsbD hk) hfind (hlive k l hk hfind)
  have hbad : e.crossBad j live none = 0 := crossBad_of_inMask (fun y hy => (hopen y hy).1) hsome (toNat_lanesWhere_lt hwidth) hin
  let y := opened s j e live live none .dflush fun _ => ⟨0, 0⟩
  let t := (withEngine s i.eng (atMeeting (infoDflush g) j e live live y)).setEngine i.eng (meetingDone (infoDflush g) j e live y)
  have heng : t.engine i.eng = some (meetingDone (infoDflush g) j e live y) := State.engine_setEngine_self ..
  have hsteady : Steady s t :=
    steady_of_onlyEngine (onlyEngine_setEngine (onlyEngine_withEngine _)) hiss.eng heng (seat_meetingDone ..)
  have hmet : Met s i e live t (meetingDone (infoDflush g) j e live y) := met_meetingDone hsteady heng rfl rfl rfl
  have hexec := (dflush_meets hiss hl h hsome).trans (congrArg _ (crossIssue_dflush (i := j) hissued hopen hfound hbad hne))
  refine ⟨_, { id := t.nextId, eng := i.eng, lanes := live, pc := i.pc, insn := i.insn, len := i.len, commit := false, kind := .dflush }, _, hexec,
    (hsteady.trans (steady_sleep t i.eng live i.pc i.insn i.len false .dflush)).sameMemory,
    List.mem_append_right _ (List.mem_singleton_self _), rfl, rfl, rfl, engine_sleep heng .., fun k l hk hfind => ?_⟩
  rw [Engine.find?_mapLanes, hmet.lane k l hk hfind]
  simp [hk]

end Sys2Proof.BarrierArrivals

open Sys2Proof Sys2Proof.Machine Sys2Proof.BarrierArrivals

/-- Settles O18: an issue opens a meeting, and a completed one at a barrier or a `dflush` leaves what the gang's form says. -/
theorem meetingsAndBarriers : Obligations.MeetingsAndBarriers := ⟨OpenMeetings.arrivalsOpenAnInstance, barriers, dflushMeets⟩

end
